-- ==== Sys2Proof/Word.lean ====
section
/-!
DEFINITION. Word.lean: the word types of the model and their plainest arithmetic.
-/
namespace Sys2Proof

/-- A register, operand-buffer or datagram word of 32 bits (R30, R164). -/
abbrev Word := BitVec 32

/-- A 64-bit value: a tag value (R23 and the tag store), a 64-bit operand of a fabric op. -/
abbrev DWord := BitVec 64

/-- One byte of Tarn 1 or of a container. -/
abbrev Byte := BitVec 8

/-- A device time, or a span of one: a count of 2^-16 ns, the finest unit of device time (R59). -/
abbrev Time := Nat

/-- A tag number: class in bits 24:22 and index in bits 21:0 (R20 and the table before it). -/
abbrev Tag := Nat

end Sys2Proof
end

