-- ==== Sys2Proof/Image.lean ====
section
/-!
DEFINITION. Image.lean: the parsed content of a configuration image (R257, R258), of a safety parameter block (R735), of
a firmware manifest, and of the surroundings that a start meets. A container's bytes, hashes and signatures are
not state of the machine; their verdicts enter as operands of the commands (notes/assumptions/4.md).
-/
namespace Sys2Proof

/-- A schedule window, R247. KIND is 0 LATCH, 1 LOGIC, 2 COMMIT, 3 HOUSE, 4 SLACK. -/
structure WinDef where
  start : Nat
  len : Nat
  kind : Nat
  opCount : Nat := 0
  opFirst : Nat := 0
  wc : Nat := 0
  deriving DecidableEq, Repr

/-- The schedule table, section 0x0001 (R246): windows by tile, tile 0 first, without the padding entries of R247. -/
structure Schedule where
  baseK : Nat := 0
  latchEnd : Nat := 0
  commitDeadline : Nat := 0
  commitEnd : Nat := 0
  tiles : List (List WinDef) := []
  deriving DecidableEq, Repr

/-- A code entry, R268. -/
structure CodeDef where
  tileMask : Nat
  opCount : Nat
  budget : Nat
  commitMax : Nat := 0
  inWords : Nat := 0
  outWords : Nat := 0
  bufBase : Nat := 0
  qopsMax : Nat := 0
  opFirst : List Nat := []
  deriving DecidableEq, Repr

/-- An item entry, R269. -/
structure ItemDef where
  stableId : Nat
  code : Nat
  tileMask : Nat
  paramAddr : Nat
  priority : Nat
  hostOk : Bool := false
  deriving DecidableEq, Repr

/-- An entry of the tag directory, R533. -/
structure TagDef where
  tag : Tag
  binding : Nat
  metadata : DWord
  deriving DecidableEq, Repr

/-- One retained item of section 0x0008 (R318). -/
inductive RetainItem where
  /-- A program variable in Tarn 1: byte address and bytes. -/
  | var (addr bytes : Nat)
  /-- A timer instance: tile and operand-buffer word; four words. -/
  | timer (tile word : Nat)
  /-- An edge detector: tile and operand-buffer word; one word. -/
  | edge (tile word : Nat)
  /-- The integrator of a loop, eight bytes. -/
  | loopI (loop : Nat)
  deriving DecidableEq, Repr

/-- What a stable identity of section 0x0008 names (R345). -/
inductive InstKind where
  /-- A program variable: type number, byte address and bytes. -/
  | var (type addr bytes : Nat)
  /-- A timer: 0 TON, 1 TOF, 2 TP; tile and word. -/
  | timer (type tile word : Nat)
  /-- An edge detector: 0 RTRIG, 1 FTRIG; tile and word. -/
  | edge (type tile word : Nat)
  deriving DecidableEq, Repr

/-- An instance identity of section 0x0008 (R345). -/
structure InstDef where
  ident : Nat
  kind : InstKind
  deriving DecidableEq, Repr

/-- A register setting of section 0x000D (R43), and the placement of a register's initial contents by another section. -/
structure RegSetting where
  addr : Nat
  value : Word
  mask : Word := 0xFFFFFFFF
  deriving DecidableEq, Repr

/-- A stream entry of section 0x000B (R544). -/
structure EntryDef where
  tag : Tag
  stream : Nat
  deadband : Word := 0
  heartbeat : Nat := 0
  mode : Nat := 0
  k : Nat := 0
  div : Nat := 0
  fineTag : Tag := 0
  deriving DecidableEq, Repr

/-- A module entry of section 0x000C (R644) with its passive segment. -/
structure ModuleDef where
  port : Nat
  slot : Nat
  required : Bool := false
  lossAction : Nat := 0
  vendor : Nat := 0
  product : Nat := 0
  identCrc : Nat := 0
  inBytes : Nat := 0
  outBytes : Nat := 0
  holdLimitMs : Nat := 0
  safeId : Nat := 0
  passive : List Word := []
  deriving DecidableEq, Repr

/-- A link of the chain plan (R653): device, port, neighbour, neighbour port. -/
structure ChainLink where
  dev : Nat
  port : Nat
  nb : Nat
  nbPort : Nat
  deriving DecidableEq, Repr

/-- An exported tag (R670): tag, ticks between frames, and its Lintel export number. -/
structure ExportDef where
  tag : Tag
  period : Nat
  deriving DecidableEq, Repr

/-- An imported tag (R670): origin device, its tag, the class 6 tag here and the stale time in ticks. -/
structure ImportDef where
  origin : Nat
  tag : Tag
  local6 : Tag
  stale : Nat
  deriving DecidableEq, Repr

/-- The pair part of section 0x000C (R682). -/
structure PairDef where
  en : Bool := false
  autoRun : Bool := false
  yieldOnFault : Bool := true
  yieldOnFeed : Bool := false
  syncLag : Nat := 4
  shaftHoldWin : Nat := 8
  etype : Nat := 0x88B7
  waitMs : Nat := 2000
  binBytes : Nat := 65536
  claimBase : Nat := 1
  fpA : Nat := 0
  fpB : Nat := 0
  sel : List Tag := []
  deriving DecidableEq, Repr

/-- A host key of section 0x000E (R172 to R174): fingerprint and the highest role it may take (1 to 3). -/
structure HostKey where
  fp : Nat
  role : Nat
  deriving DecidableEq, Repr

/-- A configuration image (R257, R258), section by section. -/
structure Image where
  imageId : Nat := 0
  /-- FORMAT of the image (R784, R793). -/
  format : Nat := 1
  /-- SHA3-256 of the image, one 256-bit number. -/
  hash : Nat := 0
  /-- The verdict on the form of its bytes: header, directory, schedule table and work-item descriptors (R246, R247, R257, R258, R267). -/
  formOk : Bool := true
  schedule : Schedule := {}
  /-- Op-store contents by tile: (index, op word) from index 0 up. -/
  ops : List (List DWord) := []
  /-- Operand-buffer initial contents by tile: (word, value). -/
  operands : List (List (Nat × Word)) := []
  /-- Tarn 1 initial data: (byte address, bytes). -/
  tarn1 : List (Nat × List Byte) := []
  /-- Pairs of (tile, window index): producer before consumer. -/
  deps : List ((Nat × Nat) × (Nat × Nat)) := []
  tags : List TagDef := []
  codes : List CodeDef := []
  items : List ItemDef := []
  retain : List RetainItem := []
  insts : List InstDef := []
  /-- Words each tile moves at a swap (R343). -/
  xfer : List Nat := []
  loops : List Nat := []
  axes : List Nat := []
  streams : List Nat := []
  entries : List EntryDef := []
  triggers : List Nat := []
  units : List (Nat × List Tag) := []
  capMib : Nat := 0
  modules : List ModuleDef := []
  chain : List ChainLink := []
  /-- The device with LN_CFG.LEADER = 1 in the chain plan (R665). -/
  leader : Nat := 0
  exports : List ExportDef := []
  imports : List ImportDef := []
  /-- The class 6 tags of the line shaft: position integer, position fraction, velocity, acceleration (R666). -/
  shaft : List Tag := []
  pair : PairDef := {}
  /-- Initial register contents that sections 0x0009 to 0x000C and 0x000E place, by address. -/
  placed : List RegSetting := []
  /-- Section 0x000D, in order (R43). -/
  settings : List RegSetting := []
  /-- Gain-table nodes of the loops: (loop, node, Q3.12 value) (R389). -/
  nodes : List (Nat × Nat × Nat) := []
  hostKeys : List HostKey := []
  /-- SHA3-256 reference of the safety parameter block; 0 none (section 0x000F). -/
  safetyRef : Nat := 0
  deriving DecidableEq, Repr

/-! ## The safety parameter block (R735) -/

/-- A safe input. Times in 10 µs samples. -/
structure SafeInDef where
  enable : Bool := false
  tpA : Nat := 4
  tpB : Nat := 4
  filt : Nat := 0
  disc : Nat := 100
  deriving DecidableEq, Repr

/-- A test-pulse source. Period in frames of 20 ms, other times in 10 µs samples. -/
structure SafeTpDef where
  period : Nat := 1
  width : Nat := 25
  settle : Nat := 2
  deriving DecidableEq, Repr

/-- A demand source of a function (R747): an input, or a bit of an inbound connection, whose timeout demands too. -/
inductive DemandSrc where
  | input (i : Nat)
  | connBit (c bit : Nat)
  deriving DecidableEq, Repr

/-- A safe function. Delays in 10 µs samples. -/
structure SafeFnDef where
  sources : List DemandSrc := []
  stopCat : Nat := 0
  ss1Delay : Nat := 0
  /-- RESTART: 0 automatic, 1 by reset. -/
  restart : Nat := 1
  qstopAxes : List Nat := []
  /-- DARK_INT in seconds, and DARK_W in 10 µs samples. -/
  darkInt : Nat := 0
  darkW : Nat := 0
  deriving DecidableEq, Repr

/-- A brake. BRK_INT in hours. -/
structure SafeBrkDef where
  func : Nat := 0
  axis : Nat := 0
  testI : Nat := 0
  testMs : Nat := 0
  brkWin : Nat := 0
  brkInt : Nat := 8
  reqTag : Tag := 0
  testTag : Tag := 0
  deriving DecidableEq, Repr

/-- A safety connection (R757 to R762). -/
structure SafeConnDef where
  safeId : Nat := 0
  inbound : Bool := true
  viaLintel : Bool := false
  port : Nat := 0
  target : Nat := 0
  dataLen : Nat := 0
  seed : Nat := 0
  /-- The axis whose safe position DATA carries. -/
  posAxis : Option Nat := none
  wdUs : Nat := 0
  deriving DecidableEq, Repr

/-- A safety parameter block. -/
structure SafetyBlock where
  hash : Nat := 0
  blockId : Nat := 0
  inputs : List SafeInDef := []
  tps : List SafeTpDef := []
  fns : List SafeFnDef := []
  brks : List SafeBrkDef := []
  conns : List SafeConnDef := []
  deriving DecidableEq, Repr

/-! ## Firmware sets (R784) -/

/-- A firmware set: RESULT_HASH, the hash of its manifest, its FORMAT, SEC_VERSION, the versions of components 1 to 6, the steppings,
combinations and image formats it lists, and MORTAR_VERSION (R784); the verdicts on the component hashes and on the signature of
component 5 (R785). -/
structure Firmware where
  hash : Nat := 0
  manifest : Nat := 0
  secVersion : Nat := 0
  versions : List Nat := [1, 1, 1, 1, 1, 1]
  combos : List (List Nat) := [[1, 1, 1, 1, 1, 1]]
  formats : List Nat := [1]
  format : Nat := 1
  steppings : List Nat := [0xB0]
  mortar : Nat := 1
  hashesOk : Bool := true
  sigOk : Bool := true
  deriving DecidableEq, Repr

end Sys2Proof
end

