-- ==== Sys2Proof/Syntax.lean ====
section
/-!
DEFINITION. Syntax.lean: the operands of the commands and Instr, the one inductive of commands, one constructor for each
row of the opcode table. What comes from outside the block (a frame's content, a pin level, a verdict of cryptography, what
a start meets) is an operand; what the block itself knows is not.
-/
namespace Sys2Proof

/-- An op word, fields of R237, with ADDR and AUX of the second word of a long op (R238). -/
structure OpWord where
  cond : BitVec 2 := 0
  pred : BitVec 4 := 0
  dst : BitVec 14 := 0
  a : BitVec 14 := 0
  b : BitVec 14 := 0
  imm : BitVec 8 := 0
  addr : BitVec 32 := 0
  aux : BitVec 32 := 0
  deriving DecidableEq, Repr

/-- What a REPORT tells of one module (R635). -/
structure ModReport where
  port : Nat
  slot : Nat
  /-- Part of the report and the parts in all. -/
  part : Nat := 0
  parts : Nat := 1
  vendor : Nat := 0
  product : Nat := 0
  revision : Nat := 0
  serial : Nat := 0
  identCrc : Nat := 0
  inBytes : Nat := 0
  outBytes : Nat := 0
  /-- FWD_NS, SEND_LAT_NS, CAPS, LINK_A_NS and LINK_B_NS of the identity block. -/
  fwd : Nat := 0
  sendLat : Nat := 0
  caps : Nat := 0
  linkA : Nat := 0
  linkB : Nat := 0
  points : List Nat := []
  deriving DecidableEq, Repr

/-- A HEARTBEAT (R690, R691). `tick` is seconds × 64,000 + tick index; role 0 none, 1 ACTIVE, 2 STANDBY, 3 YIELDING. -/
structure BeatMsg where
  tick : Nat := 0
  version : Nat := 1
  claim : Nat := 0
  role : Nat := 0
  mode : Nat := 0
  unitB : Bool := false
  inSync : Bool := false
  resync : Bool := false
  partnerKnown : Bool := true
  vkaA : Bool := true
  vkaB : Bool := true
  feedA : Bool := true
  feedB : Bool := true
  olcReady : Bool := false
  claimSeen : Nat := 0
  lnSeq : Nat := 0
  ackEpoch : Nat := 0
  imageId : Nat := 0
  safetyHash : Nat := 0
  deriving DecidableEq, Repr

/-- An IDENT challenge with its nonce, or one of the 21 frames of an answer (R662): the device number and fingerprint that the answer
signs, its public key, and the verdict on its signature. -/
structure IdentMsg where
  answer : Bool
  piece : Nat := 0
  nonce : Nat := 0
  num : Nat := 0
  fp : Nat := 0
  key : Nat := 0
  sigOk : Bool := true
  deriving DecidableEq, Repr

/-- What a start meets outside the device's own state: straps, tests, the verdicts on stored containers, and answers on
the links (R136 to R142). -/
structure StartEnv where
  /-- The recovery strap (R138), and TEST_EN (R827). -/
  recovery : Bool := false
  testEn : Bool := false
  sgmii : Bool := false
  /-- Firmware signature and hash verdicts of slots A and B, and of configuration slots A and B. -/
  fwAOk : Bool := true
  fwBOk : Bool := true
  cfgAOk : Bool := true
  cfgBOk : Bool := true
  dramMib : Nat := 4096
  /-- Why each pass of the start fails, coded as DEV_START_STATUS.LAST_FAIL codes it (1 to 5, R139); a pass of another code, or
  beyond the list, does not fail in this way. -/
  fails : List Nat := []
  /-- The safety block's signature verdict on channel P, and channel W's hash comparison. -/
  blockOk : Bool := true
  blockOkW : Bool := true
  mramBytes : Nat := 1048576
  mramRate : Nat := 40
  /-- Whether the journal's header copies and BASE record verify (R326), and the settings copy can be read (R795). -/
  mramOk : Bool := true
  settingsOk : Bool := true
  /-- Reads that had to be retried from NVM1 (R777). -/
  retries : Nat := 0
  /-- PHY link of SVC as HA_LINK.LINK codes it (R226). -/
  svcLink : Nat := 3
  /-- Capacities of NVM0 and NVM1 as probed, in Mbit; 0 not fitted (R823). -/
  nvm0 : Nat := 2048
  nvm1 : Nat := 2048
  /-- Modules that answer on the ports. -/
  modules : List ModReport := []
  /-- Ports whose link is up. -/
  links : List Nat := [0, 1, 2, 3, 4, 5, 6, 7]
  /-- The pair partner met at steps 11 and 12: the identity fingerprint it proved, if any, and its last HEARTBEAT, if any. -/
  partnerFp : Option Nat := none
  partner : Option BeatMsg := none
  /-- Whether the newest record of each boot-record copy is valid (R778). -/
  recAOk : Bool := true
  recBOk : Bool := true
  /-- Lintel units whose link is up at step 11, with the neighbour's answer to the IDENT challenge (R662). -/
  neighbours : List (Nat × IdentMsg) := []
  /-- Duration of the start in ms. -/
  ms : Nat := 0
  deriving DecidableEq, Repr

/-- One item of a WRITE (R192). -/
structure WriteItem where
  addr : Nat
  value : Word
  mask : Word := 0xFFFFFFFF
  deriving DecidableEq, Repr

/-- The body of SUBSCRIBE (R199 to R201): kind 1 events, 2 values. -/
structure SubReq where
  kind : Nat
  changeOnly : Bool := false
  periodK : Nat := 6
  minBand : Nat := 0
  blockMask : Nat := 0
  addrs : List Nat := []
  deriving DecidableEq, Repr

/-- An Announce message (R60, R68, R69): the grandmaster's data set, its distance, its sender and currentUtcOffset. -/
structure Announce where
  domain : Nat := 24
  /-- Whether the message carries the identity expected of the configured master (line profile, R69, R87). -/
  fromMaster : Bool := true
  utcOffset : Int := 37
  priority1 : Nat := 128
  clockClass : Nat := 6
  accuracy : Nat := 0xFE
  variance : Nat := 0xFFFF
  priority2 : Nat := 128
  /-- Identity of the grandmaster, and the boundary clocks between it and the sender. -/
  gm : Nat := 1
  steps : Nat := 0
  /-- Port identity of the sender: clock identity and port number. -/
  source : Nat := 65537
  deriving DecidableEq, Repr

/-- A Sync, with its Follow_Up where the sender is a two-step clock (R61, R68): the origin time-stamp as the wire carries it, the
sum of the correctionFields, the raw time-stamp of its arrival, and the time that it stays in the device where it is forwarded. -/
structure SyncMsg where
  domain : Nat := 24
  secs : BitVec 48 := 0
  nanos : Nat := 0
  correction : Int := 0
  stamp : Time
  twoStep : Bool := false
  residence : Nat := 0
  deriving DecidableEq, Repr

/-- What the delay mechanism of a port receives (R68, R89): a complete exchange with its four time-stamps, those of the device raw;
the request of another port; or a fault of the port. -/
inductive DelayMsg where
  | measured (t1 t2 t3 t4 : Time) (correction : Int)
  | asked (peer : Bool) (asker : Nat) (stamp : Time) (correction : Int) (residence : Nat)
  | faulty
  deriving DecidableEq, Repr

/-- What a frame on SVC is (R162): management UDP, address resolution, an echo request, or other traffic. -/
inductive NetUse where
  | mgmt | arp | ndp | echo | other
  deriving DecidableEq, Repr

/-- The address that a frame on SVC names: all stations, or one IPv4 or IPv6 address. -/
inductive NetDst where
  | all
  | v4 (a : Nat)
  | v6 (a : Nat)
  deriving DecidableEq, Repr

/-- How a datagram reached SVC: its use, VLAN ID and priority, UDP port, and whether it is an IP fragment (R162). -/
structure NetIn where
  use : NetUse := .mgmt
  dst : NetDst := .all
  vlan : Option (Nat × Nat) := none
  port : Nat := 19278
  fragment : Bool := false
  deriving DecidableEq, Repr

/-- A management datagram as received: its way, the host address, the header of R165, and the payload bytes that the UDP length
leaves. -/
structure Dgram where
  src : Nat := 0
  viaChain : Bool := false
  net : NetIn := {}
  magic : Nat := 0x4B54
  version : Nat := 1
  type : Nat
  target : Nat := 0xFFFF
  source : Nat := 0xFFFF
  session : Nat := 0
  seq : Nat := 0
  frag : Nat := 0
  frags : Nat := 1
  length : Nat := 0
  udpLen : Nat := length
  deriving DecidableEq, Repr

/-- A SESSION_INIT datagram, with the payload of the message that it completes (R176). -/
structure InitMsg where
  d : Dgram
  nonce : Nat := 0
  fp : Nat
  role : Nat
  /-- The ML-KEM-768 encapsulation key. -/
  ek : Nat := 0
  deriving DecidableEq, Repr

/-- A SECURE datagram (R165 to R168, R181, R182). -/
structure SecureMsg where
  d : Dgram
  /-- The channel whose identifier it bears. -/
  chan : Nat
  /-- The AEAD tag verifies. -/
  authentic : Bool := true
  /-- REQ_ID, OPCODE and BODY_LEN of the message that it completes, and COUNT of a WRITE or SUBSCRIBE (R185, R186). -/
  req : Nat := 0
  op : Nat := 9
  bodyLen : Nat := 0
  count : Nat := 0
  deriving DecidableEq, Repr

/-- A SESSION_CONFIRM datagram, with the payload of the message that it completes and the verdict on HOST_SIG (R176, R177). -/
structure ConfirmMsg where
  d : Dgram
  chan : Nat
  /-- The host's ML-DSA-65 public key. -/
  hostKey : Nat := 0
  sigOk : Bool := true
  deriving DecidableEq, Repr

/-- An upstream stone frame (R619 to R623): its header and content, and whether its FCS is correct. `mod` is the port × 512 + SLOT. -/
structure Stone where
  mod : Nat
  /-- It arrived on the second end of a ring. -/
  viaB : Bool := false
  crcOk : Bool := true
  /-- TYPE, VERSION and LENGTH of the header (R620); `bytes` are the data that follow IDENT_CRC. -/
  type : Nat := 2
  version : Nat := 1
  length : Nat := 20
  seq : Nat := 0
  cycle : Nat := 0
  claim : Nat := 0
  /-- STATUS (R623). -/
  status : Nat := 0
  identCrc : Nat := 0
  /-- The sample time, and the instant at which the frame's arrival starts. -/
  sample : Time := 0
  arrival : Time := 0
  bytes : List Nat := []
  deriving DecidableEq, Repr

/-- A safety container copy (R641, R642, R673, R757): the fields of its frame, DATA_LEN, FLAGS, DATA as one number with byte 0 lowest,
SCRC, and whether its FCS is correct. -/
structure SafeMsg where
  safeId : Nat
  seq : Nat
  data : Nat
  crcOk : Bool := true
  len : Nat := 1
  flags : Nat := 0
  scrc : Nat := 0
  /-- CLAIM of an Ashlar frame; a Lintel frame has it in its header. -/
  claim : Nat := 0
  copyB : Bool := false
  target : Nat := 0
  time : Time := 0
  deriving DecidableEq, Repr

/-- The header of a Lintel frame (R656), with the unit where it arrived, the bytes that followed the header, and whether its FCS is
correct. -/
structure LnHdr where
  unit : Nat
  origin : Nat
  seq : Nat
  claim : Nat := 0
  hops : Nat := 1
  version : Nat := 1
  length : Nat := 0
  bytes : Nat := 0
  crcOk : Bool := true
  deriving DecidableEq, Repr

/-- The header of a Mortar frame (R690) beside its TYPE, and whether its FCS is correct. -/
structure MorHdr where
  version : Nat := 1
  claim : Nat := 0
  /-- EPOCH of a data frame; an end marker carries the epoch that it ends in `EpochEndMsg`. -/
  epoch : Nat := 0
  crcOk : Bool := true
  deriving DecidableEq, Repr

/-- A HELLO frame (R661): fingerprint, DEV_MODE.MODE, and of each unit its number, link state and neighbour. -/
structure HelloMsg where
  fp : Nat := 0
  mode : Nat := 0
  links : List (Nat × Nat × Nat) := []
  deriving DecidableEq, Repr

/-- A SHAFT publication (R665): time, position in 2^-32 counts, velocity and acceleration in 2^-16. -/
structure ShaftMsg where
  t : Time
  p : Int
  v : Int
  a : Int
  deriving DecidableEq, Repr

/-- One entry of an EXPORT frame (R670), and whether it is stale at the producer (R671). -/
structure ExportVal where
  tag : Tag
  value : DWord
  time : Time
  stale : Bool := false
  deriving DecidableEq, Repr

/-- A MGMT frame piece (R674). -/
structure MgmtMsg where
  target : Nat
  message : Nat
  piece : Nat := 0
  pieces : Nat := 1
  /-- SOURCE, TYPE and SESSION of the datagram's header (R165, R166). -/
  source : Nat := 0xFFFF
  type : Nat := 0x20
  session : Nat := 0
  /-- RELAY_ERROR: its REASON and TARGET (R221). -/
  reason : Nat := 0
  about : Nat := 0
  deriving DecidableEq, Repr

/-- The axis state record of R474. Positions in 2^-32 counts, the rest in 2^-16; MODE and STATE as AX_STATUS codes them. -/
structure AxisRec where
  pos : Int := 0
  vel : Int := 0
  acc : Int := 0
  tgt : Int := 0
  mode : Nat := 0
  st : Nat := 1
  /-- AX_STATUS bits 15:0. -/
  status : Nat := 0
  posValid : Bool := false
  sPrev : Int := 0
  sCur : Int := 0
  /-- The deferred DEC. -/
  dec : Option Nat := none
  deriving DecidableEq, Repr

/-- An entry of EPOCH_DATA or RESYNC_DATA (R692). `flags` of a loop is byte 14 of its record (R386). -/
inductive MirItem where
  | block (n : Nat) (v : BitVec 512)
  | tag (t : Tag) (v : DWord)
  | loop (n : Nat) (i u yf r : Int) (flags age : Nat)
  | axis (n : Nat) (r : AxisRec)
  | bins (loop first : Nat) (vals : List Int)
  deriving DecidableEq, Repr

/-- EPOCH_END or RESYNC_END (R693): EPOCH or SNAPSHOT, FRAMES, BYTES, CRC, BASIS and FLAGS. -/
structure EpochEndMsg where
  epoch : Nat
  frames : Nat
  bytes : Nat := 0
  crc : Nat := 0
  basis : Nat := 0
  overrun : Bool := false
  swap : Bool := false
  last : Bool := false
  deriving DecidableEq, Repr

/-- What a frame of EPOCH_DATA or RESYNC_DATA carries (R692): FRAME and its entries. -/
structure MirPart where
  idx : Nat := 0
  items : List MirItem := []
  deriving DecidableEq, Repr

/-- A change package (R721): the hash of the image that it changes, and the new image. -/
structure Package where
  base : Nat
  img : Image
  deriving DecidableEq, Repr

/-- A frame of EPOCH_END or RESYNC_END as received. -/
structure EndFrame where
  h : MorHdr := {}
  m : EpochEndMsg
  deriving DecidableEq, Repr

/-- The completion of a window (R251): its tile, and whether the op store or operand buffer has met a check error (R265). -/
structure WinEnd where
  t : Fin 16
  check : Bool := false
  deriving DecidableEq, Repr

/-- The levels of one safety sample: both channels of every input, read-back of outputs and TP lines, SAFE_RST. -/
structure SafetyIn where
  a : BitVec 16 := 0
  b : BitVec 16 := 0
  rb : BitVec 8 := 0
  tp : BitVec 4 := 0xF
  deriving DecidableEq, Repr

/-- What a cross-check finds (R732): heartbeat and toggle heard, and states in agreement. -/
structure CrossIn where
  pAlive : Bool := true
  wAlive : Bool := true
  agree : Bool := true
  deriving DecidableEq, Repr

/-- Chunk 0 of a container (R781): its fields, with the verdicts on MAGIC and FORMAT, PART and stepping, the size limits, the
signature and the chunk hash list (R782). -/
structure ContHdr where
  kind : Nat := 1
  magic : Nat := 0x5A594E5A
  format : Nat := 1
  part : Nat := 0x0192
  stepMin : Nat := 0xB0
  stepMax : Nat := 0xB0
  length : Nat := 0
  resultLen : Nat := 0
  /-- SIGNER_KEY is the Kennus key of the kind's role; otherwise its fingerprint (R780). -/
  kennus : Bool := false
  signerFp : Nat := 0
  sigOk : Bool := true
  listOk : Bool := true
  target : Nat := 0xFFFF
  targetFp : Nat := 0
  base : Nat := 0
  result : Nat := 0
  secVersion : Nat := 0
  chunks : Nat := 1
  deriving DecidableEq, Repr

/-- CONT_DATA (R790), or a whole chunk by relay: where its bytes lie in the chunk; the header that chunk 0 holds, the verdict on the hash
of another chunk. -/
structure ContChunk where
  cont : Nat
  chunk : Nat
  hdr : ContHdr := {}
  hashOk : Bool := true
  /-- OFFSET in the chunk, and the number of data bytes. -/
  offset : Nat := 0
  len : Nat := 65536
  deriving DecidableEq, Repr

/-- The result of a container (R780): a firmware set, an image (the result of a full image, a delta or a package), a safety
block, a token (whether a Kennus debug key signed it, NONCE, LEVEL, LIFETIME_MIN), an owner table. -/
inductive PayloadIn where
  | firmware (f : Firmware)
  | image (i : Image)
  | safety (b : SafetyBlock)
  | token (kennus : Bool) (nonce level life : Nat)
  | owners (fps : List Nat)
  deriving DecidableEq, Repr

/-- The bytes of a delta's base, the body of the running slot, and of the delta body (R788). -/
structure DeltaIn where
  base : List Nat
  body : List Nat
  deriving DecidableEq, Repr

/-- A complete container (R783): the verdict on the result's hash, and the result. `delta` gives the bytes from which a result is rebuilt,
`raw` those of an image; without them the verdict and the parsed result stand for the bytes. -/
structure VerifyIn where
  resultOk : Bool := true
  delta : Option DeltaIn := none
  raw : Option (List Nat) := none
  /-- The result could be written to flash and read back. -/
  flashOk : Bool := true
  payload : PayloadIn
  deriving DecidableEq, Repr

/-- ACTIVATE (R793): FW_ID and CFG_ID, 0 none; RESTART. -/
structure ActivateReq where
  fw : Nat := 0
  cfg : Nat := 0
  restart : Nat := 0
  deriving DecidableEq, Repr

/-- A RELAY chunk (R676, R677) with its FRAME's target. -/
structure RelayMsg where
  target : Nat
  chunks : Nat := 1
  d : ContChunk
  deriving DecidableEq, Repr

/-- The commands of the block: one constructor for each row of the opcode table, in its order. -/
inductive Instr where
  /-- POWER_ON (R136). All supplies reach their limits and PORST_N is released, which starts the start sequence. -/
  | powerOn (env : StartEnv)
  /-- PORST_N_ASSERT (R814). A low pulse on PORST_N of 10 µs or more resets the core and channel P and restarts the start sequence. -/
  | porstNAssert (lenNs : Nat) (env : StartEnv)
  /-- WATCHDOG_EXPIRY (R130). The internal watchdog expires and the device restarts through the start sequence. -/
  | watchdogExpiry (env : StartEnv)
  /-- VCORE_RESTORED (R817). VCORE returns within its limits after an undervoltage reset and the start sequence begins. -/
  | vcoreRestored (env : StartEnv)
  /-- KEEP_ALIVE_LOSS (R835). Both keep-alive supplies are lost, and the crystal, Plumb and channel W lose supply while the core and channel P are held in reset. -/
  | keepAliveLoss
  /-- KEEP_ALIVE_RETURN (R835). A keep-alive supply returns within its limits, and a full start runs with device time restarting at 0. -/
  | keepAliveReturn (env : StartEnv)
  /-- KEEP_ALIVE_INPUT_CHANGE (R719). One of VKA_A or VKA_B is lost or restored, raising 0x0F01 or 0x0F02. -/
  | keepAliveInputChange (input : Bool) (ok : Bool)
  /-- FEED_CHANGE (R720). A 24 V line feed sense level holds for 1 ms, which raises 0x0F03 or 0x0F04 and may make the active unit yield. -/
  | feedChange (feed : Bool) (present : Bool)
  /-- PACE_SAMPLE (R817). Every 200 ns the pace governor samples VCORE and moves the throttle toward the limit of its band. -/
  | paceSample (mv : Nat)
  /-- PACE_REQ_CHANGE (R818). The filtered PACE_REQ input changes and raises the throttle limit to REQ_LEVEL or releases it. -/
  | paceReqChange (level : Bool)
  /-- TEMP_SAMPLE (R819). The junction temperature crosses a threshold, which raises warnings, forces Standby at 115 °C or holds the device in reset at 125 °C. -/
  | tempSample (temps : List Int)
  /-- THERMAL_HOLD_RELEASE (R819). The junction falls below 110 °C after a thermal hold and the full start sequence begins. -/
  | thermalHoldRelease (env : StartEnv)
  /-- PLL_LOCK_LOSS (R106). The Plumb PLL loses lock to the crystal, 0x0281 is raised and the device leaves Run or Service for Standby. -/
  | pllLockLoss
  /-- PFW_ASSERT (R328). PFW stays asserted for FILTER_US, and the journal writer finishes its record and writes the staging set as a FINAL record. -/
  | pfwAssert
  /-- FINAL_RECORD_COMMIT (R331). The FINAL record commits and 0x0807 is raised. -/
  | finalRecordCommit
  /-- DRAM_ECC_ERROR (R829). A DRAM read finds a corrected or uncorrectable error; an uncorrectable error returns zero, records its address and raises 0x0E41. -/
  | dramEccError (addr : Nat) (uncorr : Bool)
  /-- ENTER_RECOVERY (R131). MODE request 0x01 restarts the device into the ROM. -/
  | enterRecovery (sess req : Nat) (env : StartEnv)
  /-- ENTER_STANDBY (R132). MODE request 0x04 ends the current cycle with its commit and enters Standby at the next cycle boundary. -/
  | enterStandby (sess req : Nat)
  /-- ENTER_RUN (R131). MODE request 0x05 takes the device from Standby or Service to Run. -/
  | enterRun (sess req : Nat)
  /-- ENTER_SERVICE (R184). MODE request 0x06 enters Service, and the requesting session becomes its owner. -/
  | enterService (sess req : Nat)
  /-- COLD_RESTART (R146). MODE request 0x10 restarts the device cold. -/
  | coldRestart (sess req : Nat) (env : StartEnv)
  /-- WARM_RESTART (R146). MODE request 0x11 restarts the device warm from the retain journal. -/
  | warmRestart (sess req : Nat) (env : StartEnv)
  /-- SERVICE_TIMEOUT (R133). The Service-owning session sends nothing for DEV_SVC_TIMEOUT, so Service ends, injections end and jogs stop. -/
  | serviceTimeout
  /-- TICK (R67). Plumb issues the next tick of the second. -/
  | tick
  /-- BASE_CYCLE_START (R305). Plumb starts a base cycle, which applies pending mode changes, forces and skips and begins the input latch. -/
  | baseCycleStart
  /-- FLY_TIMEOUT (R148). An axis still PENDING after TIMEOUT_MS fails and quick-stops. -/
  | flyTimeout (axis : Nat)
  /-- PORT_CYCLE_START (R615). A port cycle of an Ashlar port starts. -/
  | portCycleStart (port : Nat)
  /-- MODULE_LOST (R625). A module without an accepted stone frame for LOST_N port cycles becomes LOST and 0x0341 is raised. -/
  | moduleLost (mod : Nat)
  /-- RECOVERY_ROUND (R639). Every 64 port cycles while a module is LOST, an ENUM and the CONFIG of each lost module are sent. -/
  | recoveryRound (port : Nat)
  /-- GENERATOR_STEP (R444). At each whole microsecond every profile generator applies arrived commands, limits and targets and computes its command. -/
  | generatorStep
  /-- HOLD_DELAY_EXPIRY (R505). An axis at standstill for HOLD_DELAY drops its current to HOLD_I. -/
  | holdDelayExpiry (axis : Nat)
  /-- JOG_TIMEOUT (R471). A jog not rewritten within 500 ms ends as if DIR = 0 had been written. -/
  | jogTimeout (axis : Nat)
  /-- PTP_SYNC (R75). A Sync yields an offset, which the servo corrects at a bounded rate and slews or steps as a discontinuity. -/
  | ptpSync (port : Nat) (m : SyncMsg)
  /-- SLEW_COMPLETE (R79). PB_SLEW_REMAIN reaches zero, SLEWING clears and 0x0206 is raised. -/
  | slewComplete
  /-- TIME_STEP (R81). In Configure or Standby a discontinuity is applied as a step at the next tick boundary, passing over or repeating instants. -/
  | timeStep
  /-- PTP_ANNOUNCE (R87). An Announce is checked and may end holdover or change master. -/
  | ptpAnnounce (port : Nat) (ann : Announce)
  /-- HOLDOVER_ENTRY (R85). Missing Announce or Sync messages put the device in holdover and raise 0x0202. -/
  | holdoverEntry
  /-- PTP_PDELAY (R89). A path-delay measurement enters the filter, is held as a candidate, or ends a re-measurement. -/
  | ptpPdelay (port : Nat) (m : DelayMsg)
  /-- SET_TIME (R84). A write of PB_SET_NS takes a host time and treats its offset as a measured offset. -/
  | setTime (sess req : Nat) (value : Word)
  /-- TIME_LATCH_READ (R64). A read of PB_TIME_SEC_HI latches the whole of device time. -/
  | timeLatchRead (sess req : Nat)
  /-- ASYM_WRITE (R74). A write to PB_PORT_ASYM sets the asymmetry and clears ASYM_UNVERIFIED. -/
  | asymWrite (sess req : Nat) (port : Nat) (value : Word)
  /-- TIN_EDGE (R94). A selected edge on a timing input is stamped and goes to the triggers, its tag and its FIFO, or is counted as lost. -/
  | tinEdge (n : Nat) (rising : Bool) (stamp : Time)
  /-- TIN_STAMP_READ (R98). A READ_BLOCK of all four words of PB_TIN_STAMP returns and removes the oldest FIFO entry. -/
  | tinStampRead (sess req : Nat) (n : Nat)
  /-- TOUT_ARM (R100). PB_TOUT_CMD.ARM arms a timed output, which may be refused or have its missed instants skipped. -/
  | toutArm (sess req : Nat) (m : Nat)
  /-- TOUT_DISARM (R104). PB_TOUT_CMD.DISARM disarms the output at the end of any pulse in progress. -/
  | toutDisarm (sess req : Nat) (m : Nat)
  /-- TOUT_PULSE (R99). A timed-output pulse instant is reached and its edge is placed. -/
  | toutPulse (m : Nat)
  /-- TOUT_PULSE_END (R104). A pulse ends, which completes the train or a pending DISARM. -/
  | toutPulseEnd (m : Nat)
  /-- PROBE (R171). A PROBE is answered with a unicast BEACON, within the rate limit. `src` and `target` are the host address and TARGET,
  in place of those of `d`. -/
  | probe (src target : Nat) (d : Dgram)
  /-- BEACON (R170). Every BEACON_PERIOD seconds a beacon is broadcast from SVC. -/
  | beacon
  /-- REASSEMBLY_TIMEOUT (R167). A message whose fragments are not all present 1 s after the first is discarded. -/
  | reassemblyTimeout (key base : Nat)
  /-- SESSION_INIT (R177). A SESSION_INIT is checked, a channel taken and SESSION_ACCEPT sent, or the session is rejected. -/
  | sessionInit (m : InitMsg)
  /-- SESSION_CONFIRM (R177). A SESSION_CONFIRM is verified, keys are derived and READY opens the session. -/
  | sessionConfirm (m : ConfirmMsg)
  /-- HANDSHAKE_TIMEOUT (R177). A handshake not complete within 2 s is abandoned, and SESSION_REJECT with reason 6 is sent. -/
  | handshakeTimeout (chan : Nat)
  /-- SECURE (R182). A SECURE datagram is authenticated, checked against replay, and reassembled or forwarded by a gateway. -/
  | secure (d : SecureMsg)
  /-- SESSION_TIMEOUT (R183). A session without a valid datagram for HA_SESS_TIMEOUT ends and 0x0122 is raised. -/
  | sessionTimeout (sess : Nat)
  /-- READ (R191). READ returns one register word. -/
  | read (sess req : Nat) (addr : Nat)
  /-- WRITE (R193). WRITE applies masked items in order to registers that have no row of their own. -/
  | write (sess req : Nat) (flags : Nat) (items : List WriteItem)
  /-- TAG_WINDOW_WRITE (R47). A whole-tag write to the tag window sets a host-writable tag from the next input latch. -/
  | tagWindowWrite (sess req : Nat) (addr : Nat) (words : List Word)
  /-- CLR_EXPERT (R39). Writing BLK_XCTL.CLR_EXPERT clears every expert override of the block. -/
  | clrExpert (sess req : Nat) (block : Nat)
  /-- CYCLE_ALIGNED_APPLY (R195). Held CYCLE_ALIGNED items are applied at the start of the housekeeping phase and answered. -/
  | cycleAlignedApply
  /-- READ_BLOCK (R197). READ_BLOCK returns consecutive words with the side effects of reads. -/
  | readBlock (sess req : Nat) (addr count : Nat)
  /-- SUBSCRIBE (R199). SUBSCRIBE creates an event or value subscription. -/
  | subscribe (sess req : Nat) (s : SubReq)
  /-- UNSUBSCRIBE (R199). UNSUBSCRIBE removes a subscription. -/
  | unsubscribe (sess req : Nat) (id : Nat)
  /-- VALUE_SUBSCRIPTION_SAMPLE (R201). A value subscription samples its addresses at its period. -/
  | valueSubscriptionSample (id : Nat)
  /-- ATTEST (R209). ATTEST returns a signed attestation report over the nonce. -/
  | attest (sess req : Nat) (nonce : Nat)
  /-- PING (R211). PING returns an empty response. -/
  | ping (sess req : Nat)
  /-- CLOSE (R211). CLOSE ends the session after its response has been sent. -/
  | close (sess req : Nat)
  /-- ABORT (R215). ABORT of a path stops the named function within the bound for its level and reports arrival and completion. -/
  | abort (sess req : Nat) (path : Word) (took : Nat)
  /-- NOP (R242). Does nothing. -/
  | opNop (t : Fin 16) (o : OpWord)
  /-- ADD (R242). 32-bit wrapping add. -/
  | opAdd (t : Fin 16) (o : OpWord)
  /-- SUB (R242). 32-bit wrapping subtract. -/
  | opSub (t : Fin 16) (o : OpWord)
  /-- MUL (R242). Low 32 bits of a product. -/
  | opMul (t : Fin 16) (o : OpWord)
  /-- MULH (R242). Signed high 32 bits of a product. -/
  | opMulh (t : Fin 16) (o : OpWord)
  /-- DIVS (R243). 32-bit signed division without traps. -/
  | opDivs (t : Fin 16) (o : OpWord)
  /-- DIVU (R243). 32-bit unsigned division without traps. -/
  | opDivu (t : Fin 16) (o : OpWord)
  /-- REMS (R243). 32-bit signed remainder. -/
  | opRems (t : Fin 16) (o : OpWord)
  /-- SHL (R242). Shift left by B mod 32. -/
  | opShl (t : Fin 16) (o : OpWord)
  /-- SHRS (R242). Arithmetic shift right by B mod 32. -/
  | opShrs (t : Fin 16) (o : OpWord)
  /-- SHRU (R242). Logical shift right by B mod 32. -/
  | opShru (t : Fin 16) (o : OpWord)
  /-- CMPEQ (R836). Sets predicate IMM to A equal to B. -/
  | opCmpeq (t : Fin 16) (o : OpWord)
  /-- CMPLT (R836). Sets predicate IMM to A signed-less-than B. -/
  | opCmplt (t : Fin 16) (o : OpWord)
  /-- CMPLTU (R836). Sets predicate IMM to A unsigned-less-than B. -/
  | opCmpltu (t : Fin 16) (o : OpWord)
  /-- MIN (R242). Signed minimum. -/
  | opMin (t : Fin 16) (o : OpWord)
  /-- MAX (R242). Signed maximum. -/
  | opMax (t : Fin 16) (o : OpWord)
  /-- ABS (R242). Signed absolute value. -/
  | opAbs (t : Fin 16) (o : OpWord)
  /-- MOV (R242). Copies A to DST. -/
  | opMov (t : Fin 16) (o : OpWord)
  /-- LDI (R242). Loads the long-op ADDR into DST. -/
  | opLdi (t : Fin 16) (o : OpWord)
  /-- SEL (R242). Selects A or B by predicate PRED. -/
  | opSel (t : Fin 16) (o : OpWord)
  /-- LDX (R839). Indexed operand-buffer load; an index out of range yields 0. -/
  | opLdx (t : Fin 16) (o : OpWord)
  /-- STX (R839). Indexed operand-buffer store; an index out of range writes nothing. -/
  | opStx (t : Fin 16) (o : OpWord)
  /-- ADD64 (R837). 64-bit wrapping add. -/
  | opAdd64 (t : Fin 16) (o : OpWord)
  /-- SUB64 (R837). 64-bit wrapping subtract. -/
  | opSub64 (t : Fin 16) (o : OpWord)
  /-- MUL64 (R242). Low 64 bits of a product. -/
  | opMul64 (t : Fin 16) (o : OpWord)
  /-- DIV64S (R243). 64-bit signed division. -/
  | opDiv64s (t : Fin 16) (o : OpWord)
  /-- DIV64U (R243). 64-bit unsigned division. -/
  | opDiv64u (t : Fin 16) (o : OpWord)
  /-- SHL64 (R242). 64-bit shift left by B mod 64. -/
  | opShl64 (t : Fin 16) (o : OpWord)
  /-- SHRS64 (R242). 64-bit arithmetic shift right. -/
  | opShrs64 (t : Fin 16) (o : OpWord)
  /-- SHRU64 (R242). 64-bit logical shift right. -/
  | opShru64 (t : Fin 16) (o : OpWord)
  /-- CMP64EQ (R836). 64-bit equality into predicate IMM. -/
  | opCmp64eq (t : Fin 16) (o : OpWord)
  /-- CMP64LT (R836). 64-bit signed less-than into predicate IMM. -/
  | opCmp64lt (t : Fin 16) (o : OpWord)
  /-- CMP64LTU (R836). 64-bit unsigned less-than into predicate IMM. -/
  | opCmp64ltu (t : Fin 16) (o : OpWord)
  /-- SEXT (R837). Sign-extends a 32-bit word to 64 bits. -/
  | opSext (t : Fin 16) (o : OpWord)
  /-- VMAC (R838). Q15 multiply-accumulate of IMM + 1 elements into a 40-bit accumulator. -/
  | opVmac (t : Fin 16) (o : OpWord)
  /-- VMUL (R838). Elementwise Q15 saturating multiply. -/
  | opVmul (t : Fin 16) (o : OpWord)
  /-- VADD (R838). Elementwise Q15 saturating add. -/
  | opVadd (t : Fin 16) (o : OpWord)
  /-- VSAT (R242). Shifts an accumulator and saturates it to Q15. -/
  | opVsat (t : Fin 16) (o : OpWord)
  /-- FADD (R243). binary32 add. -/
  | opFadd (t : Fin 16) (o : OpWord)
  /-- FSUB (R243). binary32 subtract. -/
  | opFsub (t : Fin 16) (o : OpWord)
  /-- FMUL (R243). binary32 multiply. -/
  | opFmul (t : Fin 16) (o : OpWord)
  /-- FMAC (R242). Fused binary32 multiply-add into DST. -/
  | opFmac (t : Fin 16) (o : OpWord)
  /-- FDIV (R243). binary32 divide. -/
  | opFdiv (t : Fin 16) (o : OpWord)
  /-- FSQRT (R243). binary32 square root. -/
  | opFsqrt (t : Fin 16) (o : OpWord)
  /-- FCMPEQ (R836). Float equality into predicate IMM. -/
  | opFcmpeq (t : Fin 16) (o : OpWord)
  /-- FCMPLT (R836). Float less-than into predicate IMM. -/
  | opFcmplt (t : Fin 16) (o : OpWord)
  /-- FTOI (R243). Float to integer, round to nearest even, saturating. -/
  | opFtoi (t : Fin 16) (o : OpWord)
  /-- ITOF (R242). Integer to float. -/
  | opItof (t : Fin 16) (o : OpWord)
  /-- FMIN (R243). IEEE minimumNumber. -/
  | opFmin (t : Fin 16) (o : OpWord)
  /-- FMAX (R243). IEEE maximumNumber. -/
  | opFmax (t : Fin 16) (o : OpWord)
  /-- FABS (R242). binary32 absolute value. -/
  | opFabs (t : Fin 16) (o : OpWord)
  /-- AND (R242). 32-bit and. -/
  | opAnd (t : Fin 16) (o : OpWord)
  /-- OR (R242). 32-bit or. -/
  | opOr (t : Fin 16) (o : OpWord)
  /-- XOR (R242). 32-bit exclusive or. -/
  | opXor (t : Fin 16) (o : OpWord)
  /-- NOT (R242). 32-bit not. -/
  | opNot (t : Fin 16) (o : OpWord)
  /-- BSET (R836). Sets bit IMM of A. -/
  | opBset (t : Fin 16) (o : OpWord)
  /-- BCLR (R836). Clears bit IMM of A. -/
  | opBclr (t : Fin 16) (o : OpWord)
  /-- BTST (R836). Tests bit IMM of A into predicate PRED. -/
  | opBtst (t : Fin 16) (o : OpWord)
  /-- PSET (R836). Sets predicate IMM to A not equal to 0. -/
  | opPset (t : Fin 16) (o : OpWord)
  /-- PAND (R836). Predicate and. -/
  | opPand (t : Fin 16) (o : OpWord)
  /-- POR (R836). Predicate or. -/
  | opPor (t : Fin 16) (o : OpWord)
  /-- PNOT (R836). Predicate not. -/
  | opPnot (t : Fin 16) (o : OpWord)
  /-- TON (R242). IEC on-delay timer measured from the base-cycle start. -/
  | opTon (t : Fin 16) (o : OpWord)
  /-- TOF (R242). IEC off-delay timer. -/
  | opTof (t : Fin 16) (o : OpWord)
  /-- TP (R242). IEC pulse timer. -/
  | opTp (t : Fin 16) (o : OpWord)
  /-- RTRIG (R242). Rising-edge detector. -/
  | opRtrig (t : Fin 16) (o : OpWord)
  /-- FTRIG (R242). Falling-edge detector. -/
  | opFtrig (t : Fin 16) (o : OpWord)
  /-- TRD1 (R839). Reads 64 bits at a Tarn 1 address. -/
  | opTrd1 (t : Fin 16) (o : OpWord)
  /-- TWR1 (R839). Writes 64 bits at a Tarn 1 address. -/
  | opTwr1 (t : Fin 16) (o : OpWord)
  /-- TRDT (R242). Reads a tag from the DRAM tag store. -/
  | opTrdt (t : Fin 16) (o : OpWord)
  /-- TWRT (R242). Writes a tag in the DRAM tag store. -/
  | opTwrt (t : Fin 16) (o : OpWord)
  /-- TRDX (R242). Reads the tag ADDR + A from the DRAM tag store. -/
  | opTrdx (t : Fin 16) (o : OpWord)
  /-- LATCHM (R307). Atomically copies a module's active input area with a latch header into Tarn 1. -/
  | opLatchm (t : Fin 16) (o : OpWord)
  /-- CMTOUT (R310). Places an output-segment word in the commit buffer. -/
  | opCmtout (t : Fin 16) (o : OpWord)
  /-- CMTLP (R379). Places a loop setpoint, MAN_OUT or mode request in the commit buffer. -/
  | opCmtlp (t : Fin 16) (o : OpWord)
  /-- CMTAX (R449). Places an axis target, command or limit in the commit buffer. -/
  | opCmtax (t : Fin 16) (o : OpWord)
  /-- WRDY (R274). Issues a READY queue operation on a work item. -/
  | opWrdy (t : Fin 16) (o : OpWord)
  /-- WCAN (R274). Issues a CANCEL queue operation on a work item. -/
  | opWcan (t : Fin 16) (o : OpWord)
  /-- WREL (R286). Issues a RELEASE of a work item at a device time. -/
  | opWrel (t : Fin 16) (o : OpWord)
  /-- EVT (R840). Raises a program event code of block 0x08. -/
  | opEvt (t : Fin 16) (o : OpWord)
  /-- WINDOW_START (R245). Plumb opens a tile's schedule window at its START. -/
  | windowStart (t : Fin 16)
  /-- WINDOW_COMPLETE (R251). A tile signals completion of a window, and Plumb stamps it. -/
  | windowComplete (w : WinEnd)
  /-- WINDOW_DEADLINE (R252). At START + LEN Plumb checks completion and counts a late window. -/
  | windowDeadline (t : Fin 16)
  /-- COMMIT_END (R254). At COMMIT_END the commit buffers are released or discarded and the housekeeping phase begins. -/
  | commitEnd
  /-- RETAIN_CAPTURE (R320). After the release and the LOGIC windows complete, the changed retained blocks are copied into staging. -/
  | retainCapture
  /-- JOURNAL_RECORD_WRITE (R321). The idle journal writer takes the staging set and writes it to MRAM as one record. -/
  | journalRecordWrite (ok : Bool)
  /-- ITEM_COMPLETE (R275). A running work item completes, copies out, applies its pending activation and its held operations. -/
  | itemComplete (t : Fin 16)
  /-- RELEASE_TIME_REACHED (R285). A WAITING item's release time is reached and it becomes READY. -/
  | releaseTimeReached (item : Nat)
  /-- AFFINITY_HOLD_END (R280). An entry held for its last tile is released after WQ_AFF_WAIT. -/
  | affinityHoldEnd (item : Nat)
  /-- READY_ENTRY_AGED (R291). A ready entry waits WQ_AGE_WARN and raises 0x0703. -/
  | readyEntryAged (item : Nat)
  /-- WQ_READY (R274). Host WQ_CMD READY readies an item. -/
  | wqReady (sess req : Nat) (item : Nat)
  /-- WQ_CANCEL (R287). Host WQ_CMD CANCEL cancels an item, after dispatch if it is running. -/
  | wqCancel (sess req : Nat) (item : Nat)
  /-- WQ_RELEASE (R286). Host WQ_CMD RELEASE arms a release at WQ_REL_SEC and WQ_REL_NS. -/
  | wqRelease (sess req : Nat) (item : Nat)
  /-- FORCE_SET (R337). PG_FORCE_CMD SET forces a tag from the next base-cycle start. -/
  | forceSet (sess req : Nat)
  /-- FORCE_RELEASE (R337). PG_FORCE_CMD RELEASE releases the force on a tag. -/
  | forceRelease (sess req : Nat)
  /-- FORCE_RELEASE_ALL (R337). PG_FORCE_CMD RELEASE_ALL releases every force. -/
  | forceReleaseAll (sess req : Nat)
  /-- OLC_LOAD_COMPLETE (R340). Loading of an on-line change package ends in READY or in a refusal. -/
  | olcLoadComplete
  /-- OLC_ARM (R341). PG_OLC_CMD ARM schedules the swap at a qualifying boundary. -/
  | olcArm (sess req : Nat)
  /-- OLC_DISARM (R357). PG_OLC_CMD DISARM returns ARMED to READY. -/
  | olcDisarm (sess req : Nat)
  /-- OLC_SWAP (R345). At the swap boundary the result image replaces the running program and state is transferred. -/
  | olcSwap
  /-- LOOP_UPDATE (R366). At its period start a loop applies requests, reads feedback, runs its law and the repetitive step, and writes its output. -/
  | loopUpdate (n : Nat)
  /-- MODE_REQ_OPEN (R371). LP_CTL.MODE_REQ 1 requests OPEN at the next period start. -/
  | modeReqOpen (sess req : Nat) (n : Nat)
  /-- MODE_REQ_MANUAL (R373). LP_CTL.MODE_REQ 2 requests MANUAL, holding the output. -/
  | modeReqManual (sess req : Nat) (n : Nat)
  /-- MODE_REQ_CLOSED (R372). LP_CTL.MODE_REQ 3 requests a bumpless close and clears ABORTED. -/
  | modeReqClosed (sess req : Nat) (n : Nat)
  /-- RC_CLEAR (R420). RC_CTL.CLEAR zeroes the bins at the next period start. -/
  | rcClear (sess req : Nat) (n : Nat)
  /-- RC_LEARN (R421). A write of RC_CTL with LEARN = 1 enables learning and clears ABT_FROZEN. -/
  | rcLearn (sess req : Nat) (n : Nat) (value : Word)
  /-- INJ_START (R429). INJ_CTL.START begins a test injection at the next period start, or refuses it. -/
  | injStart (sess req : Nat) (n : Nat)
  /-- INJ_STOP (R431). INJ_CTL.STOP ends the injection with END = 2. -/
  | injStop (sess req : Nat) (n : Nat)
  /-- INJECTION_END (R431). An injection ends after INJ_DUR updates or early, recording its END reason. -/
  | injectionEnd (n : Nat)
  /-- AX_STOP (R467). AX_CMD STOP stops the axis on STOP_DEC. -/
  | axStop (sess req : Nat) (axis : Nat)
  /-- AX_QSTOP (R467). AX_CMD QSTOP quick-stops the axis on QSTOP_DEC. -/
  | axQstop (sess req : Nat) (axis : Nat)
  /-- AX_RESUME (R469). AX_CMD RESUME returns a QSTOPPED axis to STANDSTILL and clears ABORTED. -/
  | axResume (sess req : Nat) (axis : Nat)
  /-- JOG_POSITIVE (R471). AX_JOG.DIR = 1 jogs toward +JOG_VEL. -/
  | jogPositive (sess req : Nat) (axis : Nat)
  /-- JOG_NEGATIVE (R471). AX_JOG.DIR = 2 jogs toward -JOG_VEL. -/
  | jogNegative (sess req : Nat) (axis : Nat)
  /-- JOG_END (R471). AX_JOG.DIR = 0 decelerates the jog to STANDSTILL. -/
  | jogEnd (sess req : Nat) (axis : Nat)
  /-- AX_POS_LATCH (R480). A read of AX_POS_LO latches position, velocity, acceleration and actual position at one step. -/
  | axPosLatch (sess req : Nat) (axis : Nat)
  /-- ENCODER_EDGE (R496). A quadrature edge updates the encoder count. -/
  | encoderEdge (axis : Nat) (a b : Bool) (stamp : Time)
  /-- SWITCH_EDGE (R511). A raw edge on LIMP, LIMN, HOME or ENCZ is stamped. -/
  | switchEdge (axis : Nat) (sw : Nat) (level : Bool) (stamp : Time)
  /-- DEBOUNCE_COMPLETE (R511). A switch input keeps its level for its debounce time and its debounced state changes. -/
  | debounceComplete (axis : Nat) (sw : Nat)
  /-- HOME_START (R517). AX_HOME_CTL.START begins homing by the configured method. -/
  | homeStart (sess req : Nat) (axis : Nat)
  /-- HOME_ABANDON (R523). AX_HOME_CTL.ABANDON ends homing with RESULT 5. -/
  | homeAbandon (sess req : Nat) (axis : Nat)
  /-- STONE_FRAME (R621). An upstream stone frame is checked, written to the inactive half and swapped in. -/
  | stoneFrame (f : Stone)
  /-- SAFE_UP (R642). A safety container copy arrives, and matching copies are delivered to the island. -/
  | safeUp (f : SafeMsg)
  /-- ASH_REENUM (R633). ASH_PORT_CTL.REENUM re-enumerates a port in Standby. -/
  | ashReenum (sess req : Nat) (port : Nat)
  /-- REPORT (R635). A module's REPORT reply is received during enumeration. -/
  | report (r : ModReport)
  /-- ENUM_RETURN (R634). A returned ENUM frame gives the module count. -/
  | enumReturn (port count : Nat)
  /-- ENUM_REPLY_TIMEOUT (R633). No reply arrives within 1 ms of an enumeration request. -/
  | enumReplyTimeout (port : Nat)
  /-- ASH_LINK_DOWN (R651). An Ashlar link goes down at the ball and 0x0346 is raised. -/
  | ashLinkDown (port : Nat)
  /-- COURSE_FRAME_SHADOW (R702). A standby copies the output segments of the active's course frames into its shadow outputs. -/
  | courseFrameShadow (port claim cycle : Nat) (words : List (Nat × Word))
  /-- SHADOW_LOST (R703). No course frame of the active's claim for HOLD_WIN cycles clears the port's shadow and raises 0x0506. -/
  | shadowLost (port : Nat)
  /-- HELLO_SEND (R661). Every 1,000 ticks a device floods a HELLO. -/
  | helloSend
  /-- HELLO (R661). A HELLO updates the map and routes, or reveals a number conflict. -/
  | hello (f : LnHdr) (h : HelloMsg)
  /-- NEIGHBOUR_TIMEOUT (R661). A device silent for four HELLO intervals is removed from the map. -/
  | neighbourTimeout (dev : Nat)
  /-- LINK_UP (R662). A Lintel link comes up, and an IDENT challenge is sent. -/
  | linkUp (unit : Nat)
  /-- IDENT (R662). An IDENT challenge or answer is received, and the neighbour is verified as KNOWN, NEW or FAILED. -/
  | ident (unit : Nat) (m : IdentMsg)
  /-- IDENT_TIMEOUT (R662). No verified answer within 50 ms makes the neighbour FAILED. -/
  | identTimeout (unit : Nat)
  /-- LN_APPROVE (R664). LN_NB_CTL.APPROVE stores a NEW neighbour's fingerprint. -/
  | lnApprove (sess req : Nat) (unit : Nat)
  /-- LN_FORGET (R664). LN_NB_CTL.FORGET clears the stored fingerprint for re-verification. -/
  | lnForget (sess req : Nat) (unit : Nat)
  /-- SHAFT (R668). A SHAFT publication is received and becomes the projection source. -/
  | shaft (f : LnHdr) (m : ShaftMsg)
  /-- SHAFT_CONSUME (R666). At T_{n+L} the shaft is consumed, or extrapolated when late or stale. -/
  | shaftConsume
  /-- EXPORT_SEND (R670). At each export period start EXPORT frames are flooded. -/
  | exportSend
  /-- EXPORT (R670). An EXPORT frame updates bound class 6 tags. -/
  | exportFrame (f : LnHdr) (m : List ExportVal)
  /-- IMPORT_STALE (R671). An import without an entry for four periods becomes stale. -/
  | importStale (tag : Tag)
  /-- TRIGGER (R672). A chain TRIGGER frame fires the matching CHAIN triggers. -/
  | trigger (f : LnHdr) (trig : Nat) (time : Time)
  /-- SAFE (R673). A Lintel SAFE frame is forwarded LIN to LIN or delivered to its target. -/
  | safe (f : LnHdr) (x : SafeMsg)
  /-- MGMT (R674). A MGMT frame piece is assembled into a datagram and routed. -/
  | mgmt (f : LnHdr) (m : MgmtMsg)
  /-- RELAY (R678). A RELAY chunk is checked, acknowledged, kept and forwarded toward its target. -/
  | relay (unit : Nat) (m : RelayMsg)
  /-- RELAY_ACK (R678). A RELAY_ACK confirms, refuses or asks again for a chunk. -/
  | relayAck (unit cont chunk code : Nat)
  /-- RELAY_RESEND_TIMEOUT (R678). An unacknowledged chunk is resent after 20 ms, up to eight times, then abandoned with 0x0444. -/
  | relayResendTimeout (cont chunk : Nat)
  /-- HIST (R675). HIST frames carry stream bytes to the historian peer. -/
  | hist (stream : Nat)
  /-- HIST_ACK (R675). A HIST_ACK advances the stream's ring. -/
  | histAck (stream pos : Nat)
  /-- HEARTBEAT (R691). A partner HEARTBEAT is received and updates claims, roles and sync state. -/
  | heartbeat (b : BeatMsg)
  /-- HEARTBEAT_MISSED (R688). A heartbeat not received by the next tick is missed, and the third in a row detects failure. -/
  | heartbeatMissed
  /-- MR_YIELD (R689). MR_CTL.YIELD makes the active send YIELD and stop releasing. -/
  | mrYield (sess req : Nat)
  /-- YIELD (R689). A received YIELD is detected as failure, so that the standby takes over. -/
  | yieldFrame (h : MorHdr) (lastEpoch mode : Nat)
  /-- EPOCH_DATA (R692). An epoch data frame is received and staged. -/
  | epochData (h : MorHdr) (idx : Nat) (items : List MirItem)
  /-- EPOCH_END (R697). An EPOCH_END completes an epoch, which is checked and switched in or discarded. -/
  | epochEnd (f : EndFrame)
  /-- MR_RESYNC (R725). MR_CTL.RESYNC on a standby discards sync and requests a resync. -/
  | mrResync (sess req : Nat)
  /-- RESYNC_DATA (R711). Resync frames carry every retained block. -/
  | resyncData (h : MorHdr) (x : MirPart)
  /-- RESYNC_END (R712). A checked RESYNC_END applies the snapshot toward IN_SYNC. -/
  | resyncEnd (f : EndFrame)
  /-- MR_APPROVE (R716). MR_PARTNER_CTL.APPROVE stores a new partner fingerprint. -/
  | mrApprove (sess req : Nat)
  /-- MR_FORGET (R716). MR_PARTNER_CTL.FORGET clears MR_KNOWN_FP. -/
  | mrForget (sess req : Nat)
  /-- PACKAGE (R721). A change package forwarded over MOR is loaded by the standby. -/
  | packageFrame (h : MorHdr) (p : Package)
  /-- PAIR_WAIT_EXPIRY (R685). No partner heard for PAIR_WAIT_MS makes the unit ACTIVE alone. -/
  | pairWaitExpiry
  /-- RS_START (R551). RS_CTL.START starts a stream. -/
  | rsStart (sess req : Nat) (k : Nat)
  /-- RS_STOP (R551). RS_CTL.STOP flushes and stops the stream with a STOP header. -/
  | rsStop (sess req : Nat) (k : Nat)
  /-- RS_CLAIM (R553). RS_CTL.CLAIM claims the stream for the session. -/
  | rsClaim (sess req : Nat) (k : Nat)
  /-- RS_UNCLAIM (R553). RS_CTL.UNCLAIM ends the claim. -/
  | rsUnclaim (sess req : Nat) (k : Nat)
  /-- RS_ACK (R553). RS_ACK advances RS_RD_PTR by a count of units. -/
  | rsAck (sess req : Nat) (k : Nat) (value : Word)
  /-- RS_MARK (R560). RS_MARK places a host MARK record. -/
  | rsMark (sess req : Nat) (k : Nat) (value : Word)
  /-- RS_COUNTER_LATCH (R563). A read of RS_OFFERED LO latches every counter of the stream. -/
  | rsCounterLatch (sess req : Nat) (k : Nat)
  /-- GAP_WRITE (R556). When space returns after a loss episode, the stream writes a pending header, the GAP and the ending record. -/
  | gapWrite (k : Nat)
  /-- PEER_SILENT (R554). No historian acknowledgement for TMO ms sets PEER_SILENT and raises 0x0B42. -/
  | peerSilent (k : Nat)
  /-- TR_FIRE (R578). TR_CTL.FIRE fires a SOFTWARE trigger. -/
  | trFire (sess req : Nat) (x : Nat)
  /-- TR_ENABLE (R570). A write of TR_CTL.ENABLE enables a trigger or resets its condition state. -/
  | trEnable (sess req : Nat) (x : Nat) (value : Word)
  /-- CP_ARM (R587). CP_CTL.ARM arms a capture unit or refuses the arm. -/
  | cpArm (sess req : Nat) (u : Nat)
  /-- CP_DISARM (R597). CP_CTL.DISARM acts as an ABORT of the unit. -/
  | cpDisarm (sess req : Nat) (u : Nat)
  /-- CP_RELEASE (R593). CP_CTL.RELEASE frees the oldest held slot. -/
  | cpRelease (sess req : Nat) (u : Nat)
  /-- CP_TRIGGER (R578). CP_CTL.TRIGGER fires one capture unit without a trigger. -/
  | cpTrigger (sess req : Nat) (u : Nat)
  /-- ROW_ASSEMBLY (R585). At T + CP_ROW_DELAY a capture row is assembled and stored, spilled, or ends the capture in overflow. -/
  | rowAssembly (u : Nat) (t : Time)
  /-- REARM_INTERVAL_END (R592). Device time reaches T_first and an ARMING unit becomes ARMED. -/
  | rearmIntervalEnd (u : Nat)
  /-- SAFETY_SAMPLE (R767). Every 10 µs both channels apply input levels, faults, demands and reset for each safe input and function. -/
  | safetySample (s : SafetyIn)
  /-- SS1_DELAY_EXPIRY (R747). SS1_DELAY elapses and the function switches OFF. -/
  | ss1DelayExpiry (n : Nat)
  /-- TEST_PULSE (R743). A test-pulse source drops its TP line for WIDTH in its slot. -/
  | testPulse (s : Nat)
  /-- DARK_TEST (R749). An output due for a dark test drops one channel pin for DARK_W and judges its readback. -/
  | darkTest (n : Nat)
  /-- SAFE_RST_RELEASE (R765). The falling edge of a SAFE_RST press of valid length is judged as a reset. -/
  | safeRstRelease (samples : Nat)
  /-- CHANNEL_CROSS_CHECK (R732). Every 100 µs the channels exchange heartbeat, toggle and states, and a timeout or disagreement is a fault. -/
  | channelCrossCheck (c : CrossIn)
  /-- OSCILLATOR_CHECK (R732). Each 1 ms the P oscillator is measured against the W reference. -/
  | oscillatorCheck (hz : Nat) (byW : Bool)
  /-- TARN5_ECC_ERROR (R732). A Tarn 5 ECC error is counted or locks out the island. -/
  | tarn5EccError (uncorr : Bool)
  /-- BRAKE_REQUEST_READ (R751). Every 1 ms channel P reads REQ_TAG and TEST_TAG, may start a brake test, and checks brake readback. -/
  | brakeRequestRead (k : Nat) (rb : Bool) (pos : Int)
  /-- BRAKE_TEST_END (R754). At 50 ms + TEST_MS the brake test returns its verdict, or it fails early when BRK_WIN is exceeded. -/
  | brakeTestEnd (k : Nat) (pos : Int)
  /-- BRAKE_TEST_OVERDUE (R755). BRK_INT passes without a passing test, setting BRK_OVERDUE. -/
  | brakeTestOverdue (k : Nat)
  /-- CONNECTION_TIMEOUT (R760). An inbound safety connection without a valid pair for WD_US times out, and its bits demand. -/
  | connectionTimeout (c : Nat)
  /-- MIRROR_UPDATE (R770). Every 100 µs channel P writes the island state into the Tarn 5 mirror. -/
  | mirrorUpdate
  /-- CONT_DATA (R790). CONT_DATA delivers container bytes; chunk 0 is checked and chunks are hash-checked. -/
  | contData (sess req : Nat) (d : ContChunk)
  /-- CONT_STATUS (R790). CONT_STATUS returns a container's reception state. -/
  | contStatus (sess req : Nat) (dest cont : Nat)
  /-- CONT_CANCEL (R791). CONT_CANCEL discards a partial download. -/
  | contCancel (sess req : Nat) (dest cont : Nat)
  /-- CONTAINER_VERIFY (R783). A complete container's result is rebuilt and checked, then HELD or refused. -/
  | containerVerify (cont : Nat) (v : VerifyIn) (env : StartEnv)
  /-- ACTIVATE (R793). ACTIVATE writes the new slots on trial and restarts as requested. -/
  | activate (sess req : Nat) (a : ActivateReq) (env : StartEnv)
  /-- CONFIRM (R796). CONFIRM ends the trial and raises MIN_SEC. -/
  | confirm (sess req : Nat)
  /-- GET_CERT (R802). GET_CERT returns the device certificate. -/
  | getCert (sess req : Nat)
  /-- DEBUG_LIFETIME_END (R804). The debug port closes when LIFETIME_MIN has passed. -/
  | debugLifetimeEnd
  /-- DBG_LOCK (R806). ID_DBG_CTL.LOCK closes the debug port. -/
  | dbgLock (sess req : Nat)
  /-- POWER_LOSS (R799). The main supply rails, VSRAM among them, leave their limits while a keep-alive supply may stay up, so the core powers off, channel P resets and any start, download, journal record or boot-record write in progress is cut off. -/
  | powerLoss
  /-- PFW_DEASSERT (R327). The PFW input is deasserted, which clears the filtered PG_RET_STATUS.PFW state and changes the class 4 PFW tag. -/
  | pfwDeassert
  /-- LINTEL_LINK_DOWN (R681). A link on LIN_E, LIN_W or a branch port goes down, which clears LN_PORT_STATUS.LINK and the neighbour state and may open a ring of the plan, raising 0x0404. -/
  | lintelLinkDown (unit : Nat)
  /-- ASH_LINK_UP (R647). The link of an Ashlar port comes up at the ball, taking ASH_PORT_STATUS.STATE out of LINK_DOWN. -/
  | ashLinkUp (port : Nat)
  /-- MOR_LINK_UP (R713). The Mortar link MOR comes up, and the two units exchange IDENT challenges and answers to identify the partner. -/
  | morLinkUp
  deriving DecidableEq, Repr

end Sys2Proof
end

