-- ==== Sys2Proof/Decode.lean ====
section
/-!
DEFINITION. Decode.lean: the command that a word spells by the bits of the opcode table. The table gives no row any bits, so no word
spells a command; commands come to the block as they are.
-/
namespace Sys2Proof

/-- The command of a word of the table: none, as no row has bits. -/
def decodeTableWord (_nbits _w : Nat) : Option Instr := none

end Sys2Proof
end

