-- ==== Sys2Proof/Config.lean ====
section
/-!
DEFINITION. Config.lean: what one made device fixes (serial number, identity), and the free values: constants with no
body, one for each value that the manual leaves open.
-/
namespace Sys2Proof.Config

/-- Silicon stepping and part number of R169 and R209. -/
def part : Nat := 0x0192
/-- Silicon stepping B0 (R169). -/
def stepping : Nat := 0xB0

/-- The serial number written at test (R169, R805). -/
opaque serial : Nat
/-- The MAC address of SVC (R224). -/
opaque mac : Nat
/-- The identity fingerprint, SHA3-256 of the identity public key, as one 256-bit number (R169). -/
opaque identityFp : Nat
/-- The words of the device certificate (R802) that the manual does not fix. -/
opaque certWord : Nat → BitVec 32
/-- The ML-DSA-65 signature that the identity key makes over an attestation report (R209): cryptography is no part of the model. -/
opaque attestSig : List Nat → Nat
/-- The PTP clock identity of the device, which the manual does not name (R68). -/
opaque clockId : Nat
/-- SHA3-256 of a list of fields (R177), and HKDF with HMAC-SHA3-256: salt, keying material, info, 72 bytes as one number (R178). Hash
functions are not modelled: uninterpreted. -/
opaque sha3 : List Nat → Nat
opaque hkdf : Nat → Nat → List Nat → Nat
/-- The identity public key; its signature over a transcript (R177); ML-KEM encapsulation against a key with the randomness of a
counter: ciphertext and shared secret; AES-256-GCM of a plaintext under key, nonce and header (R181). Uninterpreted. -/
opaque identityKey : Nat
opaque sign : Nat → Nat
opaque kemText : Nat → Nat → Nat
opaque kemSecret : Nat → Nat → Nat
opaque gcm : Nat → Nat → List Nat → List Nat → Nat
/-- Calibrated path latencies of ports 0 to 10, shown in PB_PORT_LAT (R72, R117). -/
opaque portLat : Nat → BitVec 32

/-- FREE VALUE. The filtered path delay after a measurement enters the filter: R89 names the filter and gives no formula. -/
opaque delayFilter : Int → Int → Int
/-- FREE VALUE. The rate correction the servo applies after a measured offset, ppb: R75 bounds it and gives no formula. -/
opaque servoRate : Nat → Int
/-- FREE VALUE. A word that the manual leaves undefined, numbered by a counter of State. -/
opaque freeWord : Nat → BitVec 32
/-- FREE VALUE. A bit that the manual leaves undefined, numbered by a counter of State. -/
opaque freeBit : Nat → Bool
/-- FREE VALUE. A count or an interval that the manual leaves open, numbered by a counter of State. -/
opaque freeNat : Nat → Nat
/-- IMPLEMENTATION. By how many mV each trip point of the pace governor lies below its stated value, modulo 9 (R817). -/
opaque trip : Nat → Nat
/-- FREE VALUE. The hardware point number (BINDING of a class 4 tag, R533) of each class 4 source: 0 to 31 the last stamp of a
timing input, 32 PFW, 33 and 34 the feeds, 35 VKA_A, 36 VKA_B, 40 to 47 the safe outputs, 48 to 63 the safe inputs, 64 to 71 the
temperatures, 72 to 87 the timed outputs, 88 device time. The manual numbers no point. -/
opaque hwPoint : Nat → Nat

end Sys2Proof.Config
end

