-- ==== Sys2Proof/Machine/RegTable.lean ====
section
/-!
DEFINITION. Machine/RegTable.lean: the registers of the management address map as the spec's register tables give them:
offset, repetition, and per field its bits, access code, Cold value (the image default for "image"), whether a warm start
keeps it, and its range. A is the list of register addresses (of the first instance where a register repeats).
-/
namespace Sys2Proof.Machine

/-- Access codes (R4 to R10). -/
inductive Acc where
  | rw | rwo | rws | wo | ro | rc | w1c
  deriving DecidableEq, Repr

/-- The values a field accepts (R11, BAD_VALUE outside). -/
inductive Rng where
  | any
  | nat (lo hi : Nat)
  | sgn (lo hi : Int)
  | zeroOr (lo hi : Nat)
  deriving DecidableEq, Repr

/-- One field: bits hi:lo, access, Cold value, kept at a warm start, range. -/
structure Fld where
  hi : Nat
  lo : Nat
  acc : Acc
  cold : Nat
  kept : Bool
  rng : Rng
  deriving DecidableEq, Repr

/-- One register: offset in its page or window, words, and up to two repetitions (stride, count). -/
structure RegDef where
  off : Nat
  words : Nat
  s1 : Nat
  n1 : Nat
  s2 : Nat
  n2 : Nat
  flds : List Fld
  deriving DecidableEq, Repr

/-! Addresses. -/
namespace A
/-- 02_time_and_ticks: R108. -/
abbrev PB_TIME_SEC_HI : Nat := 0x20010
/-- 02_time_and_ticks: R108. -/
abbrev PB_TIME_SEC_LO : Nat := 0x20014
/-- 02_time_and_ticks: R108. -/
abbrev PB_TIME_NS : Nat := 0x20018
/-- 02_time_and_ticks: R108. -/
abbrev PB_TIME_FRAC : Nat := 0x2001C
/-- 02_time_and_ticks: R108. -/
abbrev PB_OFFSET : Nat := 0x20028
/-- 02_time_and_ticks: R108. -/
abbrev PB_HOLD_AGE : Nat := 0x2002C
/-- 02_time_and_ticks: R108. -/
abbrev PB_SLEW_REMAIN : Nat := 0x20030
/-- 02_time_and_ticks: R108. -/
abbrev PB_STEP_LIMIT : Nat := 0x20038
/-- 02_time_and_ticks: R108. -/
abbrev PB_SLEW_RATE : Nat := 0x2003C
/-- 02_time_and_ticks: R108. -/
abbrev PB_SET_SEC_HI : Nat := 0x20040
/-- 02_time_and_ticks: R108. -/
abbrev PB_SET_SEC_LO : Nat := 0x20044
/-- 02_time_and_ticks: R108. -/
abbrev PB_SET_NS : Nat := 0x20048
/-- 02_time_and_ticks: R108. -/
abbrev PB_FREQ : Nat := 0x2004C
/-- 02_time_and_ticks: R108. -/
abbrev PB_PORT_DELAY : Nat := 0x20108
/-- 02_time_and_ticks: R108. -/
abbrev PB_TIN_COUNT : Nat := 0x20204
/-- 02_time_and_ticks: R108. -/
abbrev PB_TIN_LOST : Nat := 0x20208
/-- 02_time_and_ticks: R108. -/
abbrev PB_TIN_STAMP : Nat := 0x20400
/-- 02_time_and_ticks: R108. -/
abbrev PB_TOUT_START_SEC : Nat := 0x20608
/-- 02_time_and_ticks: R108. -/
abbrev PB_TOUT_START_NS : Nat := 0x2060C
/-- 02_time_and_ticks: R108. -/
abbrev PB_TOUT_WIDTH_NS : Nat := 0x20610
/-- 02_time_and_ticks: R108. -/
abbrev PB_TOUT_PERIOD_NS : Nat := 0x20614
/-- 02_time_and_ticks: R108. -/
abbrev PB_HOLD_AVG : Nat := 0x28010
/-- 02_time_and_ticks: R108. -/
abbrev PB_FREQ_CHG_LIM : Nat := 0x28014
/-- 02_time_and_ticks: R108. -/
abbrev PB_REMEAS : Nat := 0x28018
/-- 02_time_and_ticks: R108. -/
abbrev PB_FREQ_TRIM : Nat := 0x28020
/-- 02_time_and_ticks: R108. -/
abbrev PB_PORT_ASYM : Nat := 0x28100
/-- 02_time_and_ticks: R108. -/
abbrev PB_PORT_PTHR : Nat := 0x28108
/-- 02_time_and_ticks: R108. -/
abbrev PB_TIN_DELAY : Nat := 0x28200
/-- 02_time_and_ticks: R109. -/
abbrev PB_TICK : Nat := 0x20020
/-- 02_time_and_ticks: R110. -/
abbrev PB_SYNC_STATUS : Nat := 0x20024
/-- 02_time_and_ticks: R111. -/
abbrev PB_TIME_CTL : Nat := 0x20034
/-- 02_time_and_ticks: R112. -/
abbrev PB_PRIO : Nat := 0x2801C
/-- 02_time_and_ticks: R113. -/
abbrev PB_PORT_CTL : Nat := 0x20100
/-- 02_time_and_ticks: R116. -/
abbrev PB_PORT_STATUS : Nat := 0x20104
/-- 02_time_and_ticks: R117. -/
abbrev PB_PORT_LAT : Nat := 0x28104
/-- 02_time_and_ticks: R118. -/
abbrev PB_PORT_INTV : Nat := 0x2810C
/-- 02_time_and_ticks: R119. -/
abbrev PB_TIN_CTL : Nat := 0x20200
/-- 02_time_and_ticks: R120. -/
abbrev PB_TOUT_CTL : Nat := 0x20600
/-- 02_time_and_ticks: R121. -/
abbrev PB_TOUT_CMD : Nat := 0x20604
/-- 02_time_and_ticks: R123. -/
abbrev PB_TOUT_SUB : Nat := 0x20618
/-- 02_time_and_ticks: R124. -/
abbrev PB_TOUT_COUNT : Nat := 0x2061C
/-- 03_modes_and_start: R152. -/
abbrev DEV_MODE : Nat := 0x10
/-- 03_modes_and_start: R153. -/
abbrev DEV_START_STATUS : Nat := 0x14
/-- 03_modes_and_start: R154. -/
abbrev DEV_BOOT_COUNT : Nat := 0x18
/-- 03_modes_and_start: R155. -/
abbrev DEV_RESTART_CAUSE : Nat := 0x1C
/-- 03_modes_and_start: R156. -/
abbrev DEV_START_CTL : Nat := 0x20
/-- 03_modes_and_start: R157. -/
abbrev DEV_FLY_STATUS : Nat := 0x24
/-- 03_modes_and_start: R158. -/
abbrev DEV_FLY_CTL : Nat := 0x8010
/-- 03_modes_and_start: R159. -/
abbrev DEV_SVC_TIMEOUT : Nat := 0x8014
/-- 04_host_access: R224. -/
abbrev HA_IPV4_ADDR : Nat := 0x10104
/-- 04_host_access: R224. -/
abbrev HA_IPV4_MASK : Nat := 0x10108
/-- 04_host_access: R224. -/
abbrev HA_IPV4_GW : Nat := 0x1010C
/-- 04_host_access: R224. -/
abbrev HA_IPV6_ADDR : Nat := 0x10110
/-- 04_host_access: R224. -/
abbrev HA_IPV6_PLEN : Nat := 0x10120
/-- 04_host_access: R224. -/
abbrev HA_MAC_HI : Nat := 0x10124
/-- 04_host_access: R224. -/
abbrev HA_MAC_LO : Nat := 0x10128
/-- 04_host_access: R224. -/
abbrev HA_LOG_HEAD : Nat := 0x10130
/-- 04_host_access: R224. -/
abbrev HA_RX_DROP : Nat := 0x10140
/-- 04_host_access: R224. -/
abbrev HA_AUTH_FAIL : Nat := 0x10144
/-- 04_host_access: R224. -/
abbrev HA_HS_REFUSED : Nat := 0x10148
/-- 04_host_access: R224. -/
abbrev HA_REASM_FAIL : Nat := 0x1014C
/-- 04_host_access: R224. -/
abbrev HA_SESS_FP : Nat := 0x10204
/-- 04_host_access: R224. -/
abbrev HA_SESS_REQS : Nat := 0x10208
/-- 04_host_access: R224. -/
abbrev HA_SESS_LOST : Nat := 0x1020C
/-- 04_host_access: R224. -/
abbrev HA_SESS_IDLE : Nat := 0x10210
/-- 04_host_access: R224. -/
abbrev HA_LOG : Nat := 0x14000
/-- 04_host_access: R224. -/
abbrev HA_SESS_TIMEOUT : Nat := 0x18100
/-- 04_host_access: R224. -/
abbrev HA_HOSTKEY_FP : Nat := 0x18200
/-- 04_host_access: R225. -/
abbrev HA_NET_CTL : Nat := 0x10100
/-- 04_host_access: R226. -/
abbrev HA_LINK : Nat := 0x10134
/-- 04_host_access: R227. -/
abbrev HA_SESS_STATUS : Nat := 0x10200
/-- 04_host_access: R228. -/
abbrev HA_RATE_CTL : Nat := 0x18104
/-- 04_host_access: R229. -/
abbrev HA_HOSTKEY_ROLE : Nat := 0x18220
/-- 18_update_and_identity: R805. -/
abbrev BT_SEQ : Nat := 0x10014
/-- 18_update_and_identity: R805. -/
abbrev BT_MIN_SEC : Nat := 0x10018
/-- 18_update_and_identity: R805. -/
abbrev BT_FW_SEC : Nat := 0x1001C
/-- 18_update_and_identity: R805. -/
abbrev BT_FW_MANIFEST : Nat := 0x10020
/-- 18_update_and_identity: R805. -/
abbrev BT_CFG_HASH : Nat := 0x10040
/-- 18_update_and_identity: R805. -/
abbrev BT_NVM : Nat := 0x10060
/-- 18_update_and_identity: R805. -/
abbrev UP_CONT_LO : Nat := 0x10084
/-- 18_update_and_identity: R805. -/
abbrev UP_CONT_HI : Nat := 0x10088
/-- 18_update_and_identity: R805. -/
abbrev UP_CHUNKS : Nat := 0x1008C
/-- 18_update_and_identity: R805. -/
abbrev UP_RELAY_FWD : Nat := 0x10090
/-- 18_update_and_identity: R805. -/
abbrev UP_RELAY_ABANDON : Nat := 0x10094
/-- 18_update_and_identity: R805. -/
abbrev UP_REFUSED : Nat := 0x10098
/-- 18_update_and_identity: R805. -/
abbrev ID_FP : Nat := 0x100C0
/-- 18_update_and_identity: R805. -/
abbrev ID_DBG_NONCE : Nat := 0x100E0
/-- 18_update_and_identity: R805. -/
abbrev ID_SERIAL_LO : Nat := 0x10408
/-- 18_update_and_identity: R805. -/
abbrev ID_SERIAL_HI : Nat := 0x1040C
/-- 18_update_and_identity: R805. -/
abbrev ID_OWNER_FP : Nat := 0x10420
/-- 18_update_and_identity: R805. -/
abbrev ID_CERT : Nat := 0x10800
/-- 18_update_and_identity: R806. -/
abbrev BT_STATUS : Nat := 0x10010
/-- 18_update_and_identity: R806. -/
abbrev UP_STATUS : Nat := 0x10080
/-- 18_update_and_identity: R806. -/
abbrev ID_DBG_STATUS : Nat := 0x10400
/-- 18_update_and_identity: R806. -/
abbrev ID_DBG_CTL : Nat := 0x10404
/-- 18_update_and_identity: R806. -/
abbrev UP_RELAY_CTL : Nat := 0x18010
/-- 05_fabric_and_compiler_contract: R260. -/
abbrev FB_LATCH_END : Nat := 0x60014
/-- 05_fabric_and_compiler_contract: R260. -/
abbrev FB_COMMIT_DEADLINE : Nat := 0x60018
/-- 05_fabric_and_compiler_contract: R260. -/
abbrev FB_COMMIT_END : Nat := 0x6001C
/-- 05_fabric_and_compiler_contract: R260. -/
abbrev FB_TILE_LATE : Nat := 0x60108
/-- 05_fabric_and_compiler_contract: R260. -/
abbrev FB_TILE_OPS : Nat := 0x6010C
/-- 05_fabric_and_compiler_contract: R260. -/
abbrev FB_USE_WARN : Nat := 0x68010
/-- 05_fabric_and_compiler_contract: R261. -/
abbrev FB_SCHED : Nat := 0x60010
/-- 05_fabric_and_compiler_contract: R262. -/
abbrev FB_PACE : Nat := 0x60020
/-- 05_fabric_and_compiler_contract: R263. -/
abbrev FB_TILE_STATUS : Nat := 0x60100
/-- 05_fabric_and_compiler_contract: R264. -/
abbrev FB_TILE_USE : Nat := 0x60104
/-- 06_work_item_queues: R298. -/
abbrev WQ_REL_SEC : Nat := 0x70018
/-- 06_work_item_queues: R298. -/
abbrev WQ_REL_NS : Nat := 0x7001C
/-- 06_work_item_queues: R298. -/
abbrev WQ_ITEM_REL_SEC : Nat := 0x70028
/-- 06_work_item_queues: R298. -/
abbrev WQ_ITEM_REL_NS : Nat := 0x7002C
/-- 06_work_item_queues: R298. -/
abbrev WQ_ITEM_LAT_LAST : Nat := 0x70030
/-- 06_work_item_queues: R298. -/
abbrev WQ_ITEM_LAT_MAX : Nat := 0x70034
/-- 06_work_item_queues: R298. -/
abbrev WQ_REFUSED : Nat := 0x70040
/-- 06_work_item_queues: R298. -/
abbrev WQ_LATE_REL : Nat := 0x70044
/-- 06_work_item_queues: R298. -/
abbrev WQ_COMMIT_LOST : Nat := 0x70048
/-- 06_work_item_queues: R298. -/
abbrev WQ_DUP : Nat := 0x7004C
/-- 06_work_item_queues: R298. -/
abbrev WQ_BAD_OP : Nat := 0x70050
/-- 06_work_item_queues: R298. -/
abbrev WQ_PRIO_RUNS : Nat := 0x70104
/-- 06_work_item_queues: R298. -/
abbrev WQ_PRIO_CANCEL : Nat := 0x70108
/-- 06_work_item_queues: R298. -/
abbrev WQ_PRIO_LAST_ITEM : Nat := 0x7010C
/-- 06_work_item_queues: R298. -/
abbrev WQ_AFF_WAIT : Nat := 0x78010
/-- 06_work_item_queues: R298. -/
abbrev WQ_AGE_WARN : Nat := 0x78014
/-- 06_work_item_queues: R298. -/
abbrev WQ_PRIO_LIMIT : Nat := 0x78100
/-- 06_work_item_queues: R299. -/
abbrev WQ_STATUS : Nat := 0x70010
/-- 06_work_item_queues: R300. -/
abbrev WQ_CMD : Nat := 0x70014
/-- 06_work_item_queues: R301. -/
abbrev WQ_SEL : Nat := 0x70020
/-- 06_work_item_queues: R302. -/
abbrev WQ_ITEM_STATE : Nat := 0x70024
/-- 06_work_item_queues: R303. -/
abbrev WQ_PRIO_STATUS : Nat := 0x70100
/-- 07_cycle_program: R350. -/
abbrev PG_CYCLE_LO : Nat := 0x80014
/-- 07_cycle_program: R350. -/
abbrev PG_CYCLE_HI : Nat := 0x80018
/-- 07_cycle_program: R350. -/
abbrev PG_OVR_TOTAL : Nat := 0x8001C
/-- 07_cycle_program: R350. -/
abbrev PG_SKIP_TOTAL : Nat := 0x80020
/-- 07_cycle_program: R350. -/
abbrev PG_RET_SIZE : Nat := 0x80044
/-- 07_cycle_program: R350. -/
abbrev PG_RET_RATE : Nat := 0x80048
/-- 07_cycle_program: R350. -/
abbrev PG_PFW_BYTES : Nat := 0x8004C
/-- 07_cycle_program: R350. -/
abbrev PG_RET_PENDING : Nat := 0x80050
/-- 07_cycle_program: R350. -/
abbrev PG_RET_RECORDS : Nat := 0x80054
/-- 07_cycle_program: R350. -/
abbrev PG_RET_LAST_SEC : Nat := 0x80058
/-- 07_cycle_program: R350. -/
abbrev PG_RET_LAST_NS : Nat := 0x8005C
/-- 07_cycle_program: R350. -/
abbrev PG_RET_LAG_MAX : Nat := 0x80060
/-- 07_cycle_program: R350. -/
abbrev PG_FORCE_COUNT : Nat := 0x80080
/-- 07_cycle_program: R350. -/
abbrev PG_FORCE_TAG : Nat := 0x80084
/-- 07_cycle_program: R350. -/
abbrev PG_FORCE_VAL_LO : Nat := 0x80088
/-- 07_cycle_program: R350. -/
abbrev PG_FORCE_VAL_HI : Nat := 0x8008C
/-- 07_cycle_program: R350. -/
abbrev PG_FORCE_DROP_TAG : Nat := 0x80094
/-- 07_cycle_program: R350. -/
abbrev PG_OLC_XFER_NS : Nat := 0x800C4
/-- 07_cycle_program: R350. -/
abbrev PG_OLC_LAST_SEC : Nat := 0x800CC
/-- 07_cycle_program: R350. -/
abbrev PG_OLC_LAST_NS : Nat := 0x800D0
/-- 07_cycle_program: R350. -/
abbrev PG_OLC_CARRIED : Nat := 0x800D4
/-- 07_cycle_program: R350. -/
abbrev PG_OLC_DROPPED : Nat := 0x800D8
/-- 07_cycle_program: R350. -/
abbrev PG_FORCE_TAGW : Nat := 0x84000
/-- 07_cycle_program: R350. -/
abbrev PG_FORCE_VLO : Nat := 0x84004
/-- 07_cycle_program: R350. -/
abbrev PG_FORCE_VHI : Nat := 0x84008
/-- 07_cycle_program: R350. -/
abbrev PG_OLC_SWAP_SEC : Nat := 0x88020
/-- 07_cycle_program: R350. -/
abbrev PG_OLC_SWAP_NS : Nat := 0x88024
/-- 07_cycle_program: R351. -/
abbrev PG_STATUS : Nat := 0x80010
/-- 07_cycle_program: R352. -/
abbrev PG_RET_STATUS : Nat := 0x80040
/-- 07_cycle_program: R353. -/
abbrev PG_FORCE_CMD : Nat := 0x80090
/-- 07_cycle_program: R354. -/
abbrev PG_OLC_STATUS : Nat := 0x800C0
/-- 07_cycle_program: R355. -/
abbrev PG_OVR_CTL : Nat := 0x88010
/-- 07_cycle_program: R356. -/
abbrev PG_PFW_CTL : Nat := 0x88014
/-- 07_cycle_program: R357. -/
abbrev PG_OLC_CMD : Nat := 0x88028
/-- 08_control_loops: R392. -/
abbrev LP_YU : Nat := 0x1000024
/-- 08_control_loops: R392. -/
abbrev LP_RE : Nat := 0x1000028
/-- 08_control_loops: R392. -/
abbrev LP_FB_TAG : Nat := 0x1000084
/-- 08_control_loops: R392. -/
abbrev LP_OUT_TAG : Nat := 0x1000088
/-- 08_control_loops: R392. -/
abbrev LP_FB_OFFSET : Nat := 0x1000090
/-- 08_control_loops: R392. -/
abbrev LP_OUT_OFFSET : Nat := 0x1000098
/-- 08_control_loops: R392. -/
abbrev LP_INTEG_LO : Nat := 0x10000B8
/-- 08_control_loops: R392. -/
abbrev LP_INTEG_HI : Nat := 0x10000BC
/-- 08_control_loops: R392. -/
abbrev LP_LATE : Nat := 0x10000C0
/-- 08_control_loops: R392. -/
abbrev LP_LIMITED : Nat := 0x10000C4
/-- 08_control_loops: R393. -/
abbrev LP_CTL : Nat := 0x1000000
/-- 08_control_loops: R394. -/
abbrev LP_STATUS : Nat := 0x1000004
/-- 08_control_loops: R395. -/
abbrev LP_SP : Nat := 0x1000008
/-- 08_control_loops: R395. -/
abbrev LP_MAN_OUT : Nat := 0x100000C
/-- 08_control_loops: R396. -/
abbrev LP_KP : Nat := 0x1000010
/-- 08_control_loops: R396. -/
abbrev LP_KI : Nat := 0x1000014
/-- 08_control_loops: R396. -/
abbrev LP_KD : Nat := 0x1000018
/-- 08_control_loops: R396. -/
abbrev LP_KFF : Nat := 0x10000AC
/-- 08_control_loops: R397. -/
abbrev LP_OUT_LIM : Nat := 0x100001C
/-- 08_control_loops: R398. -/
abbrev LP_STALE_CTL : Nat := 0x1000020
/-- 08_control_loops: R399. -/
abbrev LP_STALE_CNT : Nat := 0x100002C
/-- 08_control_loops: R400. -/
abbrev LP_CFG : Nat := 0x1000080
/-- 08_control_loops: R401. -/
abbrev LP_FB_SCALE : Nat := 0x100008C
/-- 08_control_loops: R401. -/
abbrev LP_OUT_SCALE : Nat := 0x1000094
/-- 08_control_loops: R402. -/
abbrev LP_SP_RAMP : Nat := 0x100009C
/-- 08_control_loops: R402. -/
abbrev LP_RATE : Nat := 0x10000A0
/-- 08_control_loops: R402. -/
abbrev LP_ILIM : Nat := 0x10000A4
/-- 08_control_loops: R402. -/
abbrev LP_DFILT : Nat := 0x10000A8
/-- 08_control_loops: R402. -/
abbrev LP_BIAS : Nat := 0x10000B0
/-- 08_control_loops: R402. -/
abbrev LP_FROZEN : Nat := 0x10000B4
/-- 09_learning_and_tuning: R433. -/
abbrev RC_PASS_LEARNED : Nat := 0x1000050
/-- 09_learning_and_tuning: R433. -/
abbrev RC_PASS_SKIPPED : Nat := 0x1000054
/-- 09_learning_and_tuning: R433. -/
abbrev RC_PASS_PAUSED : Nat := 0x1000058
/-- 09_learning_and_tuning: R433. -/
abbrev RC_DISCONT : Nat := 0x100005C
/-- 09_learning_and_tuning: R433. -/
abbrev INJ_F0 : Nat := 0x100006C
/-- 09_learning_and_tuning: R433. -/
abbrev INJ_F1 : Nat := 0x1000070
/-- 09_learning_and_tuning: R433. -/
abbrev INJ_DUR : Nat := 0x1000074
/-- 09_learning_and_tuning: R433. -/
abbrev INJ_ELAPSED : Nat := 0x1000078
/-- 09_learning_and_tuning: R433. -/
abbrev RC_SRC_TAG : Nat := 0x10000E4
/-- 09_learning_and_tuning: R433. -/
abbrev RC_PERIOD_LO : Nat := 0x10000E8
/-- 09_learning_and_tuning: R433. -/
abbrev RC_PERIOD_HI : Nat := 0x10000EC
/-- 09_learning_and_tuning: R433. -/
abbrev RC_ORIGIN_LO : Nat := 0x10000F0
/-- 09_learning_and_tuning: R433. -/
abbrev RC_ORIGIN_HI : Nat := 0x10000F4
/-- 09_learning_and_tuning: R434. -/
abbrev RC_CTL : Nat := 0x1000040
/-- 09_learning_and_tuning: R435. -/
abbrev RC_STATUS : Nat := 0x1000044
/-- 09_learning_and_tuning: R436. -/
abbrev RC_LQ : Nat := 0x1000048
/-- 09_learning_and_tuning: R437. -/
abbrev RC_POS : Nat := 0x100004C
/-- 09_learning_and_tuning: R438. -/
abbrev INJ_CTL : Nat := 0x1000060
/-- 09_learning_and_tuning: R438. -/
abbrev INJ_AMP : Nat := 0x1000068
/-- 09_learning_and_tuning: R438. -/
abbrev INJ_HOLD : Nat := 0x100007C
/-- 09_learning_and_tuning: R439. -/
abbrev INJ_STATUS : Nat := 0x1000064
/-- 09_learning_and_tuning: R440. -/
abbrev RC_CFG : Nat := 0x10000E0
/-- 09_learning_and_tuning: R441. -/
abbrev RC_DLY_FADE : Nat := 0x10000F8
/-- 09_learning_and_tuning: R441. -/
abbrev INJ_CFG : Nat := 0x10000FC
/-- 08_control_loops: R403. -/
abbrev LE_LOAD : Nat := 0x90010
/-- 08_control_loops: R403. -/
abbrev LE_LATE_TOTAL : Nat := 0x90014
/-- 08_control_loops: R403. -/
abbrev LE_STALE_NOW : Nat := 0x90018
/-- 08_control_loops: R403. -/
abbrev LE_TBL_SEL : Nat := 0x98010
/-- 08_control_loops: R403. -/
abbrev LE_TBL_NODE : Nat := 0x98100
/-- 09_learning_and_tuning: R442. -/
abbrev LE_BIN_SEL : Nat := 0x90020
/-- 09_learning_and_tuning: R442. -/
abbrev LE_INJ_ACTIVE : Nat := 0x90024
/-- 09_learning_and_tuning: R442. -/
abbrev LE_BIN : Nat := 0x94000
/-- 09_learning_and_tuning: R442. -/
abbrev LE_MS_SEL : Nat := 0x98014
/-- 09_learning_and_tuning: R442. -/
abbrev LE_MS_LEN : Nat := 0x98200
/-- 09_learning_and_tuning: R442. -/
abbrev LE_MS_DATA : Nat := 0x99000
/-- 10_motion_profiles: R481. -/
abbrev AX_POS : Nat := 0x2000008
/-- 10_motion_profiles: R481. -/
abbrev AX_POS_FRAC : Nat := 0x2000010
/-- 10_motion_profiles: R481. -/
abbrev AX_VEL : Nat := 0x2000014
/-- 10_motion_profiles: R481. -/
abbrev AX_ACC : Nat := 0x200001C
/-- 10_motion_profiles: R481. -/
abbrev AX_ACT : Nat := 0x2000024
/-- 10_motion_profiles: R481. -/
abbrev AX_FERR : Nat := 0x200002C
/-- 10_motion_profiles: R481. -/
abbrev AX_TERR : Nat := 0x2000030
/-- 10_motion_profiles: R481. -/
abbrev AX_TGT : Nat := 0x2000034
/-- 10_motion_profiles: R481. -/
abbrev AX_TGT_FRAC : Nat := 0x200003C
/-- 10_motion_profiles: R481. -/
abbrev AX_VMAX : Nat := 0x2000040
/-- 10_motion_profiles: R481. -/
abbrev AX_ACC_LIM : Nat := 0x2000048
/-- 10_motion_profiles: R481. -/
abbrev AX_DEC : Nat := 0x2000050
/-- 10_motion_profiles: R481. -/
abbrev AX_STOP_DEC : Nat := 0x2000058
/-- 10_motion_profiles: R481. -/
abbrev AX_FE_WINDOW : Nat := 0x2000060
/-- 10_motion_profiles: R481. -/
abbrev AX_REFUSED : Nat := 0x2000064
/-- 10_motion_profiles: R481. -/
abbrev AX_JERK : Nat := 0x2000104
/-- 10_motion_profiles: R481. -/
abbrev AX_QSTOP_DEC : Nat := 0x200010C
/-- 10_motion_profiles: R481. -/
abbrev AX_QSTOP_JERK : Nat := 0x2000114
/-- 10_motion_profiles: R481. -/
abbrev AX_MODULUS : Nat := 0x200011C
/-- 10_motion_profiles: R481. -/
abbrev AX_SW_MIN : Nat := 0x2000124
/-- 10_motion_profiles: R481. -/
abbrev AX_SW_MAX : Nat := 0x200012C
/-- 10_motion_profiles: R481. -/
abbrev AX_SYNC_ACC : Nat := 0x2000134
/-- 10_motion_profiles: R481. -/
abbrev AX_SYNC_VEL : Nat := 0x200013C
/-- 10_motion_profiles: R481. -/
abbrev AX_JOG_VEL : Nat := 0x2000144
/-- 10_motion_profiles: R481. -/
abbrev AX_TRACK_LIMIT : Nat := 0x200014C
/-- 10_motion_profiles: R482. -/
abbrev AX_CMD : Nat := 0x2000000
/-- 10_motion_profiles: R483. -/
abbrev AX_STATUS : Nat := 0x2000004
/-- 10_motion_profiles: R484. -/
abbrev AX_JOG : Nat := 0x2000068
/-- 10_motion_profiles: R485. -/
abbrev AX_CFG : Nat := 0x2000100
/-- 10_motion_profiles: R486. -/
abbrev AX_FOLLOW_CTL : Nat := 0x2000154
/-- 11_axis_io_limits_stall: R525. -/
abbrev AX_HOME_LATCH : Nat := 0x2000090
/-- 11_axis_io_limits_stall: R525. -/
abbrev AX_HOME_LATCH_FRAC : Nat := 0x2000098
/-- 11_axis_io_limits_stall: R525. -/
abbrev AX_STEP_POS : Nat := 0x20000A4
/-- 11_axis_io_limits_stall: R525. -/
abbrev AX_ENC_COUNT : Nat := 0x20000AC
/-- 11_axis_io_limits_stall: R525. -/
abbrev AX_DRV_SP_TAG : Nat := 0x20000C0
/-- 11_axis_io_limits_stall: R525. -/
abbrev AX_STEP_LAG_MAX : Nat := 0x2000184
/-- 11_axis_io_limits_stall: R525. -/
abbrev AX_ENC_SCALE : Nat := 0x2000188
/-- 11_axis_io_limits_stall: R525. -/
abbrev AX_LIMIT_DEC : Nat := 0x2000194
/-- 11_axis_io_limits_stall: R525. -/
abbrev AX_LIMIT_JERK : Nat := 0x200019C
/-- 11_axis_io_limits_stall: R525. -/
abbrev AX_REL_DIST : Nat := 0x20001A4
/-- 11_axis_io_limits_stall: R525. -/
abbrev AX_HOME_VEL : Nat := 0x20001AC
/-- 11_axis_io_limits_stall: R525. -/
abbrev AX_HOME_SLOW : Nat := 0x20001B4
/-- 11_axis_io_limits_stall: R525. -/
abbrev AX_HOME_DEC : Nat := 0x20001BC
/-- 11_axis_io_limits_stall: R525. -/
abbrev AX_HOME_OFFSET : Nat := 0x20001C4
/-- 11_axis_io_limits_stall: R525. -/
abbrev AX_HOME_PARK : Nat := 0x20001CC
/-- 11_axis_io_limits_stall: R525. -/
abbrev AX_HOME_MAXDIST : Nat := 0x20001D4
/-- 11_axis_io_limits_stall: R525. -/
abbrev AX_STALL_TIME : Nat := 0x20001E8
/-- 11_axis_io_limits_stall: R525. -/
abbrev AX_DRV_LEAD : Nat := 0x20001F0
/-- 11_axis_io_limits_stall: R525. -/
abbrev AX_STALL_VMIN : Nat := 0x20001F4
/-- 11_axis_io_limits_stall: R526. -/
abbrev AX_IO_CFG : Nat := 0x2000080
/-- 11_axis_io_limits_stall: R527. -/
abbrev AX_IO_STATUS : Nat := 0x2000084
/-- 11_axis_io_limits_stall: R528. -/
abbrev AX_HOME_CTL : Nat := 0x2000088
/-- 11_axis_io_limits_stall: R528. -/
abbrev AX_HOME_STATUS : Nat := 0x200008C
/-- 11_axis_io_limits_stall: R528. -/
abbrev AX_CURRENT : Nat := 0x200009C
/-- 11_axis_io_limits_stall: R528. -/
abbrev AX_LOAD : Nat := 0x20000A0
/-- 11_axis_io_limits_stall: R528. -/
abbrev AX_STEP_LAG : Nat := 0x20000B0
/-- 11_axis_io_limits_stall: R528. -/
abbrev AX_IO_COUNT : Nat := 0x20000B4
/-- 11_axis_io_limits_stall: R529. -/
abbrev AX_STEP_TIMING : Nat := 0x2000180
/-- 11_axis_io_limits_stall: R529. -/
abbrev AX_LIM_CFG : Nat := 0x2000190
/-- 11_axis_io_limits_stall: R529. -/
abbrev AX_HOME_CFG : Nat := 0x20001A8
/-- 11_axis_io_limits_stall: R529. -/
abbrev AX_BOOST : Nat := 0x20001DC
/-- 11_axis_io_limits_stall: R529. -/
abbrev AX_BOOST_LIM : Nat := 0x20001E0
/-- 11_axis_io_limits_stall: R529. -/
abbrev AX_STALL : Nat := 0x20001E4
/-- 11_axis_io_limits_stall: R529. -/
abbrev AX_LOAD_CFG : Nat := 0x20001EC
/-- 12_signal_recording: R563. -/
abbrev RS_OFFERED : Nat := 0x3100008
/-- 12_signal_recording: R563. -/
abbrev RS_WRITTEN : Nat := 0x3100010
/-- 12_signal_recording: R563. -/
abbrev RS_LOST_INGEST : Nat := 0x3100018
/-- 12_signal_recording: R563. -/
abbrev RS_LOST_RING : Nat := 0x3100020
/-- 12_signal_recording: R563. -/
abbrev RS_LOST_LATE : Nat := 0x3100028
/-- 12_signal_recording: R563. -/
abbrev RS_GAPS : Nat := 0x310002C
/-- 12_signal_recording: R563. -/
abbrev RS_OVERWRITTEN : Nat := 0x3100030
/-- 12_signal_recording: R563. -/
abbrev RS_RD_PTR : Nat := 0x3100038
/-- 12_signal_recording: R563. -/
abbrev RS_WR_PTR : Nat := 0x310003C
/-- 12_signal_recording: R563. -/
abbrev RS_ACK : Nat := 0x3100040
/-- 12_signal_recording: R563. -/
abbrev RS_MARK : Nat := 0x3100044
/-- 12_signal_recording: R563. -/
abbrev RS_SEG_SEQ : Nat := 0x3100048
/-- 12_signal_recording: R563. -/
abbrev RS_RATE : Nat := 0x310004C
/-- 12_signal_recording: R563. -/
abbrev RS_PEER_CFG : Nat := 0x3100084
/-- 12_signal_recording: R563. -/
abbrev RS_STAGE_QUOTA : Nat := 0x3100088
/-- 12_signal_recording: R563. -/
abbrev RS_FILL_WARN : Nat := 0x310008C
/-- 12_signal_recording: R563. -/
abbrev RS_ENTRIES : Nat := 0x3100090
/-- 12_signal_recording: R564. -/
abbrev RS_CTL : Nat := 0x3100000
/-- 12_signal_recording: R565. -/
abbrev RS_STATUS : Nat := 0x3100004
/-- 12_signal_recording: R566. -/
abbrev RS_CFG : Nat := 0x3100080
/-- 12_signal_recording: R567. -/
abbrev RR_RATE : Nat := 0xB0010
/-- 12_signal_recording: R567. -/
abbrev RR_RATE_MAX : Nat := 0xB0014
/-- 12_signal_recording: R567. -/
abbrev RR_OBS_RATE : Nat := 0xB0018
/-- 12_signal_recording: R567. -/
abbrev RR_STAGE_USE : Nat := 0xB001C
/-- 12_signal_recording: R567. -/
abbrev RR_META_TAG : Nat := 0xB0020
/-- 12_signal_recording: R567. -/
abbrev RR_META_LO : Nat := 0xB0024
/-- 12_signal_recording: R567. -/
abbrev RR_META_HI : Nat := 0xB0028
/-- 12_signal_recording: R567. -/
abbrev RR_AP_SEL : Nat := 0xB0030
/-- 12_signal_recording: R567. -/
abbrev RR_APERTURE : Nat := 0xB4000
/-- 12_signal_recording: R567. -/
abbrev RR_ENT_SEL : Nat := 0xB8010
/-- 12_signal_recording: R567. -/
abbrev RR_ENT_TAG : Nat := 0xB8014
/-- 12_signal_recording: R567. -/
abbrev RR_ENT_DEADBAND : Nat := 0xB8018
/-- 12_signal_recording: R568. -/
abbrev RR_ENT_CFG : Nat := 0xB801C
/-- 13_triggers_and_captures: R604. -/
abbrev CP_LOAD : Nat := 0xC0010
/-- 13_triggers_and_captures: R604. -/
abbrev CP_WRITE_RATE : Nat := 0xC0014
/-- 13_triggers_and_captures: R604. -/
abbrev TL_HEAD : Nat := 0xC0018
/-- 13_triggers_and_captures: R604. -/
abbrev CP_DISCARDED : Nat := 0xC001C
/-- 13_triggers_and_captures: R604. -/
abbrev CP_AP_SEL : Nat := 0xC0020
/-- 13_triggers_and_captures: R604. -/
abbrev CP_AP_OFFSET : Nat := 0xC0024
/-- 13_triggers_and_captures: R604. -/
abbrev TR_COUNT : Nat := 0xC0408
/-- 13_triggers_and_captures: R604. -/
abbrev TR_LAST_SEC : Nat := 0xC0410
/-- 13_triggers_and_captures: R604. -/
abbrev TR_LAST_NS : Nat := 0xC0414
/-- 13_triggers_and_captures: R604. -/
abbrev TR_LAST_FRAC : Nat := 0xC0418
/-- 13_triggers_and_captures: R604. -/
abbrev TL : Nat := 0xC1400
/-- 13_triggers_and_captures: R604. -/
abbrev CP_TAG : Nat := 0xC2400
/-- 13_triggers_and_captures: R604. -/
abbrev CP_APERTURE : Nat := 0xC4800
/-- 13_triggers_and_captures: R604. -/
abbrev TR_TAG : Nat := 0xC8404
/-- 13_triggers_and_captures: R604. -/
abbrev TR_LEVEL : Nat := 0xC8408
/-- 13_triggers_and_captures: R604. -/
abbrev TR_HIGH : Nat := 0xC8410
/-- 13_triggers_and_captures: R604. -/
abbrev TR_HYST : Nat := 0xC8418
/-- 13_triggers_and_captures: R604. -/
abbrev TR_SRC : Nat := 0xC8420
/-- 13_triggers_and_captures: R604. -/
abbrev TR_WIN_NS : Nat := 0xC8424
/-- 13_triggers_and_captures: R604. -/
abbrev TR_CHAIN : Nat := 0xC8428
/-- 13_triggers_and_captures: R605. -/
abbrev TR_CTL : Nat := 0xC0400
/-- 13_triggers_and_captures: R605. -/
abbrev TR_STATUS : Nat := 0xC0404
/-- 13_triggers_and_captures: R605. -/
abbrev TR_MARKS : Nat := 0xC040C
/-- 13_triggers_and_captures: R606. -/
abbrev TR_CFG : Nat := 0xC8400
/-- 13_triggers_and_captures: R607. -/
abbrev CP_PRE_ROWS : Nat := 0x3000008
/-- 13_triggers_and_captures: R607. -/
abbrev CP_POST_ROWS : Nat := 0x300000C
/-- 13_triggers_and_captures: R607. -/
abbrev CP_ROWS : Nat := 0x3000010
/-- 13_triggers_and_captures: R607. -/
abbrev CP_MISSED : Nat := 0x3000014
/-- 13_triggers_and_captures: R607. -/
abbrev CP_RETRIG : Nat := 0x3000018
/-- 13_triggers_and_captures: R607. -/
abbrev CP_CAPTURES : Nat := 0x300001C
/-- 13_triggers_and_captures: R607. -/
abbrev CP_TRIGGER : Nat := 0x3000020
/-- 13_triggers_and_captures: R607. -/
abbrev CP_ROW_DELAY : Nat := 0x3000088
/-- 13_triggers_and_captures: R607. -/
abbrev CP_STAGE_QUOTA : Nat := 0x300008C
/-- 13_triggers_and_captures: R607. -/
abbrev CP_SPILL_LOST : Nat := 0x3000090
/-- 13_triggers_and_captures: R608. -/
abbrev CP_CTL : Nat := 0x3000000
/-- 13_triggers_and_captures: R608. -/
abbrev CP_STATUS : Nat := 0x3000004
/-- 13_triggers_and_captures: R608. -/
abbrev CP_CFG : Nat := 0x3000080
/-- 13_triggers_and_captures: R608. -/
abbrev CP_BASIN : Nat := 0x3000084
/-- 14_ashlar_line_ports: R646. -/
abbrev ASH_CLAIM : Nat := 0x30114
/-- 14_ashlar_line_ports: R646. -/
abbrev ASH_CYCLES : Nat := 0x30118
/-- 14_ashlar_line_ports: R646. -/
abbrev ASH_RX_BAD : Nat := 0x3011C
/-- 14_ashlar_line_ports: R646. -/
abbrev ASH_APPLY_EFF : Nat := 0x30120
/-- 14_ashlar_line_ports: R646. -/
abbrev ASH_UP_START_EFF : Nat := 0x30124
/-- 14_ashlar_line_ports: R646. -/
abbrev ASH_ETYPE : Nat := 0x38100
/-- 14_ashlar_line_ports: R646. -/
abbrev ASH_GUARD_NS : Nat := 0x38104
/-- 14_ashlar_line_ports: R646. -/
abbrev ASH_UP_START : Nat := 0x38108
/-- 14_ashlar_line_ports: R646. -/
abbrev ASH_APPLY_NS : Nat := 0x3810C
/-- 14_ashlar_line_ports: R646. -/
abbrev ASH_LINK_MAX_NS : Nat := 0x38110
/-- 14_ashlar_line_ports: R646. -/
abbrev ASH_SAFE_SKEW_NS : Nat := 0x38118
/-- 14_ashlar_line_ports: R647. -/
abbrev ASH_PORT_CFG : Nat := 0x30100
/-- 14_ashlar_line_ports: R647. -/
abbrev ASH_PORT_STATUS : Nat := 0x30104
/-- 14_ashlar_line_ports: R647. -/
abbrev ASH_PORT_CTL : Nat := 0x30108
/-- 14_ashlar_line_ports: R648. -/
abbrev ASH_MODULES : Nat := 0x3010C
/-- 14_ashlar_line_ports: R648. -/
abbrev ASH_LOAD : Nat := 0x30110
/-- 14_ashlar_line_ports: R648. -/
abbrev ASH_MOD_CTL : Nat := 0x38114
/-- 14_ashlar_line_ports: R649. -/
abbrev MS_STATUS : Nat := 0x4000000
/-- 14_ashlar_line_ports: R650. -/
abbrev MS_SEQ : Nat := 0x4000004
/-- 14_ashlar_line_ports: R650. -/
abbrev MS_VENDOR : Nat := 0x4000008
/-- 14_ashlar_line_ports: R650. -/
abbrev MS_PRODUCT : Nat := 0x400000C
/-- 14_ashlar_line_ports: R650. -/
abbrev MS_REVISION : Nat := 0x4000010
/-- 14_ashlar_line_ports: R650. -/
abbrev MS_SERIAL_LO : Nat := 0x4000014
/-- 14_ashlar_line_ports: R650. -/
abbrev MS_SERIAL_HI : Nat := 0x4000018
/-- 14_ashlar_line_ports: R650. -/
abbrev MS_COUNT : Nat := 0x400001C
/-- 14_ashlar_line_ports: R650. -/
abbrev MS_SLOT_A_NS : Nat := 0x4000020
/-- 14_ashlar_line_ports: R650. -/
abbrev MS_SLOT_B_NS : Nat := 0x4000024
/-- 14_ashlar_line_ports: R650. -/
abbrev MS_SAMPLE_NS : Nat := 0x4000028
/-- 14_ashlar_line_ports: R650. -/
abbrev MS_DELAY : Nat := 0x400002C
/-- 14_ashlar_line_ports: R650. -/
abbrev MS_IO_BYTES : Nat := 0x4000030
/-- 14_ashlar_line_ports: R650. -/
abbrev MS_ERR : Nat := 0x4000034
/-- 14_ashlar_line_ports: R650. -/
abbrev MS_LOSS_CFG : Nat := 0x4000038
/-- 14_ashlar_line_ports: R650. -/
abbrev MS_CLAIM : Nat := 0x400003C
/-- 15_lintel_chain: R679. -/
abbrev LN_SHAFT_LATE : Nat := 0x40020
/-- 15_lintel_chain: R679. -/
abbrev LN_SHAFT_AGE : Nat := 0x40024
/-- 15_lintel_chain: R679. -/
abbrev LN_PATH_NS : Nat := 0x40028
/-- 15_lintel_chain: R679. -/
abbrev LN_PATH_MAX : Nat := 0x4002C
/-- 15_lintel_chain: R679. -/
abbrev LN_DUP : Nat := 0x40030
/-- 15_lintel_chain: R679. -/
abbrev LN_RX_BAD : Nat := 0x40104
/-- 15_lintel_chain: R679. -/
abbrev LN_STOMPED : Nat := 0x40108
/-- 15_lintel_chain: R679. -/
abbrev LN_BULK_BYTES : Nat := 0x4010C
/-- 15_lintel_chain: R679. -/
abbrev LN_NB_FP : Nat := 0x40110
/-- 15_lintel_chain: R679. -/
abbrev LN_ETYPE : Nat := 0x48010
/-- 15_lintel_chain: R679. -/
abbrev LN_BULK_SHARE : Nat := 0x48014
/-- 15_lintel_chain: R679. -/
abbrev LN_SHAFT_HOLD : Nat := 0x48018
/-- 15_lintel_chain: R679. -/
abbrev LN_SAFE_SKEW_NS : Nat := 0x4801C
/-- 15_lintel_chain: R679. -/
abbrev LN_KNOWN_FP : Nat := 0x48100
/-- 15_lintel_chain: R680. -/
abbrev LN_CFG : Nat := 0x40010
/-- 15_lintel_chain: R680. -/
abbrev LN_STATUS : Nat := 0x40014
/-- 15_lintel_chain: R680. -/
abbrev LN_PORT_STATUS : Nat := 0x40100
/-- 15_lintel_chain: R680. -/
abbrev LN_NB_CTL : Nat := 0x48120
/-- 16_mortar_redundancy: R723. -/
abbrev MR_CLAIM : Nat := 0x50014
/-- 16_mortar_redundancy: R723. -/
abbrev MR_CLAIM_SEEN : Nat := 0x50018
/-- 16_mortar_redundancy: R723. -/
abbrev MR_EPOCH_LO : Nat := 0x5001C
/-- 16_mortar_redundancy: R723. -/
abbrev MR_EPOCH_HI : Nat := 0x50020
/-- 16_mortar_redundancy: R723. -/
abbrev MR_EPOCH_BYTES : Nat := 0x50024
/-- 16_mortar_redundancy: R723. -/
abbrev MR_EPOCH_MAX : Nat := 0x50028
/-- 16_mortar_redundancy: R723. -/
abbrev MR_HB_MISSED : Nat := 0x5002C
/-- 16_mortar_redundancy: R723. -/
abbrev MR_EPOCH_DISCARDED : Nat := 0x50030
/-- 16_mortar_redundancy: R723. -/
abbrev MR_TAKEOVERS : Nat := 0x50034
/-- 16_mortar_redundancy: R723. -/
abbrev MR_TO_SEC : Nat := 0x50038
/-- 16_mortar_redundancy: R723. -/
abbrev MR_TO_NS : Nat := 0x5003C
/-- 16_mortar_redundancy: R723. -/
abbrev MR_TO_LAG : Nat := 0x50040
/-- 16_mortar_redundancy: R723. -/
abbrev MR_RESYNC_PROG : Nat := 0x50044
/-- 16_mortar_redundancy: R723. -/
abbrev MR_PARTNER_FP : Nat := 0x50050
/-- 16_mortar_redundancy: R723. -/
abbrev MR_BUDGET : Nat := 0x58014
/-- 16_mortar_redundancy: R723. -/
abbrev MR_WORST : Nat := 0x58018
/-- 16_mortar_redundancy: R723. -/
abbrev MR_PAIR_WAIT : Nat := 0x5801C
/-- 16_mortar_redundancy: R723. -/
abbrev MR_BIN_BYTES : Nat := 0x58020
/-- 16_mortar_redundancy: R723. -/
abbrev MR_KNOWN_FP : Nat := 0x58100
/-- 16_mortar_redundancy: R724. -/
abbrev MR_STATUS : Nat := 0x50010
/-- 16_mortar_redundancy: R724. -/
abbrev MR_CFG : Nat := 0x58010
/-- 16_mortar_redundancy: R725. -/
abbrev MR_CTL : Nat := 0x58024
/-- 16_mortar_redundancy: R725. -/
abbrev MR_PARTNER_CTL : Nat := 0x58028
/-- 16_mortar_redundancy: R726. -/
abbrev PW_FEED_STATUS : Nat := 0xF0010
/-- 19_pins_power_package: R830. -/
abbrev PW_VCORE : Nat := 0xF0014
/-- 19_pins_power_package: R830. -/
abbrev PW_UV_RESETS : Nat := 0xF001C
/-- 19_pins_power_package: R830. -/
abbrev PW_TEMP_MAX : Nat := 0xF0020
/-- 19_pins_power_package: R830. -/
abbrev PW_TEMP : Nat := 0xF0100
/-- 19_pins_power_package: R830. -/
abbrev PW_TEMP_WARN : Nat := 0xF8014
/-- 19_pins_power_package: R831. -/
abbrev PW_PACE_STATUS : Nat := 0xF0018
/-- 19_pins_power_package: R831. -/
abbrev PW_PACE_CTL : Nat := 0xF8010
/-- 17_safety_island: R770. -/
abbrev SF_BLOCK_HASH : Nat := 0xD1008
/-- 17_safety_island: R770. -/
abbrev SF_IN_DEMAND : Nat := 0xD1030
/-- 17_safety_island: R770. -/
abbrev SF_W_STATE : Nat := 0xD1040
/-- 17_safety_island: R770. -/
abbrev SF_ECC_CORR : Nat := 0xD1048
/-- 17_safety_island: R770. -/
abbrev SF_IN_DISC : Nat := 0xD1104
/-- 17_safety_island: R770. -/
abbrev SF_IN_DEMANDS : Nat := 0xD1108
/-- 17_safety_island: R770. -/
abbrev SF_OUT_DARK : Nat := 0xD1204
/-- 17_safety_island: R770. -/
abbrev SF_BRK_LAST_S : Nat := 0xD1304
/-- 17_safety_island: R770. -/
abbrev SF_BRK_DEV : Nat := 0xD1308
/-- 17_safety_island: R770. -/
abbrev SF_TP : Nat := 0xD1380
/-- 17_safety_island: R770. -/
abbrev SF_CONN : Nat := 0xD1400
/-- 17_safety_island: R770. -/
abbrev SF_CONN_SEQ : Nat := 0xD1404
/-- 17_safety_island: R770. -/
abbrev SF_FAULT : Nat := 0xD1800
/-- 17_safety_island: R771. -/
abbrev SF_STATUS : Nat := 0xD1000
/-- 17_safety_island: R772. -/
abbrev SF_LOCK : Nat := 0xD1004
/-- 17_safety_island: R772. -/
abbrev SF_RST : Nat := 0xD1044
/-- 17_safety_island: R773. -/
abbrev SF_IN : Nat := 0xD1100
/-- 17_safety_island: R773. -/
abbrev SF_OUT : Nat := 0xD1200
/-- 17_safety_island: R773. -/
abbrev SF_BRK : Nat := 0xD1300
/-- 19_pins_power_package: R829. -/
abbrev MM_DRAM_SIZE : Nat := 0xE0010
/-- 19_pins_power_package: R829. -/
abbrev MM_ECC_CORR : Nat := 0xE0014
/-- 19_pins_power_package: R829. -/
abbrev MM_ECC_UNCORR : Nat := 0xE0018
/-- 19_pins_power_package: R829. -/
abbrev MM_ECC_ADDR_LO : Nat := 0xE001C
/-- 19_pins_power_package: R829. -/
abbrev MM_ECC_ADDR_HI : Nat := 0xE0020
/-- 19_pins_power_package: R829. -/
abbrev MM_NVM0_MBIT : Nat := 0xE0024
/-- 19_pins_power_package: R829. -/
abbrev MM_NVM1_MBIT : Nat := 0xE0028
/-- 19_pins_power_package: R829. -/
abbrev MM_MRAM_KBIT : Nat := 0xE002C
/-- 19_pins_power_package: R829. -/
abbrev MM_TARN_COLL : Nat := 0xE0100

end A

/-- Registers of hdr, part 0: BLK_ID, BLK_STATUS, BLK_EVENT, BLK_UNITS, BLK_XCTL, BLK_XCOUNT. -/
def regs_hdr_0 : List RegDef :=
  [⟨0x0, 1, 0x0, 1, 0x0, 1, [⟨31, 24, .ro, 0, false, .any⟩, ⟨15, 8, .ro, 0, false, .any⟩, ⟨7, 0, .ro, 0, false, .any⟩]⟩,
   ⟨0x4, 1, 0x0, 1, 0x0, 1, [⟨31, 16, .ro, 0, false, .any⟩, ⟨8, 8, .w1c, 0, false, .any⟩, ⟨3, 0, .ro, 1, false, .any⟩]⟩,
   ⟨0x8, 1, 0x0, 1, 0x0, 1, [⟨31, 16, .rc, 0, false, .any⟩, ⟨15, 0, .ro, 0, true, .any⟩]⟩,
   ⟨0xC, 1, 0x0, 1, 0x0, 1, [⟨31, 16, .ro, 0, false, .any⟩, ⟨15, 0, .ro, 0, false, .any⟩]⟩,
   ⟨0x8000, 1, 0x0, 1, 0x0, 1, [⟨0, 0, .wo, 0, false, .any⟩]⟩,
   ⟨0x8004, 1, 0x0, 1, 0x0, 1, [⟨15, 0, .ro, 0, false, .any⟩]⟩]

/-- Registers of hdr. -/
def regs_hdr : List RegDef := regs_hdr_0

/-- Registers of blk2, part 0: PB_TIME_SEC_HI, PB_TIME_SEC_LO, PB_TIME_NS, PB_TIME_FRAC, PB_OFFSET, PB_HOLD_AGE, PB_SLEW_REMAIN, PB_STEP_LIMIT, PB_SLEW_RATE, PB_SET_SEC_HI, PB_SET_SEC_LO, PB_SET_NS, PB_FREQ, PB_PORT_DELAY, PB_TIN_COUNT, PB_TIN_LOST. -/
def regs_blk2_0 : List RegDef :=
  [⟨0x10, 1, 0x0, 1, 0x0, 1, [⟨31, 0, .ro, 0, false, .any⟩]⟩,
   ⟨0x14, 1, 0x0, 1, 0x0, 1, [⟨31, 0, .ro, 0, false, .any⟩]⟩,
   ⟨0x18, 1, 0x0, 1, 0x0, 1, [⟨31, 0, .ro, 0, false, .any⟩]⟩,
   ⟨0x1C, 1, 0x0, 1, 0x0, 1, [⟨31, 0, .ro, 0, false, .any⟩]⟩,
   ⟨0x28, 1, 0x0, 1, 0x0, 1, [⟨31, 0, .ro, 0, false, .any⟩]⟩,
   ⟨0x2C, 1, 0x0, 1, 0x0, 1, [⟨31, 0, .ro, 0, true, .any⟩]⟩,
   ⟨0x30, 1, 0x0, 1, 0x0, 1, [⟨31, 0, .ro, 0, true, .any⟩]⟩,
   ⟨0x38, 1, 0x0, 1, 0x0, 1, [⟨31, 0, .rwo, 0xf4240, false, (.nat 1000 1000000000)⟩]⟩,
   ⟨0x3C, 1, 0x0, 1, 0x0, 1, [⟨31, 0, .rwo, 0x186a0, false, (.nat 1000 500000)⟩]⟩,
   ⟨0x40, 1, 0x0, 1, 0x0, 1, [⟨31, 0, .wo, 0, false, .any⟩]⟩,
   ⟨0x44, 1, 0x0, 1, 0x0, 1, [⟨31, 0, .wo, 0, false, .any⟩]⟩,
   ⟨0x48, 1, 0x0, 1, 0x0, 1, [⟨31, 0, .wo, 0, false, (.nat 0 999999999)⟩]⟩,
   ⟨0x4C, 1, 0x0, 1, 0x0, 1, [⟨31, 0, .ro, 0, false, .any⟩]⟩,
   ⟨0x108, 1, 0x10, 12, 0x0, 1, [⟨31, 0, .ro, 0, false, .any⟩]⟩,
   ⟨0x204, 1, 0x10, 32, 0x0, 1, [⟨31, 0, .ro, 0, false, .any⟩]⟩,
   ⟨0x208, 1, 0x10, 32, 0x0, 1, [⟨31, 0, .rc, 0, false, .any⟩]⟩]

/-- Registers of blk2, part 1: PB_TIN_STAMP, PB_TOUT_START_SEC, PB_TOUT_START_NS, PB_TOUT_WIDTH_NS, PB_TOUT_PERIOD_NS, PB_HOLD_AVG, PB_FREQ_CHG_LIM, PB_REMEAS, PB_FREQ_TRIM, PB_PORT_ASYM, PB_PORT_PTHR, PB_TIN_DELAY, PB_TICK, PB_SYNC_STATUS, PB_TIME_CTL, PB_PRIO. -/
def regs_blk2_1 : List RegDef :=
  [⟨0x400, 4, 0x10, 32, 0x0, 1, [⟨31, 0, .ro, 0, false, .any⟩]⟩,
   ⟨0x608, 1, 0x20, 16, 0x0, 1, [⟨31, 0, .rwo, 0, true, .any⟩]⟩,
   ⟨0x60C, 1, 0x20, 16, 0x0, 1, [⟨31, 0, .rwo, 0, true, (.nat 0 999999999)⟩]⟩,
   ⟨0x610, 1, 0x20, 16, 0x0, 1, [⟨31, 0, .rwo, 0, true, .any⟩]⟩,
   ⟨0x614, 1, 0x20, 16, 0x0, 1, [⟨31, 0, .rwo, 0, true, .any⟩]⟩,
   ⟨0x8010, 1, 0x0, 1, 0x0, 1, [⟨31, 0, .rwo, 0x10, false, (.nat 1 256)⟩]⟩,
   ⟨0x8014, 1, 0x0, 1, 0x0, 1, [⟨31, 0, .rwo, 0x32, false, (.nat 1 10000)⟩]⟩,
   ⟨0x8018, 1, 0x0, 1, 0x0, 1, [⟨31, 0, .rwo, 8, false, (.nat 4 64)⟩]⟩,
   ⟨0x8020, 1, 0x0, 1, 0x0, 1, [⟨31, 0, .rwo, 0, false, .any⟩]⟩,
   ⟨0x8100, 1, 0x10, 12, 0x0, 1, [⟨31, 0, .rwo, 0, false, .any⟩]⟩,
   ⟨0x8108, 1, 0x10, 12, 0x0, 1, [⟨31, 0, .rwo, 0xc8, false, (.nat 10 100000)⟩]⟩,
   ⟨0x8200, 1, 0x4, 32, 0x0, 1, [⟨31, 0, .rw, 0, false, .any⟩]⟩,
   ⟨0x20, 1, 0x0, 1, 0x0, 1, [⟨31, 16, .ro, 0, false, .any⟩, ⟨15, 0, .ro, 0, false, .any⟩]⟩,
   ⟨0x24, 1, 0x0, 1, 0x0, 1, [⟨31, 28, .ro, 0, false, .any⟩, ⟨11, 11, .ro, 0, false, .any⟩, ⟨10, 10, .ro, 0, false, .any⟩, ⟨9, 9, .ro, 0, false, .any⟩, ⟨8, 8, .ro, 0, false, .any⟩, ⟨3, 0, .ro, 0, false, .any⟩]⟩,
   ⟨0x34, 1, 0x0, 1, 0x0, 1, [⟨30, 24, .rwo, 0x18, false, .any⟩, ⟨17, 16, .rwo, 0, false, (.nat 0 2)⟩, ⟨0, 0, .rwo, 1, false, .any⟩]⟩,
   ⟨0x801C, 1, 0x0, 1, 0x0, 1, [⟨31, 24, .rwo, 0x80, false, .any⟩, ⟨23, 16, .rwo, 0x80, false, .any⟩, ⟨15, 8, .rwo, 0xf8, false, .any⟩, ⟨7, 0, .rwo, 0xfe, false, .any⟩]⟩]

/-- Registers of blk2, part 2: PB_PORT_CTL, PB_PORT_STATUS, PB_PORT_LAT, PB_PORT_INTV, PB_TIN_CTL, PB_TOUT_CTL, PB_TOUT_CMD, PB_TOUT_SUB, PB_TOUT_COUNT. -/
def regs_blk2_2 : List RegDef :=
  [⟨0x100, 1, 0x10, 12, 0x0, 1, [⟨5, 5, .rwo, 0, false, .any⟩, ⟨4, 4, .rwo, 0, false, .any⟩, ⟨1, 0, .rwo, 0, false, .any⟩]⟩,
   ⟨0x104, 1, 0x10, 12, 0x0, 1, [⟨31, 16, .ro, 0, true, .any⟩, ⟨8, 8, .ro, 0, true, .any⟩, ⟨3, 0, .ro, 0, false, .any⟩]⟩,
   ⟨0x8104, 1, 0x10, 12, 0x0, 1, [⟨31, 16, .rwo, 0, false, .any⟩, ⟨15, 0, .rwo, 0, false, .any⟩]⟩,
   ⟨0x810C, 1, 0x10, 12, 0x0, 1, [⟨31, 24, .rwo, 0, false, (.sgn (-7) 1)⟩, ⟨23, 16, .rwo, 0, false, (.sgn (-7) 5)⟩, ⟨15, 8, .rwo, 1, false, (.sgn (-3) 4)⟩, ⟨7, 0, .rwo, 3, false, (.nat 2 10)⟩]⟩,
   ⟨0x200, 1, 0x10, 32, 0x0, 1, [⟨16, 16, .w1c, 0, false, .any⟩, ⟨14, 8, .ro, 0, false, .any⟩, ⟨1, 0, .rw, 0, false, .any⟩]⟩,
   ⟨0x600, 1, 0x20, 16, 0x0, 1, [⟨19, 16, .ro, 0, true, .any⟩, ⟨8, 8, .rwo, 0, true, .any⟩, ⟨0, 0, .rwo, 0, true, .any⟩]⟩,
   ⟨0x604, 1, 0x20, 16, 0x0, 1, [⟨1, 1, .wo, 0, false, .any⟩, ⟨0, 0, .wo, 0, false, .any⟩]⟩,
   ⟨0x618, 1, 0x20, 16, 0x0, 1, [⟨11, 8, .rwo, 0, true, .any⟩, ⟨7, 4, .rwo, 0, true, .any⟩, ⟨3, 0, .rwo, 0, true, .any⟩]⟩,
   ⟨0x61C, 1, 0x20, 16, 0x0, 1, [⟨31, 16, .rc, 0, true, .any⟩, ⟨15, 0, .rwo, 0, true, .any⟩]⟩]

/-- Registers of blk2. -/
def regs_blk2 : List RegDef := regs_blk2_0 ++ regs_blk2_1 ++ regs_blk2_2

/-- Registers of blk0, part 0: DEV_MODE, DEV_START_STATUS, DEV_BOOT_COUNT, DEV_RESTART_CAUSE, DEV_START_CTL, DEV_FLY_STATUS, DEV_FLY_CTL, DEV_SVC_TIMEOUT. -/
def regs_blk0_0 : List RegDef :=
  [⟨0x10, 1, 0x0, 1, 0x0, 1, [⟨31, 24, .ro, 0, false, .any⟩, ⟨19, 16, .ro, 0, false, .any⟩, ⟨9, 9, .ro, 0, false, .any⟩, ⟨8, 8, .ro, 0, false, .any⟩, ⟨2, 0, .ro, 0, false, .any⟩]⟩,
   ⟨0x14, 1, 0x0, 1, 0x0, 1, [⟨31, 24, .ro, 0, false, .any⟩, ⟨23, 16, .ro, 0, false, .any⟩, ⟨15, 0, .ro, 0, false, .any⟩]⟩,
   ⟨0x18, 1, 0x0, 1, 0x0, 1, [⟨31, 0, .ro, 0, false, .any⟩]⟩,
   ⟨0x1C, 1, 0x0, 1, 0x0, 1, [⟨3, 0, .ro, 0, false, .any⟩]⟩,
   ⟨0x20, 1, 0x0, 1, 0x0, 1, [⟨2, 2, .ro, 0, false, .any⟩, ⟨1, 1, .ro, 0, false, .any⟩, ⟨0, 0, .ro, 0, false, .any⟩]⟩,
   ⟨0x24, 1, 0x0, 1, 0x0, 1, [⟨24, 24, .ro, 0, false, .any⟩, ⟨23, 16, .ro, 0, false, .any⟩, ⟨15, 8, .ro, 0, false, .any⟩, ⟨7, 0, .ro, 0, false, .any⟩]⟩,
   ⟨0x8010, 1, 0x0, 1, 0x0, 1, [⟨31, 16, .rw, 0x1388, false, (.nat 100 60000)⟩, ⟨15, 8, .rw, 8, false, (.nat 1 255)⟩]⟩,
   ⟨0x8014, 1, 0x0, 1, 0x0, 1, [⟨31, 0, .rw, 0x2710, false, (.nat 1000 600000)⟩]⟩]

/-- Registers of blk0. -/
def regs_blk0 : List RegDef := regs_blk0_0

/-- Registers of blk1, part 0: HA_IPV4_ADDR, HA_IPV4_MASK, HA_IPV4_GW, HA_IPV6_ADDR, HA_IPV6_PLEN, HA_MAC_HI, HA_MAC_LO, HA_LOG_HEAD, HA_RX_DROP, HA_AUTH_FAIL, HA_HS_REFUSED, HA_REASM_FAIL, HA_SESS_FP, HA_SESS_REQS, HA_SESS_LOST, HA_SESS_IDLE. -/
def regs_blk1_0 : List RegDef :=
  [⟨0x104, 1, 0x0, 1, 0x0, 1, [⟨31, 0, .ro, 0, false, .any⟩]⟩,
   ⟨0x108, 1, 0x0, 1, 0x0, 1, [⟨31, 0, .ro, 0, false, .any⟩]⟩,
   ⟨0x10C, 1, 0x0, 1, 0x0, 1, [⟨31, 0, .ro, 0, false, .any⟩]⟩,
   ⟨0x110, 4, 0x0, 1, 0x0, 1, [⟨31, 0, .ro, 0, false, .any⟩]⟩,
   ⟨0x120, 1, 0x0, 1, 0x0, 1, [⟨31, 0, .ro, 0, false, .any⟩]⟩,
   ⟨0x124, 1, 0x0, 1, 0x0, 1, [⟨31, 0, .ro, 0, false, .any⟩]⟩,
   ⟨0x128, 1, 0x0, 1, 0x0, 1, [⟨31, 0, .ro, 0, false, .any⟩]⟩,
   ⟨0x130, 1, 0x0, 1, 0x0, 1, [⟨31, 0, .ro, 0xffffffff, false, .any⟩]⟩,
   ⟨0x140, 1, 0x0, 1, 0x0, 1, [⟨31, 0, .rc, 0, false, .any⟩]⟩,
   ⟨0x144, 1, 0x0, 1, 0x0, 1, [⟨31, 0, .rc, 0, false, .any⟩]⟩,
   ⟨0x148, 1, 0x0, 1, 0x0, 1, [⟨31, 0, .rc, 0, false, .any⟩]⟩,
   ⟨0x14C, 1, 0x0, 1, 0x0, 1, [⟨31, 0, .rc, 0, false, .any⟩]⟩,
   ⟨0x204, 1, 0x20, 16, 0x0, 1, [⟨31, 0, .ro, 0, false, .any⟩]⟩,
   ⟨0x208, 1, 0x20, 16, 0x0, 1, [⟨31, 0, .ro, 0, false, .any⟩]⟩,
   ⟨0x20C, 1, 0x20, 16, 0x0, 1, [⟨31, 0, .rc, 0, false, .any⟩]⟩,
   ⟨0x210, 1, 0x20, 16, 0x0, 1, [⟨31, 0, .ro, 0, false, .any⟩]⟩]

/-- Registers of blk1, part 1: HA_LOG, HA_SESS_TIMEOUT, HA_HOSTKEY_FP, HA_NET_CTL, HA_LINK, HA_SESS_STATUS, HA_RATE_CTL, HA_HOSTKEY_ROLE, BT_SEQ, BT_MIN_SEC, BT_FW_SEC, BT_FW_MANIFEST, BT_CFG_HASH, BT_NVM, UP_CONT_LO, UP_CONT_HI. -/
def regs_blk1_1 : List RegDef :=
  [⟨0x4000, 8, 0x20, 512, 0x0, 1, [⟨31, 0, .ro, 0, false, .any⟩]⟩,
   ⟨0x8100, 1, 0x0, 1, 0x0, 1, [⟨31, 0, .rw, 0x1e, false, (.nat 5 600)⟩]⟩,
   ⟨0x8200, 8, 0x40, 32, 0x0, 1, [⟨31, 0, .ro, 0, false, .any⟩]⟩,
   ⟨0x100, 1, 0x0, 1, 0x0, 1, [⟨31, 31, .ro, 0, false, .any⟩, ⟨30, 30, .ro, 0, false, .any⟩, ⟨29, 29, .ro, 0, false, .any⟩, ⟨27, 16, .ro, 0, false, .any⟩, ⟨15, 0, .ro, 0x4b4e, false, .any⟩]⟩,
   ⟨0x134, 1, 0x0, 1, 0x0, 1, [⟨2, 2, .ro, 0, false, .any⟩, ⟨1, 0, .ro, 0, false, .any⟩]⟩,
   ⟨0x200, 1, 0x20, 16, 0x0, 1, [⟨23, 16, .ro, 0, false, .any⟩, ⟨11, 11, .ro, 0, false, .any⟩, ⟨10, 10, .ro, 0, false, .any⟩, ⟨9, 8, .ro, 0, false, .any⟩, ⟨1, 0, .ro, 0, false, .any⟩]⟩,
   ⟨0x8104, 1, 0x0, 1, 0x0, 1, [⟨23, 16, .rw, 4, false, (.nat 1 16)⟩, ⟨15, 8, .rw, 0x14, false, (.nat 1 50)⟩, ⟨7, 0, .rw, 1, false, (.zeroOr 1 60)⟩]⟩,
   ⟨0x8220, 1, 0x40, 32, 0x0, 1, [⟨1, 0, .ro, 0, false, .any⟩]⟩,
   ⟨0x14, 1, 0x0, 1, 0x0, 1, [⟨31, 0, .ro, 0, false, .any⟩]⟩,
   ⟨0x18, 1, 0x0, 1, 0x0, 1, [⟨31, 0, .ro, 0, false, .any⟩]⟩,
   ⟨0x1C, 1, 0x0, 1, 0x0, 1, [⟨31, 0, .ro, 0, false, .any⟩]⟩,
   ⟨0x20, 8, 0x0, 1, 0x0, 1, [⟨31, 0, .ro, 0, false, .any⟩]⟩,
   ⟨0x40, 8, 0x0, 1, 0x0, 1, [⟨31, 0, .ro, 0, false, .any⟩]⟩,
   ⟨0x60, 1, 0x0, 1, 0x0, 1, [⟨31, 0, .ro, 0, false, .any⟩]⟩,
   ⟨0x84, 1, 0x0, 1, 0x0, 1, [⟨31, 0, .ro, 0, false, .any⟩]⟩,
   ⟨0x88, 1, 0x0, 1, 0x0, 1, [⟨31, 0, .ro, 0, false, .any⟩]⟩]

/-- Registers of blk1, part 2: UP_CHUNKS, UP_RELAY_FWD, UP_RELAY_ABANDON, UP_REFUSED, ID_FP, ID_DBG_NONCE, ID_SERIAL_LO, ID_SERIAL_HI, ID_OWNER_FP, ID_CERT, BT_STATUS, UP_STATUS, ID_DBG_STATUS, ID_DBG_CTL, UP_RELAY_CTL. -/
def regs_blk1_2 : List RegDef :=
  [⟨0x8C, 1, 0x0, 1, 0x0, 1, [⟨31, 0, .ro, 0, false, .any⟩]⟩,
   ⟨0x90, 1, 0x0, 1, 0x0, 1, [⟨31, 0, .rc, 0, false, .any⟩]⟩,
   ⟨0x94, 1, 0x0, 1, 0x0, 1, [⟨31, 0, .rc, 0, false, .any⟩]⟩,
   ⟨0x98, 1, 0x0, 1, 0x0, 1, [⟨31, 0, .rc, 0, false, .any⟩]⟩,
   ⟨0xC0, 8, 0x0, 1, 0x0, 1, [⟨31, 0, .ro, 0, false, .any⟩]⟩,
   ⟨0xE0, 8, 0x0, 1, 0x0, 1, [⟨31, 0, .ro, 0, false, .any⟩]⟩,
   ⟨0x408, 1, 0x0, 1, 0x0, 1, [⟨31, 0, .ro, 0, false, .any⟩]⟩,
   ⟨0x40C, 1, 0x0, 1, 0x0, 1, [⟨31, 0, .ro, 0, false, .any⟩]⟩,
   ⟨0x420, 8, 0x20, 4, 0x0, 1, [⟨31, 0, .ro, 0, false, .any⟩]⟩,
   ⟨0x800, 1, 0x4, 1330, 0x0, 1, [⟨31, 0, .ro, 0, false, .any⟩]⟩,
   ⟨0x10, 1, 0x0, 1, 0x0, 1, [⟨31, 31, .ro, 0, false, .any⟩, ⟨30, 28, .ro, 0, false, .any⟩, ⟨27, 27, .ro, 0, false, .any⟩, ⟨26, 26, .ro, 0, false, .any⟩, ⟨25, 25, .ro, 0, false, .any⟩, ⟨24, 24, .ro, 0, false, .any⟩, ⟨23, 23, .ro, 0, false, .any⟩, ⟨22, 22, .ro, 0, false, .any⟩]⟩,
   ⟨0x80, 1, 0x0, 1, 0x0, 1, [⟨31, 28, .ro, 0, false, .any⟩, ⟨27, 24, .ro, 0, false, .any⟩, ⟨23, 20, .ro, 0, false, .any⟩]⟩,
   ⟨0x400, 1, 0x0, 1, 0x0, 1, [⟨31, 30, .ro, 0, false, .any⟩, ⟨15, 0, .ro, 0, false, .any⟩]⟩,
   ⟨0x404, 1, 0x0, 1, 0x0, 1, [⟨0, 0, .wo, 0, false, .any⟩]⟩,
   ⟨0x8010, 1, 0x0, 1, 0x0, 1, [⟨9, 8, .ro, 1, false, .any⟩, ⟨0, 0, .rw, 1, false, .any⟩]⟩]

/-- Registers of blk1. -/
def regs_blk1 : List RegDef := regs_blk1_0 ++ regs_blk1_1 ++ regs_blk1_2

/-- Registers of blk6, part 0: FB_LATCH_END, FB_COMMIT_DEADLINE, FB_COMMIT_END, FB_TILE_LATE, FB_TILE_OPS, FB_USE_WARN, FB_SCHED, FB_PACE, FB_TILE_STATUS, FB_TILE_USE. -/
def regs_blk6_0 : List RegDef :=
  [⟨0x14, 1, 0x0, 1, 0x0, 1, [⟨31, 0, .ro, 0, false, .any⟩]⟩,
   ⟨0x18, 1, 0x0, 1, 0x0, 1, [⟨31, 0, .ro, 0, false, .any⟩]⟩,
   ⟨0x1C, 1, 0x0, 1, 0x0, 1, [⟨31, 0, .ro, 0, false, .any⟩]⟩,
   ⟨0x108, 1, 0x20, 16, 0x0, 1, [⟨31, 0, .rc, 0, false, .any⟩]⟩,
   ⟨0x10C, 1, 0x20, 16, 0x0, 1, [⟨31, 0, .ro, 0, false, .any⟩]⟩,
   ⟨0x8010, 1, 0x0, 1, 0x0, 1, [⟨31, 0, .rw, 0x384, false, (.nat 500 1000)⟩]⟩,
   ⟨0x10, 1, 0x0, 1, 0x0, 1, [⟨31, 16, .ro, 0, false, .any⟩, ⟨3, 0, .ro, 0, false, .any⟩]⟩,
   ⟨0x20, 1, 0x0, 1, 0x0, 1, [⟨31, 31, .w1c, 0, false, .any⟩, ⟨15, 8, .rc, 0, false, .any⟩, ⟨7, 0, .ro, 0, false, .any⟩]⟩,
   ⟨0x100, 1, 0x20, 16, 0x0, 1, [⟨31, 31, .ro, 0, false, .any⟩, ⟨19, 16, .ro, 0, false, .any⟩, ⟨8, 0, .ro, 0, false, .any⟩]⟩,
   ⟨0x104, 1, 0x20, 16, 0x0, 1, [⟨15, 0, .rc, 0, false, .any⟩]⟩]

/-- Registers of blk6. -/
def regs_blk6 : List RegDef := regs_blk6_0

/-- Registers of blk7, part 0: WQ_REL_SEC, WQ_REL_NS, WQ_ITEM_REL_SEC, WQ_ITEM_REL_NS, WQ_ITEM_LAT_LAST, WQ_ITEM_LAT_MAX, WQ_REFUSED, WQ_LATE_REL, WQ_COMMIT_LOST, WQ_DUP, WQ_BAD_OP, WQ_PRIO_RUNS, WQ_PRIO_CANCEL, WQ_PRIO_LAST_ITEM, WQ_AFF_WAIT, WQ_AGE_WARN. -/
def regs_blk7_0 : List RegDef :=
  [⟨0x18, 1, 0x0, 1, 0x0, 1, [⟨31, 0, .wo, 0, false, .any⟩]⟩,
   ⟨0x1C, 1, 0x0, 1, 0x0, 1, [⟨31, 0, .wo, 0, false, .any⟩]⟩,
   ⟨0x28, 1, 0x0, 1, 0x0, 1, [⟨31, 0, .ro, 0, false, .any⟩]⟩,
   ⟨0x2C, 1, 0x0, 1, 0x0, 1, [⟨31, 0, .ro, 0, false, .any⟩]⟩,
   ⟨0x30, 1, 0x0, 1, 0x0, 1, [⟨31, 0, .ro, 0, false, .any⟩]⟩,
   ⟨0x34, 1, 0x0, 1, 0x0, 1, [⟨31, 0, .rc, 0, false, .any⟩]⟩,
   ⟨0x40, 1, 0x0, 1, 0x0, 1, [⟨31, 0, .rc, 0, false, .any⟩]⟩,
   ⟨0x44, 1, 0x0, 1, 0x0, 1, [⟨31, 0, .rc, 0, false, .any⟩]⟩,
   ⟨0x48, 1, 0x0, 1, 0x0, 1, [⟨31, 0, .rc, 0, false, .any⟩]⟩,
   ⟨0x4C, 1, 0x0, 1, 0x0, 1, [⟨31, 0, .rc, 0, false, .any⟩]⟩,
   ⟨0x50, 1, 0x0, 1, 0x0, 1, [⟨31, 0, .rc, 0, false, .any⟩]⟩,
   ⟨0x104, 1, 0x10, 8, 0x0, 1, [⟨31, 0, .ro, 0, false, .any⟩]⟩,
   ⟨0x108, 1, 0x10, 8, 0x0, 1, [⟨31, 0, .rc, 0, false, .any⟩]⟩,
   ⟨0x10C, 1, 0x10, 8, 0x0, 1, [⟨31, 0, .ro, 0, false, .any⟩]⟩,
   ⟨0x8010, 1, 0x0, 1, 0x0, 1, [⟨31, 0, .rw, 0x7d0, false, (.nat 0 20000)⟩]⟩,
   ⟨0x8014, 1, 0x0, 1, 0x0, 1, [⟨31, 0, .rw, 0x2710, false, (.zeroOr 100 10000000)⟩]⟩]

/-- Registers of blk7, part 1: WQ_PRIO_LIMIT, WQ_STATUS, WQ_CMD, WQ_SEL, WQ_ITEM_STATE, WQ_PRIO_STATUS. -/
def regs_blk7_1 : List RegDef :=
  [⟨0x8100, 1, 0x4, 8, 0x0, 1, [⟨31, 0, .rw, 0x1000, false, (.nat 1 4096)⟩]⟩,
   ⟨0x10, 1, 0x0, 1, 0x0, 1, [⟨31, 16, .ro, 0, false, .any⟩, ⟨12, 0, .ro, 0, false, .any⟩]⟩,
   ⟨0x14, 1, 0x0, 1, 0x0, 1, [⟨31, 30, .wo, 0, false, .any⟩, ⟨15, 0, .wo, 0, false, .any⟩]⟩,
   ⟨0x20, 1, 0x0, 1, 0x0, 1, [⟨15, 0, .rw, 0, false, .any⟩]⟩,
   ⟨0x24, 1, 0x0, 1, 0x0, 1, [⟨31, 30, .ro, 0, false, .any⟩, ⟨29, 29, .ro, 0, false, .any⟩, ⟨28, 28, .ro, 0, false, .any⟩, ⟨27, 27, .ro, 0, false, .any⟩, ⟨26, 24, .ro, 0, false, .any⟩, ⟨23, 20, .ro, 0, false, .any⟩, ⟨19, 19, .ro, 0, false, .any⟩, ⟨18, 18, .ro, 0, false, .any⟩, ⟨15, 0, .ro, 0, false, .any⟩]⟩,
   ⟨0x100, 1, 0x10, 8, 0x0, 1, [⟨31, 16, .ro, 0, false, .any⟩, ⟨12, 0, .ro, 0, false, .any⟩]⟩]

/-- Registers of blk7. -/
def regs_blk7 : List RegDef := regs_blk7_0 ++ regs_blk7_1

/-- Registers of blk8, part 0: PG_CYCLE_LO, PG_CYCLE_HI, PG_OVR_TOTAL, PG_SKIP_TOTAL, PG_RET_SIZE, PG_RET_RATE, PG_PFW_BYTES, PG_RET_PENDING, PG_RET_RECORDS, PG_RET_LAST_SEC, PG_RET_LAST_NS, PG_RET_LAG_MAX, PG_FORCE_COUNT, PG_FORCE_TAG, PG_FORCE_VAL_LO, PG_FORCE_VAL_HI. -/
def regs_blk8_0 : List RegDef :=
  [⟨0x14, 1, 0x0, 1, 0x0, 1, [⟨31, 0, .ro, 0, false, .any⟩]⟩,
   ⟨0x18, 1, 0x0, 1, 0x0, 1, [⟨31, 0, .ro, 0, false, .any⟩]⟩,
   ⟨0x1C, 1, 0x0, 1, 0x0, 1, [⟨31, 0, .rc, 0, false, .any⟩]⟩,
   ⟨0x20, 1, 0x0, 1, 0x0, 1, [⟨31, 0, .rc, 0, false, .any⟩]⟩,
   ⟨0x44, 1, 0x0, 1, 0x0, 1, [⟨31, 0, .ro, 0, false, .any⟩]⟩,
   ⟨0x48, 1, 0x0, 1, 0x0, 1, [⟨31, 0, .ro, 0, false, .any⟩]⟩,
   ⟨0x4C, 1, 0x0, 1, 0x0, 1, [⟨31, 0, .ro, 0, false, .any⟩]⟩,
   ⟨0x50, 1, 0x0, 1, 0x0, 1, [⟨31, 0, .ro, 0, false, .any⟩]⟩,
   ⟨0x54, 1, 0x0, 1, 0x0, 1, [⟨31, 0, .ro, 0, false, .any⟩]⟩,
   ⟨0x58, 1, 0x0, 1, 0x0, 1, [⟨31, 0, .ro, 0, false, .any⟩]⟩,
   ⟨0x5C, 1, 0x0, 1, 0x0, 1, [⟨31, 0, .ro, 0, false, .any⟩]⟩,
   ⟨0x60, 1, 0x0, 1, 0x0, 1, [⟨31, 0, .rc, 0, false, .any⟩]⟩,
   ⟨0x80, 1, 0x0, 1, 0x0, 1, [⟨31, 0, .ro, 0, false, .any⟩]⟩,
   ⟨0x84, 1, 0x0, 1, 0x0, 1, [⟨31, 0, .rws, 0, false, (.nat 0 0x1FFFFFF)⟩]⟩,
   ⟨0x88, 1, 0x0, 1, 0x0, 1, [⟨31, 0, .rws, 0, false, .any⟩]⟩,
   ⟨0x8C, 1, 0x0, 1, 0x0, 1, [⟨31, 0, .rws, 0, false, .any⟩]⟩]

/-- Registers of blk8, part 1: PG_FORCE_DROP_TAG, PG_OLC_XFER_NS, PG_OLC_LAST_SEC, PG_OLC_LAST_NS, PG_OLC_CARRIED, PG_OLC_DROPPED, PG_FORCE_TAGW, PG_FORCE_VLO, PG_FORCE_VHI, PG_OLC_SWAP_SEC, PG_OLC_SWAP_NS, PG_STATUS, PG_RET_STATUS, PG_FORCE_CMD, PG_OLC_STATUS, PG_OVR_CTL. -/
def regs_blk8_1 : List RegDef :=
  [⟨0x94, 1, 0x0, 1, 0x0, 1, [⟨31, 0, .ro, 0, false, .any⟩]⟩,
   ⟨0xC4, 1, 0x0, 1, 0x0, 1, [⟨31, 0, .ro, 0, false, .any⟩]⟩,
   ⟨0xCC, 1, 0x0, 1, 0x0, 1, [⟨31, 0, .ro, 0, false, .any⟩]⟩,
   ⟨0xD0, 1, 0x0, 1, 0x0, 1, [⟨31, 0, .ro, 0, false, .any⟩]⟩,
   ⟨0xD4, 1, 0x0, 1, 0x0, 1, [⟨31, 0, .ro, 0, false, .any⟩]⟩,
   ⟨0xD8, 1, 0x0, 1, 0x0, 1, [⟨31, 0, .ro, 0, false, .any⟩]⟩,
   ⟨0x4000, 1, 0x10, 1024, 0x0, 1, [⟨31, 0, .ro, 0, false, .any⟩]⟩,
   ⟨0x4004, 1, 0x10, 1024, 0x0, 1, [⟨31, 0, .ro, 0, false, .any⟩]⟩,
   ⟨0x4008, 1, 0x10, 1024, 0x0, 1, [⟨31, 0, .ro, 0, false, .any⟩]⟩,
   ⟨0x8020, 1, 0x0, 1, 0x0, 1, [⟨31, 0, .rw, 0, false, .any⟩]⟩,
   ⟨0x8024, 1, 0x0, 1, 0x0, 1, [⟨31, 0, .rw, 0, false, (.nat 0 999999999)⟩]⟩,
   ⟨0x10, 1, 0x0, 1, 0x0, 1, [⟨31, 24, .ro, 0, false, .any⟩, ⟨19, 16, .ro, 0, false, .any⟩, ⟨0, 0, .ro, 0, false, .any⟩]⟩,
   ⟨0x40, 1, 0x0, 1, 0x0, 1, [⟨31, 31, .ro, 0, false, .any⟩, ⟨30, 30, .ro, 0, false, .any⟩, ⟨29, 29, .ro, 0, false, .any⟩, ⟨28, 28, .ro, 0, false, .any⟩, ⟨27, 27, .ro, 0, false, .any⟩, ⟨15, 0, .ro, 0, false, .any⟩]⟩,
   ⟨0x90, 1, 0x0, 1, 0x0, 1, [⟨1, 0, .rws, 0, false, .any⟩]⟩,
   ⟨0xC0, 1, 0x0, 1, 0x0, 1, [⟨31, 28, .ro, 0, false, .any⟩, ⟨27, 24, .ro, 0, false, .any⟩, ⟨23, 23, .ro, 0, false, .any⟩]⟩,
   ⟨0x8010, 1, 0x0, 1, 0x0, 1, [⟨8, 8, .rw, 1, false, .any⟩, ⟨7, 0, .rw, 8, false, (.nat 1 255)⟩]⟩]

/-- Registers of blk8, part 2: PG_PFW_CTL, PG_OLC_CMD. -/
def regs_blk8_2 : List RegDef :=
  [⟨0x8014, 1, 0x0, 1, 0x0, 1, [⟨8, 8, .rw, 1, false, .any⟩, ⟨7, 0, .rw, 2, false, (.nat 1 50)⟩]⟩,
   ⟨0x8028, 1, 0x0, 1, 0x0, 1, [⟨1, 1, .wo, 0, false, .any⟩, ⟨0, 0, .wo, 0, false, .any⟩]⟩]

/-- Registers of blk8. -/
def regs_blk8 : List RegDef := regs_blk8_0 ++ regs_blk8_1 ++ regs_blk8_2

/-- Registers of loop, part 0: LP_YU, LP_RE, LP_FB_TAG, LP_OUT_TAG, LP_FB_OFFSET, LP_OUT_OFFSET, LP_INTEG_LO, LP_INTEG_HI, LP_LATE, LP_LIMITED, LP_CTL, LP_STATUS, LP_SP, LP_MAN_OUT, LP_KP, LP_KI. -/
def regs_loop_0 : List RegDef :=
  [⟨0x24, 1, 0x0, 1, 0x0, 1, [⟨31, 0, .ro, 0, false, .any⟩]⟩,
   ⟨0x28, 1, 0x0, 1, 0x0, 1, [⟨31, 0, .ro, 0, false, .any⟩]⟩,
   ⟨0x84, 1, 0x0, 1, 0x0, 1, [⟨31, 0, .ro, 0, false, .any⟩]⟩,
   ⟨0x88, 1, 0x0, 1, 0x0, 1, [⟨31, 0, .ro, 0, false, .any⟩]⟩,
   ⟨0x90, 1, 0x0, 1, 0x0, 1, [⟨31, 0, .rwo, 0, false, .any⟩]⟩,
   ⟨0x98, 1, 0x0, 1, 0x0, 1, [⟨31, 0, .rwo, 0, false, .any⟩]⟩,
   ⟨0xB8, 1, 0x0, 1, 0x0, 1, [⟨31, 0, .ro, 0, false, .any⟩]⟩,
   ⟨0xBC, 1, 0x0, 1, 0x0, 1, [⟨31, 0, .ro, 0, false, .any⟩]⟩,
   ⟨0xC0, 1, 0x0, 1, 0x0, 1, [⟨31, 0, .rc, 0, false, .any⟩]⟩,
   ⟨0xC4, 1, 0x0, 1, 0x0, 1, [⟨31, 0, .rc, 0, false, .any⟩]⟩,
   ⟨0x0, 1, 0x0, 1, 0x0, 1, [⟨1, 0, .wo, 0, false, .any⟩]⟩,
   ⟨0x4, 1, 0x0, 1, 0x0, 1, [⟨31, 24, .ro, 0, false, .any⟩, ⟨8, 8, .ro, 0, false, .any⟩, ⟨7, 7, .ro, 0, false, .any⟩, ⟨6, 6, .ro, 0, false, .any⟩, ⟨5, 5, .ro, 0, false, .any⟩, ⟨4, 4, .ro, 0, false, .any⟩, ⟨3, 3, .ro, 0, false, .any⟩, ⟨2, 2, .ro, 0, false, .any⟩, ⟨1, 0, .ro, 0, false, .any⟩]⟩,
   ⟨0x8, 1, 0x0, 1, 0x0, 1, [⟨15, 0, .rw, 0, false, .any⟩]⟩,
   ⟨0xC, 1, 0x0, 1, 0x0, 1, [⟨15, 0, .rw, 0, false, .any⟩]⟩,
   ⟨0x10, 1, 0x0, 1, 0x0, 1, [⟨19, 16, .rwo, 0, false, .any⟩, ⟨15, 0, .rwo, 0, false, .any⟩]⟩,
   ⟨0x14, 1, 0x0, 1, 0x0, 1, [⟨19, 16, .rwo, 0, false, .any⟩, ⟨15, 0, .rwo, 0, false, .any⟩]⟩]

/-- Registers of loop, part 1: LP_KD, LP_KFF, LP_OUT_LIM, LP_STALE_CTL, LP_STALE_CNT, LP_CFG, LP_FB_SCALE, LP_OUT_SCALE, LP_SP_RAMP, LP_RATE, LP_ILIM, LP_DFILT, LP_BIAS, LP_FROZEN, RC_PASS_LEARNED, RC_PASS_SKIPPED. -/
def regs_loop_1 : List RegDef :=
  [⟨0x18, 1, 0x0, 1, 0x0, 1, [⟨19, 16, .rwo, 0, false, .any⟩, ⟨15, 0, .rwo, 0, false, .any⟩]⟩,
   ⟨0xAC, 1, 0x0, 1, 0x0, 1, [⟨19, 16, .rwo, 0, false, .any⟩, ⟨15, 0, .rwo, 0, false, .any⟩]⟩,
   ⟨0x1C, 1, 0x0, 1, 0x0, 1, [⟨31, 16, .rwo, 0, false, .any⟩, ⟨15, 0, .rwo, 0, false, .any⟩]⟩,
   ⟨0x20, 1, 0x0, 1, 0x0, 1, [⟨31, 30, .rwo, 1, false, (.nat 0 2)⟩, ⟨23, 16, .rwo, 8, false, .any⟩, ⟨15, 0, .rwo, 0, false, .any⟩]⟩,
   ⟨0x2C, 1, 0x0, 1, 0x0, 1, [⟨31, 24, .rc, 0, false, .any⟩, ⟨23, 12, .rc, 0, false, .any⟩, ⟨11, 0, .rc, 0, false, .any⟩]⟩,
   ⟨0x80, 1, 0x0, 1, 0x0, 1, [⟨18, 16, .ro, 0, false, .any⟩, ⟨9, 8, .rwo, 0, false, (.nat 0 2)⟩, ⟨7, 7, .ro, 0, false, .any⟩, ⟨6, 5, .ro, 0, false, .any⟩, ⟨2, 0, .ro, 0, false, .any⟩]⟩,
   ⟨0x8C, 1, 0x0, 1, 0x0, 1, [⟨20, 16, .rwo, 0, false, .any⟩, ⟨15, 0, .rwo, 0, false, .any⟩]⟩,
   ⟨0x94, 1, 0x0, 1, 0x0, 1, [⟨20, 16, .rwo, 0, false, .any⟩, ⟨15, 0, .rwo, 0, false, .any⟩]⟩,
   ⟨0x9C, 1, 0x0, 1, 0x0, 1, [⟨15, 0, .rwo, 0, false, .any⟩]⟩,
   ⟨0xA0, 1, 0x0, 1, 0x0, 1, [⟨31, 16, .rwo, 0, false, .any⟩, ⟨15, 0, .rwo, 0, false, .any⟩]⟩,
   ⟨0xA4, 1, 0x0, 1, 0x0, 1, [⟨15, 0, .rwo, 0, false, (.nat 0 32767)⟩]⟩,
   ⟨0xA8, 1, 0x0, 1, 0x0, 1, [⟨16, 0, .rwo, 0, false, (.nat 1 32768)⟩]⟩,
   ⟨0xB0, 1, 0x0, 1, 0x0, 1, [⟨15, 0, .rwo, 0, false, .any⟩]⟩,
   ⟨0xB4, 1, 0x0, 1, 0x0, 1, [⟨7, 0, .rwo, 0, false, (.zeroOr 2 255)⟩]⟩,
   ⟨0x50, 1, 0x0, 1, 0x0, 1, [⟨31, 0, .rc, 0, false, .any⟩]⟩,
   ⟨0x54, 1, 0x0, 1, 0x0, 1, [⟨31, 0, .rc, 0, false, .any⟩]⟩]

/-- Registers of loop, part 2: RC_PASS_PAUSED, RC_DISCONT, INJ_F0, INJ_F1, INJ_DUR, INJ_ELAPSED, RC_SRC_TAG, RC_PERIOD_LO, RC_PERIOD_HI, RC_ORIGIN_LO, RC_ORIGIN_HI, RC_CTL, RC_STATUS, RC_LQ, RC_POS, INJ_CTL. -/
def regs_loop_2 : List RegDef :=
  [⟨0x58, 1, 0x0, 1, 0x0, 1, [⟨31, 0, .rc, 0, false, .any⟩]⟩,
   ⟨0x5C, 1, 0x0, 1, 0x0, 1, [⟨31, 0, .rc, 0, false, .any⟩]⟩,
   ⟨0x6C, 1, 0x0, 1, 0x0, 1, [⟨31, 0, .rws, 0, false, .any⟩]⟩,
   ⟨0x70, 1, 0x0, 1, 0x0, 1, [⟨31, 0, .rws, 0, false, .any⟩]⟩,
   ⟨0x74, 1, 0x0, 1, 0x0, 1, [⟨31, 0, .rws, 0, false, (.nat 1 0xFFFFFFFF)⟩]⟩,
   ⟨0x78, 1, 0x0, 1, 0x0, 1, [⟨31, 0, .ro, 0, false, .any⟩]⟩,
   ⟨0xE4, 1, 0x0, 1, 0x0, 1, [⟨31, 0, .rwo, 0, false, (.nat 0 0x1FFFFFF)⟩]⟩,
   ⟨0xE8, 1, 0x0, 1, 0x0, 1, [⟨31, 0, .rwo, 0, false, .any⟩]⟩,
   ⟨0xEC, 1, 0x0, 1, 0x0, 1, [⟨31, 0, .rwo, 0, false, .any⟩]⟩,
   ⟨0xF0, 1, 0x0, 1, 0x0, 1, [⟨31, 0, .rwo, 0, false, .any⟩]⟩,
   ⟨0xF4, 1, 0x0, 1, 0x0, 1, [⟨31, 0, .rwo, 0, false, .any⟩]⟩,
   ⟨0x40, 1, 0x0, 1, 0x0, 1, [⟨2, 2, .wo, 0, false, .any⟩, ⟨1, 1, .rw, 0, false, .any⟩, ⟨0, 0, .rw, 0, false, .any⟩]⟩,
   ⟨0x44, 1, 0x0, 1, 0x0, 1, [⟨31, 16, .ro, 0, false, .any⟩, ⟨8, 8, .ro, 0, false, .any⟩, ⟨7, 7, .ro, 0, false, .any⟩, ⟨6, 6, .ro, 0, false, .any⟩, ⟨5, 5, .ro, 0, false, .any⟩, ⟨4, 4, .ro, 0, false, .any⟩, ⟨3, 3, .ro, 0, false, .any⟩, ⟨2, 2, .ro, 0, false, .any⟩, ⟨1, 1, .ro, 0, false, .any⟩, ⟨0, 0, .ro, 0, false, .any⟩]⟩,
   ⟨0x48, 1, 0x0, 1, 0x0, 1, [⟨31, 16, .rw, 0x8000, false, (.nat 1 32768)⟩, ⟨15, 0, .rw, 0x1000, false, (.nat 0 32768)⟩]⟩,
   ⟨0x4C, 1, 0x0, 1, 0x0, 1, [⟨27, 16, .ro, 0, false, .any⟩, ⟨5, 0, .ro, 0, false, .any⟩]⟩,
   ⟨0x60, 1, 0x0, 1, 0x0, 1, [⟨1, 1, .rws, 0, false, .any⟩, ⟨0, 0, .rws, 0, false, .any⟩]⟩]

/-- Registers of loop, part 3: INJ_AMP, INJ_HOLD, INJ_STATUS, RC_CFG, RC_DLY_FADE, INJ_CFG. -/
def regs_loop_3 : List RegDef :=
  [⟨0x68, 1, 0x0, 1, 0x0, 1, [⟨15, 0, .rws, 0, false, .any⟩]⟩,
   ⟨0x7C, 1, 0x0, 1, 0x0, 1, [⟨8, 0, .rws, 1, false, (.nat 1 256)⟩]⟩,
   ⟨0x64, 1, 0x0, 1, 0x0, 1, [⟨27, 24, .ro, 0, false, .any⟩, ⟨23, 20, .ro, 0, false, .any⟩, ⟨19, 16, .ro, 0, false, .any⟩]⟩,
   ⟨0xE0, 1, 0x0, 1, 0x0, 1, [⟨31, 30, .rwo, 0, false, (.nat 0 2)⟩, ⟨29, 28, .rwo, 0, false, (.nat 0 2)⟩, ⟨27, 27, .rwo, 1, false, .any⟩, ⟨21, 16, .rwo, 0, false, .any⟩, ⟨12, 0, .rwo, 0, false, (.nat 16 4096)⟩]⟩,
   ⟨0xF8, 1, 0x0, 1, 0x0, 1, [⟨31, 16, .rwo, 0, false, .any⟩, ⟨15, 0, .rwo, 0, false, .any⟩]⟩,
   ⟨0xFC, 1, 0x0, 1, 0x0, 1, [⟨31, 30, .rws, 0, false, .any⟩, ⟨29, 28, .rws, 0, false, .any⟩, ⟨27, 24, .rws, 0, false, .any⟩, ⟨23, 21, .rws, 0, false, .any⟩, ⟨20, 20, .rws, 0, false, .any⟩, ⟨19, 14, .rws, 0, false, .any⟩]⟩]

/-- Registers of loop. -/
def regs_loop : List RegDef := regs_loop_0 ++ regs_loop_1 ++ regs_loop_2 ++ regs_loop_3

/-- Registers of blk9, part 0: LE_LOAD, LE_LATE_TOTAL, LE_STALE_NOW, LE_TBL_SEL, LE_TBL_NODE, LE_BIN_SEL, LE_INJ_ACTIVE, LE_BIN, LE_MS_SEL, LE_MS_LEN, LE_MS_DATA. -/
def regs_blk9_0 : List RegDef :=
  [⟨0x10, 1, 0x0, 1, 0x0, 1, [⟨31, 16, .rc, 0, false, .any⟩, ⟨15, 0, .ro, 0, false, .any⟩]⟩,
   ⟨0x14, 1, 0x0, 1, 0x0, 1, [⟨31, 0, .rc, 0, false, .any⟩]⟩,
   ⟨0x18, 1, 0x0, 1, 0x0, 1, [⟨31, 0, .ro, 0, false, .any⟩]⟩,
   ⟨0x8010, 1, 0x0, 1, 0x0, 1, [⟨31, 0, .rw, 0, false, (.nat 0 1023)⟩]⟩,
   ⟨0x8100, 1, 0x4, 33, 0x0, 1, [⟨31, 0, .rwo, 0, false, .any⟩]⟩,
   ⟨0x20, 1, 0x0, 1, 0x0, 1, [⟨31, 0, .rw, 0, false, (.nat 0 1023)⟩]⟩,
   ⟨0x24, 1, 0x0, 1, 0x0, 1, [⟨31, 0, .ro, 0, false, .any⟩]⟩,
   ⟨0x4000, 1, 0x4, 2048, 0x0, 1, [⟨31, 0, .rwo, 0, false, .any⟩]⟩,
   ⟨0x8014, 1, 0x0, 1, 0x0, 1, [⟨31, 0, .rw, 0, false, (.nat 0 7)⟩]⟩,
   ⟨0x8200, 1, 0x4, 8, 0x0, 1, [⟨31, 0, .rw, 0, false, (.nat 0 4096)⟩]⟩,
   ⟨0x9000, 1, 0x4, 2048, 0x0, 1, [⟨31, 0, .rw, 0, false, .any⟩]⟩]

/-- Registers of blk9. -/
def regs_blk9 : List RegDef := regs_blk9_0

/-- Registers of axis, part 0: AX_POS, AX_POS_FRAC, AX_VEL, AX_ACC, AX_ACT, AX_FERR, AX_TERR, AX_TGT, AX_TGT_FRAC, AX_VMAX, AX_ACC_LIM, AX_DEC, AX_STOP_DEC, AX_FE_WINDOW, AX_REFUSED, AX_JERK. -/
def regs_axis_0 : List RegDef :=
  [⟨0x8, 2, 0x0, 1, 0x0, 1, [⟨31, 0, .ro, 0, false, .any⟩]⟩,
   ⟨0x10, 1, 0x0, 1, 0x0, 1, [⟨31, 0, .ro, 0, false, .any⟩]⟩,
   ⟨0x14, 2, 0x0, 1, 0x0, 1, [⟨31, 0, .ro, 0, false, .any⟩]⟩,
   ⟨0x1C, 2, 0x0, 1, 0x0, 1, [⟨31, 0, .ro, 0, false, .any⟩]⟩,
   ⟨0x24, 2, 0x0, 1, 0x0, 1, [⟨31, 0, .ro, 0, false, .any⟩]⟩,
   ⟨0x2C, 1, 0x0, 1, 0x0, 1, [⟨31, 0, .ro, 0, false, .any⟩]⟩,
   ⟨0x30, 1, 0x0, 1, 0x0, 1, [⟨31, 0, .ro, 0, false, .any⟩]⟩,
   ⟨0x34, 2, 0x0, 1, 0x0, 1, [⟨31, 0, .ro, 0, false, .any⟩]⟩,
   ⟨0x3C, 1, 0x0, 1, 0x0, 1, [⟨31, 0, .ro, 0, false, .any⟩]⟩,
   ⟨0x40, 2, 0x0, 1, 0x0, 1, [⟨31, 0, .rw, 0, false, .any⟩]⟩,
   ⟨0x48, 2, 0x0, 1, 0x0, 1, [⟨31, 0, .rw, 0, false, .any⟩]⟩,
   ⟨0x50, 2, 0x0, 1, 0x0, 1, [⟨31, 0, .rw, 0, false, .any⟩]⟩,
   ⟨0x58, 2, 0x0, 1, 0x0, 1, [⟨31, 0, .rw, 0, false, .any⟩]⟩,
   ⟨0x60, 1, 0x0, 1, 0x0, 1, [⟨31, 0, .rw, 0, false, .any⟩]⟩,
   ⟨0x64, 1, 0x0, 1, 0x0, 1, [⟨31, 0, .rc, 0, false, .any⟩]⟩,
   ⟨0x104, 2, 0x0, 1, 0x0, 1, [⟨31, 0, .rwo, 0, false, .any⟩]⟩]

/-- Registers of axis, part 1: AX_QSTOP_DEC, AX_QSTOP_JERK, AX_MODULUS, AX_SW_MIN, AX_SW_MAX, AX_SYNC_ACC, AX_SYNC_VEL, AX_JOG_VEL, AX_TRACK_LIMIT, AX_CMD, AX_STATUS, AX_JOG, AX_CFG, AX_FOLLOW_CTL, AX_HOME_LATCH, AX_HOME_LATCH_FRAC. -/
def regs_axis_1 : List RegDef :=
  [⟨0x10C, 2, 0x0, 1, 0x0, 1, [⟨31, 0, .rwo, 0, false, .any⟩]⟩,
   ⟨0x114, 2, 0x0, 1, 0x0, 1, [⟨31, 0, .rwo, 0, false, .any⟩]⟩,
   ⟨0x11C, 2, 0x0, 1, 0x0, 1, [⟨31, 0, .rwo, 0, false, .any⟩]⟩,
   ⟨0x124, 2, 0x0, 1, 0x0, 1, [⟨31, 0, .rwo, 0, false, .any⟩]⟩,
   ⟨0x12C, 2, 0x0, 1, 0x0, 1, [⟨31, 0, .rwo, 0, false, .any⟩]⟩,
   ⟨0x134, 2, 0x0, 1, 0x0, 1, [⟨31, 0, .rwo, 0, false, .any⟩]⟩,
   ⟨0x13C, 2, 0x0, 1, 0x0, 1, [⟨31, 0, .rwo, 0, false, .any⟩]⟩,
   ⟨0x144, 2, 0x0, 1, 0x0, 1, [⟨31, 0, .rw, 0, false, .any⟩]⟩,
   ⟨0x14C, 2, 0x0, 1, 0x0, 1, [⟨31, 0, .rwo, 0, false, .any⟩]⟩,
   ⟨0x0, 1, 0x0, 1, 0x0, 1, [⟨1, 0, .wo, 0, false, .any⟩]⟩,
   ⟨0x4, 1, 0x0, 1, 0x0, 1, [⟨31, 28, .ro, 0, false, .any⟩, ⟨27, 24, .ro, 1, false, .any⟩, ⟨15, 15, .ro, 0, false, .any⟩, ⟨14, 14, .ro, 0, false, .any⟩, ⟨13, 13, .ro, 0, false, .any⟩, ⟨12, 12, .ro, 0, false, .any⟩, ⟨11, 11, .ro, 0, false, .any⟩, ⟨10, 10, .ro, 0, false, .any⟩, ⟨9, 9, .ro, 0, false, .any⟩, ⟨8, 8, .w1c, 0, false, .any⟩, ⟨7, 7, .ro, 0, false, .any⟩, ⟨6, 6, .ro, 0, false, .any⟩, ⟨5, 5, .ro, 0, false, .any⟩]⟩,
   ⟨0x68, 1, 0x0, 1, 0x0, 1, [⟨1, 0, .rws, 0, false, (.nat 0 2)⟩]⟩,
   ⟨0x100, 1, 0x0, 1, 0x0, 1, [⟨5, 5, .rwo, 0, false, .any⟩, ⟨4, 4, .rwo, 0, false, .any⟩, ⟨3, 2, .rwo, 0, false, (.nat 0 2)⟩, ⟨0, 0, .ro, 0, false, .any⟩]⟩,
   ⟨0x154, 1, 0x0, 1, 0x0, 1, [⟨7, 0, .rwo, 3, false, .any⟩]⟩,
   ⟨0x90, 2, 0x0, 1, 0x0, 1, [⟨31, 0, .ro, 0, true, .any⟩]⟩,
   ⟨0x98, 1, 0x0, 1, 0x0, 1, [⟨31, 0, .ro, 0, true, .any⟩]⟩]

/-- Registers of axis, part 2: AX_STEP_POS, AX_ENC_COUNT, AX_DRV_SP_TAG, AX_STEP_LAG_MAX, AX_ENC_SCALE, AX_LIMIT_DEC, AX_LIMIT_JERK, AX_REL_DIST, AX_HOME_VEL, AX_HOME_SLOW, AX_HOME_DEC, AX_HOME_OFFSET, AX_HOME_PARK, AX_HOME_MAXDIST, AX_STALL_TIME, AX_DRV_LEAD. -/
def regs_axis_2 : List RegDef :=
  [⟨0xA4, 2, 0x0, 1, 0x0, 1, [⟨31, 0, .ro, 0, false, .any⟩]⟩,
   ⟨0xAC, 1, 0x0, 1, 0x0, 1, [⟨31, 0, .ro, 0, false, .any⟩]⟩,
   ⟨0xC0, 8, 0x0, 1, 0x0, 1, [⟨31, 0, .ro, 0, false, .any⟩]⟩,
   ⟨0x184, 1, 0x0, 1, 0x0, 1, [⟨31, 0, .rwo, 0x40, false, (.nat 1 65535)⟩]⟩,
   ⟨0x188, 1, 0x0, 1, 0x0, 1, [⟨31, 0, .rwo, 0, false, .any⟩]⟩,
   ⟨0x194, 2, 0x0, 1, 0x0, 1, [⟨31, 0, .rwo, 0, false, .any⟩]⟩,
   ⟨0x19C, 2, 0x0, 1, 0x0, 1, [⟨31, 0, .rwo, 0, false, .any⟩]⟩,
   ⟨0x1A4, 2, 0x0, 1, 0x0, 1, [⟨31, 0, .rwo, 0, false, .any⟩]⟩,
   ⟨0x1AC, 2, 0x0, 1, 0x0, 1, [⟨31, 0, .rwo, 0, false, .any⟩]⟩,
   ⟨0x1B4, 2, 0x0, 1, 0x0, 1, [⟨31, 0, .rwo, 0, false, .any⟩]⟩,
   ⟨0x1BC, 2, 0x0, 1, 0x0, 1, [⟨31, 0, .rwo, 0, false, .any⟩]⟩,
   ⟨0x1C4, 2, 0x0, 1, 0x0, 1, [⟨31, 0, .rwo, 0, false, .any⟩]⟩,
   ⟨0x1CC, 2, 0x0, 1, 0x0, 1, [⟨31, 0, .rwo, 0, false, .any⟩]⟩,
   ⟨0x1D4, 2, 0x0, 1, 0x0, 1, [⟨31, 0, .rwo, 0, false, .any⟩]⟩,
   ⟨0x1E8, 1, 0x0, 1, 0x0, 1, [⟨31, 0, .rwo, 0, false, (.zeroOr 10 1000000)⟩]⟩,
   ⟨0x1F0, 1, 0x0, 1, 0x0, 1, [⟨31, 0, .rwo, 0, false, (.nat 0 4000000)⟩]⟩]

/-- Registers of axis, part 3: AX_STALL_VMIN, AX_IO_CFG, AX_IO_STATUS, AX_HOME_CTL, AX_HOME_STATUS, AX_CURRENT, AX_LOAD, AX_STEP_LAG, AX_IO_COUNT, AX_STEP_TIMING, AX_LIM_CFG, AX_HOME_CFG, AX_BOOST, AX_BOOST_LIM, AX_STALL, AX_LOAD_CFG. -/
def regs_axis_3 : List RegDef :=
  [⟨0x1F4, 2, 0x0, 1, 0x0, 1, [⟨31, 0, .rwo, 0, false, .any⟩]⟩,
   ⟨0x80, 1, 0x0, 1, 0x0, 1, [⟨31, 30, .ro, 0, false, .any⟩, ⟨28, 24, .ro, 0, false, .any⟩, ⟨20, 20, .ro, 0, false, .any⟩, ⟨19, 19, .ro, 0, false, .any⟩, ⟨18, 18, .ro, 0, false, .any⟩, ⟨17, 17, .ro, 0, false, .any⟩, ⟨16, 16, .ro, 0, false, .any⟩, ⟨15, 15, .ro, 0, false, .any⟩, ⟨14, 14, .ro, 0, false, .any⟩, ⟨13, 13, .ro, 0, false, .any⟩, ⟨12, 12, .ro, 0, false, .any⟩, ⟨11, 11, .ro, 0, false, .any⟩]⟩,
   ⟨0x84, 1, 0x0, 1, 0x0, 1, [⟨31, 31, .ro, 0, false, .any⟩, ⟨30, 30, .ro, 0, false, .any⟩, ⟨29, 29, .ro, 0, false, .any⟩, ⟨28, 28, .ro, 0, false, .any⟩, ⟨27, 27, .ro, 0, false, .any⟩, ⟨26, 26, .ro, 0, false, .any⟩, ⟨25, 25, .ro, 0, false, .any⟩, ⟨24, 24, .ro, 0, false, .any⟩, ⟨15, 15, .ro, 0, false, .any⟩, ⟨14, 14, .ro, 0, false, .any⟩, ⟨13, 13, .ro, 0, false, .any⟩, ⟨12, 12, .ro, 0, false, .any⟩, ⟨11, 11, .ro, 0, false, .any⟩, ⟨10, 10, .ro, 0, false, .any⟩, ⟨9, 9, .ro, 0, false, .any⟩, ⟨3, 3, .ro, 0, false, .any⟩, ⟨2, 2, .ro, 0, false, .any⟩, ⟨1, 1, .ro, 0, false, .any⟩, ⟨0, 0, .ro, 0, false, .any⟩]⟩,
   ⟨0x88, 1, 0x0, 1, 0x0, 1, [⟨1, 1, .wo, 0, false, .any⟩, ⟨0, 0, .wo, 0, false, .any⟩]⟩,
   ⟨0x8C, 1, 0x0, 1, 0x0, 1, [⟨31, 28, .ro, 0, false, .any⟩, ⟨27, 24, .ro, 0, false, .any⟩, ⟨16, 16, .ro, 0, false, .any⟩, ⟨3, 0, .ro, 0, false, .any⟩]⟩,
   ⟨0x9C, 1, 0x0, 1, 0x0, 1, [⟨31, 16, .rw, 0, false, (.nat 0 32767)⟩, ⟨15, 0, .rw, 0, false, (.nat 0 32767)⟩]⟩,
   ⟨0xA0, 1, 0x0, 1, 0x0, 1, [⟨31, 16, .ro, 0, false, .any⟩, ⟨15, 0, .ro, 0, false, .any⟩]⟩,
   ⟨0xB0, 1, 0x0, 1, 0x0, 1, [⟨31, 16, .rc, 0, false, .any⟩, ⟨15, 0, .ro, 0, false, .any⟩]⟩,
   ⟨0xB4, 1, 0x0, 1, 0x0, 1, [⟨31, 24, .rc, 0, false, .any⟩, ⟨23, 12, .rc, 0, false, .any⟩, ⟨11, 0, .rc, 0, false, .any⟩]⟩,
   ⟨0x180, 1, 0x0, 1, 0x0, 1, [⟨31, 16, .rwo, 0xc8, false, (.nat 50 5000)⟩, ⟨15, 0, .rwo, 0x3e8, false, (.nat 0 10000)⟩]⟩,
   ⟨0x190, 1, 0x0, 1, 0x0, 1, [⟨28, 28, .rwo, 1, false, .any⟩, ⟨25, 16, .rwo, 0, false, (.nat 0 1000)⟩, ⟨9, 0, .rwo, 0, false, (.nat 0 1000)⟩]⟩,
   ⟨0x1A8, 1, 0x0, 1, 0x0, 1, [⟨7, 7, .rwo, 0, false, .any⟩, ⟨6, 6, .rwo, 0, false, .any⟩, ⟨5, 5, .rwo, 0, false, .any⟩, ⟨3, 0, .rwo, 0, false, (.nat 1 8)⟩]⟩,
   ⟨0x1DC, 1, 0x0, 1, 0x0, 1, [⟨31, 16, .rwo, 0, false, .any⟩, ⟨15, 0, .rwo, 0, false, .any⟩]⟩,
   ⟨0x1E0, 1, 0x0, 1, 0x0, 1, [⟨31, 16, .rwo, 0, false, .any⟩, ⟨15, 0, .rwo, 0, false, .any⟩]⟩,
   ⟨0x1E4, 1, 0x0, 1, 0x0, 1, [⟨15, 0, .rwo, 0, false, .any⟩]⟩,
   ⟨0x1EC, 1, 0x0, 1, 0x0, 1, [⟨31, 30, .rwo, 0, false, (.nat 0 2)⟩, ⟨15, 0, .rwo, 0, false, .any⟩]⟩]

/-- Registers of axis. -/
def regs_axis : List RegDef := regs_axis_0 ++ regs_axis_1 ++ regs_axis_2 ++ regs_axis_3

/-- Registers of stream, part 0: RS_OFFERED, RS_WRITTEN, RS_LOST_INGEST, RS_LOST_RING, RS_LOST_LATE, RS_GAPS, RS_OVERWRITTEN, RS_RD_PTR, RS_WR_PTR, RS_ACK, RS_MARK, RS_SEG_SEQ, RS_RATE, RS_PEER_CFG, RS_STAGE_QUOTA, RS_FILL_WARN. -/
def regs_stream_0 : List RegDef :=
  [⟨0x8, 2, 0x0, 1, 0x0, 1, [⟨31, 0, .ro, 0, false, .any⟩]⟩,
   ⟨0x10, 2, 0x0, 1, 0x0, 1, [⟨31, 0, .ro, 0, false, .any⟩]⟩,
   ⟨0x18, 2, 0x0, 1, 0x0, 1, [⟨31, 0, .ro, 0, false, .any⟩]⟩,
   ⟨0x20, 2, 0x0, 1, 0x0, 1, [⟨31, 0, .ro, 0, false, .any⟩]⟩,
   ⟨0x28, 1, 0x0, 1, 0x0, 1, [⟨31, 0, .ro, 0, false, .any⟩]⟩,
   ⟨0x2C, 1, 0x0, 1, 0x0, 1, [⟨31, 0, .ro, 0, false, .any⟩]⟩,
   ⟨0x30, 2, 0x0, 1, 0x0, 1, [⟨31, 0, .ro, 0, false, .any⟩]⟩,
   ⟨0x38, 1, 0x0, 1, 0x0, 1, [⟨31, 0, .ro, 0, false, .any⟩]⟩,
   ⟨0x3C, 1, 0x0, 1, 0x0, 1, [⟨31, 0, .ro, 0, false, .any⟩]⟩,
   ⟨0x40, 1, 0x0, 1, 0x0, 1, [⟨31, 0, .wo, 0, false, .any⟩]⟩,
   ⟨0x44, 1, 0x0, 1, 0x0, 1, [⟨31, 0, .wo, 0, false, .any⟩]⟩,
   ⟨0x48, 1, 0x0, 1, 0x0, 1, [⟨31, 0, .ro, 0, false, .any⟩]⟩,
   ⟨0x4C, 1, 0x0, 1, 0x0, 1, [⟨31, 0, .ro, 0, false, .any⟩]⟩,
   ⟨0x84, 1, 0x0, 1, 0x0, 1, [⟨31, 0, .ro, 0, false, .any⟩]⟩,
   ⟨0x88, 1, 0x0, 1, 0x0, 1, [⟨31, 0, .ro, 0, false, .any⟩]⟩,
   ⟨0x8C, 1, 0x0, 1, 0x0, 1, [⟨31, 0, .rw, 0x320, false, (.nat 100 1000)⟩]⟩]

/-- Registers of stream, part 1: RS_ENTRIES, RS_CTL, RS_STATUS, RS_CFG. -/
def regs_stream_1 : List RegDef :=
  [⟨0x90, 1, 0x0, 1, 0x0, 1, [⟨31, 0, .ro, 0, false, .any⟩]⟩,
   ⟨0x0, 1, 0x0, 1, 0x0, 1, [⟨3, 3, .wo, 0, false, .any⟩, ⟨2, 2, .wo, 0, false, .any⟩, ⟨1, 1, .wo, 0, false, .any⟩, ⟨0, 0, .wo, 0, false, .any⟩]⟩,
   ⟨0x4, 1, 0x0, 1, 0x0, 1, [⟨31, 28, .ro, 0, false, .any⟩, ⟨27, 27, .ro, 0, false, .any⟩, ⟨26, 26, .ro, 0, false, .any⟩, ⟨25, 25, .ro, 0, false, .any⟩, ⟨24, 24, .ro, 0, false, .any⟩, ⟨23, 20, .ro, 0, false, .any⟩, ⟨19, 19, .ro, 0, false, .any⟩, ⟨9, 0, .ro, 0, false, .any⟩]⟩,
   ⟨0x80, 1, 0x0, 1, 0x0, 1, [⟨31, 30, .ro, 0, false, .any⟩, ⟨29, 29, .ro, 0, false, .any⟩, ⟨13, 0, .ro, 0, false, .any⟩]⟩]

/-- Registers of stream. -/
def regs_stream : List RegDef := regs_stream_0 ++ regs_stream_1

/-- Registers of blkB, part 0: RR_RATE, RR_RATE_MAX, RR_OBS_RATE, RR_STAGE_USE, RR_META_TAG, RR_META_LO, RR_META_HI, RR_AP_SEL, RR_APERTURE, RR_ENT_SEL, RR_ENT_TAG, RR_ENT_DEADBAND, RR_ENT_CFG. -/
def regs_blkB_0 : List RegDef :=
  [⟨0x10, 1, 0x0, 1, 0x0, 1, [⟨31, 0, .ro, 0, false, .any⟩]⟩,
   ⟨0x14, 1, 0x0, 1, 0x0, 1, [⟨31, 0, .rc, 0, false, .any⟩]⟩,
   ⟨0x18, 1, 0x0, 1, 0x0, 1, [⟨31, 0, .ro, 0, false, .any⟩]⟩,
   ⟨0x1C, 1, 0x0, 1, 0x0, 1, [⟨31, 0, .ro, 0, false, .any⟩]⟩,
   ⟨0x20, 1, 0x0, 1, 0x0, 1, [⟨31, 0, .rw, 0, false, (.nat 0 0x1FFFFFF)⟩]⟩,
   ⟨0x24, 1, 0x0, 1, 0x0, 1, [⟨31, 0, .ro, 0, false, .any⟩]⟩,
   ⟨0x28, 1, 0x0, 1, 0x0, 1, [⟨31, 0, .ro, 0, false, .any⟩]⟩,
   ⟨0x30, 1, 0x0, 1, 0x0, 1, [⟨31, 0, .rw, 0, false, (.nat 0 15)⟩]⟩,
   ⟨0x4000, 1, 0x4, 4096, 0x0, 1, [⟨31, 0, .ro, 0, false, .any⟩]⟩,
   ⟨0x8010, 1, 0x0, 1, 0x0, 1, [⟨31, 0, .rw, 0, false, (.nat 0 0x1FFFFFF)⟩]⟩,
   ⟨0x8014, 1, 0x0, 1, 0x0, 1, [⟨31, 0, .ro, 0, false, .any⟩]⟩,
   ⟨0x8018, 1, 0x0, 1, 0x0, 1, [⟨31, 0, .rw, 0, false, .any⟩]⟩,
   ⟨0x801C, 1, 0x0, 1, 0x0, 1, [⟨31, 16, .rw, 0, false, (.zeroOr 1 60000)⟩, ⟨15, 12, .ro, 0, false, .any⟩, ⟨11, 8, .ro, 0, false, .any⟩, ⟨1, 0, .ro, 0, false, .any⟩]⟩]

/-- Registers of blkB. -/
def regs_blkB : List RegDef := regs_blkB_0

/-- Registers of blkC, part 0: CP_LOAD, CP_WRITE_RATE, TL_HEAD, CP_DISCARDED, CP_AP_SEL, CP_AP_OFFSET, TR_COUNT, TR_LAST_SEC, TR_LAST_NS, TR_LAST_FRAC, TL, CP_TAG, CP_APERTURE, TR_TAG, TR_LEVEL, TR_HIGH. -/
def regs_blkC_0 : List RegDef :=
  [⟨0x10, 1, 0x0, 1, 0x0, 1, [⟨31, 0, .ro, 0, false, .any⟩]⟩,
   ⟨0x14, 1, 0x0, 1, 0x0, 1, [⟨31, 0, .ro, 0, false, .any⟩]⟩,
   ⟨0x18, 1, 0x0, 1, 0x0, 1, [⟨31, 0, .ro, 0xffffffff, false, .any⟩]⟩,
   ⟨0x1C, 1, 0x0, 1, 0x0, 1, [⟨31, 0, .rc, 0, false, .any⟩]⟩,
   ⟨0x20, 1, 0x0, 1, 0x0, 1, [⟨31, 0, .rw, 0, false, .any⟩]⟩,
   ⟨0x24, 1, 0x0, 1, 0x0, 1, [⟨31, 0, .rw, 0, false, .any⟩]⟩,
   ⟨0x408, 1, 0x20, 128, 0x0, 1, [⟨31, 0, .rc, 0, false, .any⟩]⟩,
   ⟨0x410, 1, 0x20, 128, 0x0, 1, [⟨31, 0, .ro, 0, false, .any⟩]⟩,
   ⟨0x414, 1, 0x20, 128, 0x0, 1, [⟨31, 0, .ro, 0, false, .any⟩]⟩,
   ⟨0x418, 1, 0x20, 128, 0x0, 1, [⟨31, 0, .ro, 0, false, .any⟩]⟩,
   ⟨0x1400, 16, 0x40, 64, 0x0, 1, [⟨31, 0, .ro, 0, false, .any⟩]⟩,
   ⟨0x2400, 1, 0x80, 64, 0x4, 32, [⟨31, 0, .rwo, 0, false, (.nat 0 0x1FFFFFF)⟩]⟩,
   ⟨0x4800, 1, 0x4, 2048, 0x0, 1, [⟨31, 0, .ro, 0, false, .any⟩]⟩,
   ⟨0x8404, 1, 0x40, 128, 0x0, 1, [⟨31, 0, .rwo, 0, false, (.nat 0 0x1FFFFFF)⟩]⟩,
   ⟨0x8408, 2, 0x40, 128, 0x0, 1, [⟨31, 0, .rwo, 0, false, .any⟩]⟩,
   ⟨0x8410, 2, 0x40, 128, 0x0, 1, [⟨31, 0, .rwo, 0, false, .any⟩]⟩]

/-- Registers of blkC, part 1: TR_HYST, TR_SRC, TR_WIN_NS, TR_CHAIN, TR_CTL, TR_STATUS, TR_MARKS, TR_CFG. -/
def regs_blkC_1 : List RegDef :=
  [⟨0x8418, 2, 0x40, 128, 0x0, 1, [⟨31, 0, .rwo, 0, false, .any⟩]⟩,
   ⟨0x8420, 1, 0x40, 128, 0x0, 1, [⟨31, 0, .rwo, 0, false, .any⟩]⟩,
   ⟨0x8424, 1, 0x40, 128, 0x0, 1, [⟨31, 0, .rwo, 0, false, (.nat 1 1000000000)⟩]⟩,
   ⟨0x8428, 1, 0x40, 128, 0x0, 1, [⟨31, 0, .rwo, 0, false, .any⟩]⟩,
   ⟨0x400, 1, 0x20, 128, 0x0, 1, [⟨1, 1, .wo, 0, false, .any⟩, ⟨0, 0, .rw, 0, false, .any⟩]⟩,
   ⟨0x404, 1, 0x20, 128, 0x0, 1, [⟨19, 16, .ro, 0, false, .any⟩, ⟨15, 8, .ro, 0, false, .any⟩, ⟨0, 0, .ro, 0, false, .any⟩]⟩,
   ⟨0x40C, 1, 0x20, 128, 0x0, 1, [⟨16, 16, .rwo, 0, false, .any⟩, ⟨15, 0, .rwo, 0, false, .any⟩]⟩,
   ⟨0x8400, 1, 0x40, 128, 0x0, 1, [⟨31, 28, .rwo, 0, false, .any⟩, ⟨27, 26, .rwo, 0, false, .any⟩, ⟨21, 16, .rwo, 0, false, .any⟩, ⟨15, 8, .rwo, 0, false, .any⟩]⟩]

/-- Registers of blkC. -/
def regs_blkC : List RegDef := regs_blkC_0 ++ regs_blkC_1

/-- Registers of cap, part 0: CP_PRE_ROWS, CP_POST_ROWS, CP_ROWS, CP_MISSED, CP_RETRIG, CP_CAPTURES, CP_TRIGGER, CP_ROW_DELAY, CP_STAGE_QUOTA, CP_SPILL_LOST, CP_CTL, CP_STATUS, CP_CFG, CP_BASIN. -/
def regs_cap_0 : List RegDef :=
  [⟨0x8, 1, 0x0, 1, 0x0, 1, [⟨31, 0, .rwo, 0, false, .any⟩]⟩,
   ⟨0xC, 1, 0x0, 1, 0x0, 1, [⟨31, 0, .rwo, 0, false, (.nat 1 0xFFFFFFFF)⟩]⟩,
   ⟨0x10, 1, 0x0, 1, 0x0, 1, [⟨31, 0, .ro, 0, false, .any⟩]⟩,
   ⟨0x14, 1, 0x0, 1, 0x0, 1, [⟨31, 0, .rc, 0, false, .any⟩]⟩,
   ⟨0x18, 1, 0x0, 1, 0x0, 1, [⟨31, 0, .rc, 0, false, .any⟩]⟩,
   ⟨0x1C, 1, 0x0, 1, 0x0, 1, [⟨31, 0, .ro, 0, false, .any⟩]⟩,
   ⟨0x20, 1, 0x0, 1, 0x0, 1, [⟨31, 0, .rwo, 0, false, .any⟩]⟩,
   ⟨0x88, 1, 0x0, 1, 0x0, 1, [⟨31, 0, .rwo, 0x7a12, false, (.nat 0 4000000)⟩]⟩,
   ⟨0x8C, 1, 0x0, 1, 0x0, 1, [⟨31, 0, .ro, 0, false, .any⟩]⟩,
   ⟨0x90, 1, 0x0, 1, 0x0, 1, [⟨31, 0, .rc, 0, false, .any⟩]⟩,
   ⟨0x0, 1, 0x0, 1, 0x0, 1, [⟨3, 3, .wo, 0, false, .any⟩, ⟨2, 2, .wo, 0, false, .any⟩, ⟨1, 1, .wo, 0, false, .any⟩, ⟨0, 0, .wo, 0, false, .any⟩]⟩,
   ⟨0x4, 1, 0x0, 1, 0x0, 1, [⟨31, 28, .ro, 0, false, .any⟩, ⟨27, 23, .ro, 0, false, .any⟩, ⟨22, 20, .ro, 0, false, .any⟩, ⟨19, 19, .ro, 0, false, .any⟩, ⟨18, 18, .ro, 0, false, .any⟩]⟩,
   ⟨0x80, 1, 0x0, 1, 0x0, 1, [⟨31, 28, .rwo, 0, false, (.nat 0 9)⟩, ⟨27, 22, .ro, 0, false, .any⟩, ⟨21, 21, .ro, 0, false, .any⟩, ⟨20, 20, .rwo, 0, false, .any⟩, ⟨19, 16, .rwo, 0, false, .any⟩, ⟨15, 15, .rwo, 0, false, .any⟩, ⟨14, 11, .rwo, 0, false, .any⟩, ⟨10, 10, .rwo, 0, false, .any⟩, ⟨9, 9, .rwo, 0, false, .any⟩]⟩,
   ⟨0x84, 1, 0x0, 1, 0x0, 1, [⟨31, 27, .ro, 0, false, .any⟩, ⟨22, 0, .ro, 0, false, .any⟩]⟩]

/-- Registers of cap. -/
def regs_cap : List RegDef := regs_cap_0

/-- Registers of blk3, part 0: ASH_CLAIM, ASH_CYCLES, ASH_RX_BAD, ASH_APPLY_EFF, ASH_UP_START_EFF, ASH_ETYPE, ASH_GUARD_NS, ASH_UP_START, ASH_APPLY_NS, ASH_LINK_MAX_NS, ASH_SAFE_SKEW_NS, ASH_PORT_CFG, ASH_PORT_STATUS, ASH_PORT_CTL, ASH_MODULES, ASH_LOAD. -/
def regs_blk3_0 : List RegDef :=
  [⟨0x114, 1, 0x40, 8, 0x0, 1, [⟨31, 0, .ro, 0, false, .any⟩]⟩,
   ⟨0x118, 1, 0x40, 8, 0x0, 1, [⟨31, 0, .ro, 0, false, .any⟩]⟩,
   ⟨0x11C, 1, 0x40, 8, 0x0, 1, [⟨31, 0, .rc, 0, false, .any⟩]⟩,
   ⟨0x120, 1, 0x40, 8, 0x0, 1, [⟨31, 0, .ro, 0, false, .any⟩]⟩,
   ⟨0x124, 1, 0x40, 8, 0x0, 1, [⟨31, 0, .ro, 0, false, .any⟩]⟩,
   ⟨0x8100, 1, 0x40, 8, 0x0, 1, [⟨31, 0, .rwo, 0x88b5, false, (.nat 0x0600 0xFFFF)⟩]⟩,
   ⟨0x8104, 1, 0x40, 8, 0x0, 1, [⟨31, 0, .rwo, 0x140, false, (.nat 100 10000)⟩]⟩,
   ⟨0x8108, 1, 0x40, 8, 0x0, 1, [⟨31, 0, .rwo, 0x7d0, false, (.nat 0 4000000)⟩]⟩,
   ⟨0x810C, 1, 0x40, 8, 0x0, 1, [⟨31, 0, .rwo, 0, false, .any⟩]⟩,
   ⟨0x8110, 1, 0x40, 8, 0x0, 1, [⟨31, 0, .rwo, 0xfa, false, (.nat 10 5000)⟩]⟩,
   ⟨0x8118, 1, 0x40, 8, 0x0, 1, [⟨31, 0, .rwo, 0x3d09, false, (.nat 1000 10000000)⟩]⟩,
   ⟨0x100, 1, 0x40, 8, 0x0, 1, [⟨31, 28, .ro, 0, false, .any⟩, ⟨27, 27, .ro, 0, false, .any⟩, ⟨3, 0, .ro, 0, false, .any⟩]⟩,
   ⟨0x104, 1, 0x40, 8, 0x0, 1, [⟨31, 28, .ro, 0, false, .any⟩, ⟨27, 27, .ro, 0, false, .any⟩, ⟨26, 26, .ro, 0, false, .any⟩, ⟨8, 0, .ro, 0, false, .any⟩]⟩,
   ⟨0x108, 1, 0x40, 8, 0x0, 1, [⟨0, 0, .wo, 0, false, .any⟩]⟩,
   ⟨0x10C, 1, 0x40, 8, 0x0, 1, [⟨31, 22, .ro, 0, false, .any⟩, ⟨21, 12, .ro, 0, false, .any⟩, ⟨9, 0, .ro, 0, false, .any⟩]⟩,
   ⟨0x110, 1, 0x40, 8, 0x0, 1, [⟨31, 16, .ro, 0, false, .any⟩, ⟨15, 0, .ro, 0, false, .any⟩]⟩]

/-- Registers of blk3, part 1: ASH_MOD_CTL. -/
def regs_blk3_1 : List RegDef :=
  [⟨0x8114, 1, 0x40, 8, 0x0, 1, [⟨23, 16, .rwo, 8, false, (.nat 2 255)⟩, ⟨15, 8, .rwo, 3, false, (.nat 1 255)⟩, ⟨7, 0, .rwo, 3, false, (.nat 1 255)⟩]⟩]

/-- Registers of blk3. -/
def regs_blk3 : List RegDef := regs_blk3_0 ++ regs_blk3_1

/-- Registers of mod, part 0: MS_STATUS, MS_SEQ, MS_VENDOR, MS_PRODUCT, MS_REVISION, MS_SERIAL_LO, MS_SERIAL_HI, MS_COUNT, MS_SLOT_A_NS, MS_SLOT_B_NS, MS_SAMPLE_NS, MS_DELAY, MS_IO_BYTES, MS_ERR, MS_LOSS_CFG, MS_CLAIM. -/
def regs_mod_0 : List RegDef :=
  [⟨0x0, 1, 0x0, 1, 0x0, 1, [⟨31, 28, .ro, 0, false, .any⟩, ⟨27, 27, .ro, 0, false, .any⟩, ⟨26, 26, .ro, 0, false, .any⟩, ⟨25, 25, .ro, 0, false, .any⟩, ⟨24, 24, .ro, 0, false, .any⟩, ⟨23, 23, .ro, 0, false, .any⟩, ⟨22, 22, .ro, 0, false, .any⟩, ⟨21, 21, .ro, 0, false, .any⟩, ⟨20, 20, .ro, 0, false, .any⟩, ⟨7, 0, .ro, 0, false, .any⟩]⟩,
   ⟨0x4, 1, 0x0, 1, 0x0, 1, [⟨31, 0, .ro, 0, false, .any⟩]⟩,
   ⟨0x8, 1, 0x0, 1, 0x0, 1, [⟨31, 0, .ro, 0, false, .any⟩]⟩,
   ⟨0xC, 1, 0x0, 1, 0x0, 1, [⟨31, 0, .ro, 0, false, .any⟩]⟩,
   ⟨0x10, 1, 0x0, 1, 0x0, 1, [⟨31, 0, .ro, 0, false, .any⟩]⟩,
   ⟨0x14, 1, 0x0, 1, 0x0, 1, [⟨31, 0, .ro, 0, false, .any⟩]⟩,
   ⟨0x18, 1, 0x0, 1, 0x0, 1, [⟨31, 0, .ro, 0, false, .any⟩]⟩,
   ⟨0x1C, 1, 0x0, 1, 0x0, 1, [⟨31, 0, .rc, 0, false, .any⟩]⟩,
   ⟨0x20, 1, 0x0, 1, 0x0, 1, [⟨31, 0, .ro, 0, false, .any⟩]⟩,
   ⟨0x24, 1, 0x0, 1, 0x0, 1, [⟨31, 0, .ro, 0, false, .any⟩]⟩,
   ⟨0x28, 1, 0x0, 1, 0x0, 1, [⟨31, 0, .rwo, 0, false, .any⟩]⟩,
   ⟨0x2C, 1, 0x0, 1, 0x0, 1, [⟨31, 0, .ro, 0, false, .any⟩]⟩,
   ⟨0x30, 1, 0x0, 1, 0x0, 1, [⟨31, 0, .ro, 0, false, .any⟩]⟩,
   ⟨0x34, 1, 0x0, 1, 0x0, 1, [⟨31, 0, .rc, 0, false, .any⟩]⟩,
   ⟨0x38, 1, 0x0, 1, 0x0, 1, [⟨31, 0, .rwo, 0, false, .any⟩]⟩,
   ⟨0x3C, 1, 0x0, 1, 0x0, 1, [⟨31, 0, .ro, 0, false, .any⟩]⟩]

/-- Registers of mod. -/
def regs_mod : List RegDef := regs_mod_0

/-- Registers of blk4, part 0: LN_SHAFT_LATE, LN_SHAFT_AGE, LN_PATH_NS, LN_PATH_MAX, LN_DUP, LN_RX_BAD, LN_STOMPED, LN_BULK_BYTES, LN_NB_FP, LN_ETYPE, LN_BULK_SHARE, LN_SHAFT_HOLD, LN_SAFE_SKEW_NS, LN_KNOWN_FP, LN_CFG, LN_STATUS. -/
def regs_blk4_0 : List RegDef :=
  [⟨0x20, 1, 0x0, 1, 0x0, 1, [⟨31, 0, .rc, 0, false, .any⟩]⟩,
   ⟨0x24, 1, 0x0, 1, 0x0, 1, [⟨31, 0, .ro, 0, false, .any⟩]⟩,
   ⟨0x28, 1, 0x0, 1, 0x0, 1, [⟨31, 0, .ro, 0, false, .any⟩]⟩,
   ⟨0x2C, 1, 0x0, 1, 0x0, 1, [⟨31, 0, .rc, 0, false, .any⟩]⟩,
   ⟨0x30, 1, 0x0, 1, 0x0, 1, [⟨31, 0, .rc, 0, false, .any⟩]⟩,
   ⟨0x104, 1, 0x40, 4, 0x0, 1, [⟨31, 0, .rc, 0, false, .any⟩]⟩,
   ⟨0x108, 1, 0x40, 4, 0x0, 1, [⟨31, 0, .rc, 0, false, .any⟩]⟩,
   ⟨0x10C, 1, 0x40, 4, 0x0, 1, [⟨31, 0, .ro, 0, false, .any⟩]⟩,
   ⟨0x110, 8, 0x40, 4, 0x0, 1, [⟨31, 0, .ro, 0, false, .any⟩]⟩,
   ⟨0x8010, 1, 0x0, 1, 0x0, 1, [⟨31, 0, .ro, 0x88b6, false, .any⟩]⟩,
   ⟨0x8014, 1, 0x0, 1, 0x0, 1, [⟨31, 0, .rw, 0x1e, false, (.nat 10 60)⟩]⟩,
   ⟨0x8018, 1, 0x0, 1, 0x0, 1, [⟨31, 0, .rw, 0x40, false, (.nat 1 6400)⟩]⟩,
   ⟨0x801C, 1, 0x0, 1, 0x0, 1, [⟨31, 0, .rw, 0x3d09, false, (.nat 1000 10000000)⟩]⟩,
   ⟨0x8100, 8, 0x40, 4, 0x0, 1, [⟨31, 0, .ro, 0, true, .any⟩]⟩,
   ⟨0x10, 1, 0x0, 1, 0x0, 1, [⟨31, 31, .ro, 0, false, .any⟩, ⟨30, 24, .ro, 0, false, .any⟩, ⟨23, 16, .ro, 0, false, .any⟩, ⟨9, 0, .ro, 0, false, .any⟩]⟩,
   ⟨0x14, 1, 0x0, 1, 0x0, 1, [⟨31, 28, .ro, 0, false, .any⟩, ⟨27, 27, .ro, 0, false, .any⟩, ⟨26, 26, .ro, 0, false, .any⟩, ⟨25, 25, .ro, 0, false, .any⟩, ⟨24, 23, .ro, 0, false, .any⟩, ⟨10, 0, .ro, 0, false, .any⟩]⟩]

/-- Registers of blk4, part 1: LN_PORT_STATUS, LN_NB_CTL. -/
def regs_blk4_1 : List RegDef :=
  [⟨0x100, 1, 0x40, 4, 0x0, 1, [⟨31, 28, .ro, 0, false, .any⟩, ⟨27, 27, .ro, 0, false, .any⟩, ⟨9, 0, .ro, 0, false, .any⟩]⟩,
   ⟨0x8120, 1, 0x40, 4, 0x0, 1, [⟨1, 1, .wo, 0, false, .any⟩, ⟨0, 0, .wo, 0, false, .any⟩]⟩]

/-- Registers of blk4. -/
def regs_blk4 : List RegDef := regs_blk4_0 ++ regs_blk4_1

/-- Registers of blk5, part 0: MR_CLAIM, MR_CLAIM_SEEN, MR_EPOCH_LO, MR_EPOCH_HI, MR_EPOCH_BYTES, MR_EPOCH_MAX, MR_HB_MISSED, MR_EPOCH_DISCARDED, MR_TAKEOVERS, MR_TO_SEC, MR_TO_NS, MR_TO_LAG, MR_RESYNC_PROG, MR_PARTNER_FP, MR_BUDGET, MR_WORST. -/
def regs_blk5_0 : List RegDef :=
  [⟨0x14, 1, 0x0, 1, 0x0, 1, [⟨31, 0, .ro, 0, false, .any⟩]⟩,
   ⟨0x18, 1, 0x0, 1, 0x0, 1, [⟨31, 0, .ro, 0, false, .any⟩]⟩,
   ⟨0x1C, 1, 0x0, 1, 0x0, 1, [⟨31, 0, .ro, 0, false, .any⟩]⟩,
   ⟨0x20, 1, 0x0, 1, 0x0, 1, [⟨31, 0, .ro, 0, false, .any⟩]⟩,
   ⟨0x24, 1, 0x0, 1, 0x0, 1, [⟨31, 0, .ro, 0, false, .any⟩]⟩,
   ⟨0x28, 1, 0x0, 1, 0x0, 1, [⟨31, 0, .rc, 0, false, .any⟩]⟩,
   ⟨0x2C, 1, 0x0, 1, 0x0, 1, [⟨31, 0, .rc, 0, false, .any⟩]⟩,
   ⟨0x30, 1, 0x0, 1, 0x0, 1, [⟨31, 0, .rc, 0, false, .any⟩]⟩,
   ⟨0x34, 1, 0x0, 1, 0x0, 1, [⟨31, 0, .ro, 0, true, .any⟩]⟩,
   ⟨0x38, 1, 0x0, 1, 0x0, 1, [⟨31, 0, .ro, 0, true, .any⟩]⟩,
   ⟨0x3C, 1, 0x0, 1, 0x0, 1, [⟨31, 0, .ro, 0, true, .any⟩]⟩,
   ⟨0x40, 1, 0x0, 1, 0x0, 1, [⟨31, 0, .ro, 0, true, .any⟩]⟩,
   ⟨0x44, 1, 0x0, 1, 0x0, 1, [⟨31, 0, .ro, 0, false, .any⟩]⟩,
   ⟨0x50, 8, 0x0, 1, 0x0, 1, [⟨31, 0, .ro, 0, false, .any⟩]⟩,
   ⟨0x8014, 1, 0x0, 1, 0x0, 1, [⟨31, 0, .ro, 0, false, .any⟩]⟩,
   ⟨0x8018, 1, 0x0, 1, 0x0, 1, [⟨31, 0, .ro, 0, false, .any⟩]⟩]

/-- Registers of blk5, part 1: MR_PAIR_WAIT, MR_BIN_BYTES, MR_KNOWN_FP, MR_STATUS, MR_CFG, MR_CTL, MR_PARTNER_CTL. -/
def regs_blk5_1 : List RegDef :=
  [⟨0x801C, 1, 0x0, 1, 0x0, 1, [⟨31, 0, .rw, 0x7d0, false, (.nat 100 60000)⟩]⟩,
   ⟨0x8020, 1, 0x0, 1, 0x0, 1, [⟨31, 0, .ro, 0, false, .any⟩]⟩,
   ⟨0x8100, 8, 0x0, 1, 0x0, 1, [⟨31, 0, .ro, 0, true, .any⟩]⟩,
   ⟨0x10, 1, 0x0, 1, 0x0, 1, [⟨31, 28, .ro, 0, false, .any⟩, ⟨27, 24, .ro, 0, false, .any⟩, ⟨23, 23, .ro, 0, false, .any⟩, ⟨22, 22, .ro, 0, false, .any⟩, ⟨21, 21, .ro, 0, false, .any⟩, ⟨20, 20, .ro, 0, false, .any⟩, ⟨19, 19, .ro, 0, false, .any⟩, ⟨18, 18, .ro, 0, false, .any⟩, ⟨15, 8, .ro, 0, false, .any⟩, ⟨7, 0, .ro, 0, false, .any⟩]⟩,
   ⟨0x8010, 1, 0x0, 1, 0x0, 1, [⟨23, 16, .ro, 0, false, .any⟩, ⟨15, 8, .ro, 0, false, .any⟩, ⟨2, 2, .rw, 0, false, .any⟩, ⟨1, 1, .rw, 1, false, .any⟩, ⟨0, 0, .ro, 0, false, .any⟩]⟩,
   ⟨0x8024, 1, 0x0, 1, 0x0, 1, [⟨1, 1, .wo, 0, false, .any⟩, ⟨0, 0, .wo, 0, false, .any⟩]⟩,
   ⟨0x8028, 1, 0x0, 1, 0x0, 1, [⟨1, 1, .wo, 0, false, .any⟩, ⟨0, 0, .wo, 0, false, .any⟩]⟩]

/-- Registers of blk5. -/
def regs_blk5 : List RegDef := regs_blk5_0 ++ regs_blk5_1

/-- Registers of blkF, part 0: PW_FEED_STATUS, PW_VCORE, PW_UV_RESETS, PW_TEMP_MAX, PW_TEMP, PW_TEMP_WARN, PW_PACE_STATUS, PW_PACE_CTL. -/
def regs_blkF_0 : List RegDef :=
  [⟨0x10, 1, 0x0, 1, 0x0, 1, [⟨3, 3, .ro, 0, false, .any⟩, ⟨2, 2, .ro, 0, false, .any⟩, ⟨1, 1, .ro, 0, false, .any⟩, ⟨0, 0, .ro, 0, false, .any⟩]⟩,
   ⟨0x14, 1, 0x0, 1, 0x0, 1, [⟨31, 0, .ro, 0, false, .any⟩]⟩,
   ⟨0x1C, 1, 0x0, 1, 0x0, 1, [⟨31, 0, .ro, 0, true, .any⟩]⟩,
   ⟨0x20, 1, 0x0, 1, 0x0, 1, [⟨31, 0, .rc, 0, false, .any⟩]⟩,
   ⟨0x100, 1, 0x4, 8, 0x0, 1, [⟨31, 0, .ro, 0, false, .any⟩]⟩,
   ⟨0x8014, 1, 0x0, 1, 0x0, 1, [⟨31, 0, .rw, 0x64, false, (.nat 80 104)⟩]⟩,
   ⟨0x18, 1, 0x0, 1, 0x0, 1, [⟨10, 8, .ro, 0, false, .any⟩, ⟨7, 7, .ro, 0, false, .any⟩, ⟨6, 0, .ro, 0, false, .any⟩]⟩,
   ⟨0x8010, 1, 0x0, 1, 0x0, 1, [⟨8, 8, .rw, 1, false, .any⟩, ⟨1, 0, .rw, 1, false, .any⟩]⟩]

/-- Registers of blkF. -/
def regs_blkF : List RegDef := regs_blkF_0

/-- Registers of blkD, part 0: SF_BLOCK_HASH, SF_IN_DEMAND, SF_W_STATE, SF_ECC_CORR, SF_IN_DISC, SF_IN_DEMANDS, SF_OUT_DARK, SF_BRK_LAST_S, SF_BRK_DEV, SF_TP, SF_CONN, SF_CONN_SEQ, SF_FAULT, SF_STATUS, SF_LOCK, SF_RST. -/
def regs_blkD_0 : List RegDef :=
  [⟨0x1008, 8, 0x0, 1, 0x0, 1, [⟨31, 0, .ro, 0, false, .any⟩]⟩,
   ⟨0x1030, 1, 0x0, 1, 0x0, 1, [⟨31, 0, .ro, 0, false, .any⟩]⟩,
   ⟨0x1040, 1, 0x0, 1, 0x0, 1, [⟨31, 0, .ro, 0, false, .any⟩]⟩,
   ⟨0x1048, 1, 0x0, 1, 0x0, 1, [⟨31, 0, .ro, 0, false, .any⟩]⟩,
   ⟨0x1104, 1, 0x10, 16, 0x0, 1, [⟨31, 0, .ro, 0, false, .any⟩]⟩,
   ⟨0x1108, 1, 0x10, 16, 0x0, 1, [⟨31, 0, .ro, 0, false, .any⟩]⟩,
   ⟨0x1204, 1, 0x10, 8, 0x0, 1, [⟨31, 0, .ro, 0, false, .any⟩]⟩,
   ⟨0x1304, 1, 0x20, 4, 0x0, 1, [⟨31, 0, .ro, 0, false, .any⟩]⟩,
   ⟨0x1308, 1, 0x20, 4, 0x0, 1, [⟨31, 0, .ro, 0, false, .any⟩]⟩,
   ⟨0x1380, 1, 0x10, 4, 0x0, 1, [⟨31, 0, .ro, 0, false, .any⟩]⟩,
   ⟨0x1400, 1, 0x10, 64, 0x0, 1, [⟨31, 0, .ro, 0, false, .any⟩]⟩,
   ⟨0x1404, 1, 0x10, 64, 0x0, 1, [⟨31, 0, .ro, 0, false, .any⟩]⟩,
   ⟨0x1800, 8, 0x20, 16, 0x0, 1, [⟨31, 0, .ro, 0, false, .any⟩]⟩,
   ⟨0x1000, 1, 0x0, 1, 0x0, 1, [⟨31, 31, .ro, 0, false, .any⟩, ⟨30, 30, .ro, 0, false, .any⟩, ⟨29, 29, .ro, 0, false, .any⟩, ⟨28, 28, .ro, 0, false, .any⟩, ⟨23, 16, .ro, 0, false, .any⟩, ⟨15, 8, .ro, 0, false, .any⟩, ⟨7, 0, .ro, 0, false, .any⟩]⟩,
   ⟨0x1004, 1, 0x0, 1, 0x0, 1, [⟨31, 24, .ro, 0, false, .any⟩, ⟨23, 23, .ro, 0, false, .any⟩, ⟨15, 0, .ro, 0, false, .any⟩]⟩,
   ⟨0x1044, 1, 0x0, 1, 0x0, 1, [⟨31, 28, .ro, 0, false, .any⟩, ⟨15, 0, .ro, 0, false, .any⟩]⟩]

/-- Registers of blkD, part 1: SF_IN, SF_OUT, SF_BRK. -/
def regs_blkD_1 : List RegDef :=
  [⟨0x1100, 1, 0x10, 16, 0x0, 1, [⟨31, 31, .ro, 0, false, .any⟩, ⟨30, 30, .ro, 0, false, .any⟩, ⟨29, 29, .ro, 0, false, .any⟩, ⟨28, 28, .ro, 0, false, .any⟩, ⟨27, 27, .ro, 0, false, .any⟩, ⟨26, 26, .ro, 0, false, .any⟩]⟩,
   ⟨0x1200, 1, 0x10, 8, 0x0, 1, [⟨31, 28, .ro, 0, false, .any⟩, ⟨27, 27, .ro, 0, false, .any⟩, ⟨26, 26, .ro, 0, false, .any⟩, ⟨25, 25, .ro, 0, false, .any⟩, ⟨24, 24, .ro, 0, false, .any⟩]⟩,
   ⟨0x1300, 1, 0x20, 4, 0x0, 1, [⟨31, 31, .ro, 0, false, .any⟩, ⟨30, 30, .ro, 0, false, .any⟩, ⟨29, 29, .ro, 0, false, .any⟩, ⟨28, 28, .ro, 0, false, .any⟩, ⟨27, 27, .ro, 0, false, .any⟩, ⟨26, 26, .ro, 0, false, .any⟩, ⟨7, 0, .ro, 0, false, .any⟩]⟩]

/-- Registers of blkD. -/
def regs_blkD : List RegDef := regs_blkD_0 ++ regs_blkD_1

/-- Registers of blkE, part 0: MM_DRAM_SIZE, MM_ECC_CORR, MM_ECC_UNCORR, MM_ECC_ADDR_LO, MM_ECC_ADDR_HI, MM_NVM0_MBIT, MM_NVM1_MBIT, MM_MRAM_KBIT, MM_TARN_COLL. -/
def regs_blkE_0 : List RegDef :=
  [⟨0x10, 1, 0x0, 1, 0x0, 1, [⟨31, 0, .ro, 0, false, .any⟩]⟩,
   ⟨0x14, 1, 0x0, 1, 0x0, 1, [⟨31, 0, .rc, 0, false, .any⟩]⟩,
   ⟨0x18, 1, 0x0, 1, 0x0, 1, [⟨31, 0, .rc, 0, false, .any⟩]⟩,
   ⟨0x1C, 1, 0x0, 1, 0x0, 1, [⟨31, 0, .ro, 0, false, .any⟩]⟩,
   ⟨0x20, 1, 0x0, 1, 0x0, 1, [⟨31, 0, .ro, 0, false, .any⟩]⟩,
   ⟨0x24, 1, 0x0, 1, 0x0, 1, [⟨31, 0, .ro, 0, false, .any⟩]⟩,
   ⟨0x28, 1, 0x0, 1, 0x0, 1, [⟨31, 0, .ro, 0, false, .any⟩]⟩,
   ⟨0x2C, 1, 0x0, 1, 0x0, 1, [⟨31, 0, .ro, 0, false, .any⟩]⟩,
   ⟨0x100, 1, 0x4, 6, 0x0, 1, [⟨31, 0, .rc, 0, false, .any⟩]⟩]

/-- Registers of blkE. -/
def regs_blkE : List RegDef := regs_blkE_0

end Sys2Proof.Machine
end

