-- ==== Sys2Proof/Machine/SMap.lean ====
section
/-!
DEFINITION. Machine/SMap.lean: sparse maps from addresses to values in one canonical form, keys strictly rising and no
entry equal to what an unlisted key reads as; every memory, buffer and register file of the model is one.
-/
namespace Sys2Proof.Machine

/-- A sparse map: (key, value) pairs, keys strictly rising, no value equal to the default. -/
abbrev SMap (α : Type) := List (Nat × α)

/-- The value at a key, `d` when the key is not listed. -/
def SMap.get {α : Type} (d : α) : SMap α → Nat → α
  | [], _ => d
  | (k, v) :: m, a => if a = k then v else SMap.get d m a

/-- Places a value at a key, in order, in place of what the key had. -/
def SMap.put {α : Type} : SMap α → Nat → α → SMap α
  | [], a, v => [(a, v)]
  | (k, w) :: m, a, v => if a < k then (a, v) :: (k, w) :: m else if a = k then (k, v) :: m else (k, w) :: SMap.put m a v

/-- Writes `v` at a key and keeps the canonical form: writing the default removes the entry. -/
def SMap.set {α : Type} [DecidableEq α] (d : α) (m : SMap α) (a : Nat) (v : α) : SMap α :=
  if v = d then m.filter (fun e => e.1 != a) else SMap.put m a v

/-- The keys of a map all lie above `b`. -/
def SMap.above {α : Type} (b : Nat) : SMap α → Bool
  | [] => true
  | (k, _) :: _ => decide (b < k)

/-- The canonical form: keys strictly rising, no entry equal to the default. -/
def SMap.wf {α : Type} [DecidableEq α] (d : α) : SMap α → Bool
  | [] => true
  | (k, v) :: m => decide (v ≠ d) && SMap.above k m && SMap.wf d m

/-- Applies a function to the value at one key. -/
def SMap.upd {α : Type} [DecidableEq α] (d : α) (m : SMap α) (a : Nat) (f : α → α) : SMap α :=
  SMap.set d m a (f (SMap.get d m a))

/-- Applies a function to every listed value. -/
def SMap.mapAll {α : Type} [DecidableEq α] (d : α) (f : Nat → α → α) : SMap α → SMap α
  | [] => []
  | (k, v) :: m => SMap.set d (SMap.mapAll d f m) k (f k v)

/-- The listed keys, rising. -/
def SMap.keys {α : Type} (m : SMap α) : List Nat := m.map Prod.fst

/-- Whether a key is listed. -/
def SMap.has {α : Type} (m : SMap α) (a : Nat) : Bool := m.any (fun p => p.1 == a)

/-- Removes every entry whose key satisfies `p`. -/
def SMap.drop {α : Type} (p : Nat → Bool) (m : SMap α) : SMap α := m.filter (fun e => !p e.1)

end Sys2Proof.Machine
end

