-- ==== Sys2Proof/Machine/State.lean ====
section
/-!
DEFINITION. Machine/State.lean: all state that the spec gives the block, as plain data, chapter by chapter; its outcomes'
reasons; and State.reset. A field's default is its value at reset.
-/
namespace Sys2Proof.Machine

/-! ## Host access (04_host_access) -/

/-- An event record: what R16 and R204 give it. -/
structure EvRec where
  /-- LOG_INDEX, from 0 at each start. -/
  index : Nat
  code : Nat
  /-- The management path of the source (R25). -/
  path : Nat
  time : Time
  deriving DecidableEq, Repr

/-- One notification of a subscription, waiting in its session's queue (R203). -/
structure Notif where
  sub : Nat
  /-- 1 events, 2 values. -/
  kind : Nat
  nseq : Nat
  lost : Nat
  recs : List EvRec := []
  time : Time := 0
  vals : List Word := []
  deriving DecidableEq, Repr

/-- A subscription (R199 to R203). -/
structure Sub where
  id : Nat
  sess : Nat
  /-- 1 events, 2 values. -/
  kind : Nat
  changeOnly : Bool := false
  periodK : Nat := 6
  minBand : Nat := 0
  blockMask : Nat := 0
  addrs : List Nat := []
  nseq : Nat := 0
  lost : Nat := 0
  /-- The values last sent; empty before the first. -/
  last : List Word := []
  /-- Periods since the last notification sent. -/
  since : Nat := 0
  /-- Start of the base cycle or period last sampled (R201). -/
  sampledAt : Option Time := none
  deriving DecidableEq, Repr

/-- The state of a session channel, as HA_SESS_STATUS.STATE codes it (R227). -/
inductive SessState where
  | free | handshake | open | closing
  deriving DecidableEq, Repr

/-- The role of a session (R173). -/
inductive Role where
  | none | observe | operate | engineer
  deriving DecidableEq, Repr

/-- A message under reassembly (R167): the fragments that have arrived. -/
structure Reasm where
  /-- Session channel for a SECURE message; above 15 a handshake message, by its sender and session. -/
  key : Nat
  /-- SEQ of fragment 0. -/
  base : Nat
  count : Nat
  /-- FRAG_INDEX and payload bytes of the fragments that have arrived. -/
  have_ : List (Nat × Nat)
  /-- Elapsed time at the first fragment's arrival. -/
  first : Time
  deriving DecidableEq, Repr

/-- One of the sixteen session channels (R177, R182, R190, R205, R227). -/
structure Session where
  st : SessState := .free
  role : Role := .none
  /-- The 32-bit session identifier (R165). -/
  ident : Nat := 0
  /-- The SHA3-256 fingerprint of the host key. -/
  fp : Nat := 0
  /-- The host address that sent the SESSION_INIT. -/
  addr : Nat := 0
  viaChain : Bool := false
  /-- Elapsed time of step 1 of the handshake, or of the last valid datagram. -/
  lastRx : Time := 0
  hsStart : Time := 0
  /-- Of the handshake (R176, R177): both nonces, the shared secret and TH1. -/
  hostNonce : Nat := 0
  devNonce : Nat := 0
  secret : Nat := 0
  th1 : Nat := 0
  /-- The keys and IV prefixes of both directions (R178). -/
  rxKey : Nat := 0
  txKey : Nat := 0
  rxIv : Nat := 0
  txIv : Nat := 0
  /-- Highest SEQ accepted plus one, and the accepted SEQ values within 63 of it (R182). -/
  seqNext : Nat := 0
  seqSeen : List Nat := []
  /-- The next SEQ this device sends. -/
  txSeq : Nat := 0
  /-- The responses to the last 16 requests: REQ_ID, opcode, status, body (R190). -/
  cache : List (Nat × Nat × Nat × List Nat) := []
  /-- Requests whose message is complete and that have not executed (R189). -/
  waiting : Nat := 0
  /-- The notification queue (R205), oldest first, at most 64. -/
  queue : List Notif := []
  /-- A loss episode of the notification queue is open (R205). -/
  losing : Bool := false
  /-- Elapsed time of the last ATTEST (R210). -/
  lastAttest : Option Time := none
  /-- Registers held separately for each session (R297): selections, by address. -/
  sel : List (Nat × Word) := []
  deriving DecidableEq, Repr

/-- A WRITE held for the housekeeping phase (R195). -/
structure HeldWrite where
  /-- Its session; 16 once that session has ended. -/
  sess : Nat
  role : Role
  req : Nat
  stopOnError : Bool
  items : List WriteItem
  /-- The base cycle after its arrival has begun, and the housekeeping phase of that cycle (R195). -/
  armed : Bool := false
  due : Bool := false
  deriving DecidableEq, Repr

/-- The state of host access: block 0x01 unit 3. -/
structure HostSt where
  sess : SMap Session := []
  subs : List Sub := []
  nextSub : Nat := 0
  /-- The event log, newest first, at most 512 records (R206). -/
  log : List EvRec := []
  /-- LOG_INDEX of the next record. -/
  logNext : Nat := 0
  /-- CYCLE_ALIGNED writes held under R195, oldest first. -/
  held : List HeldWrite := []
  reasm : List Reasm := []
  /-- Elapsed second and handshakes started in it (R180), and whether 0x0124 was raised in it. -/
  hsSecond : Nat × Nat := (0, 0)
  /-- Elapsed second and probes answered in it (R171). -/
  probeSecond : Nat × Nat := (0, 0)
  /-- Elapsed time of the last periodic beacon (R170). -/
  lastBeacon : Time := 0
  /-- Routes of the gateway: TARGET, SESSION, host address (R220). -/
  routes : List (Nat × Nat × Nat) := []
  /-- Elapsed time of the last RELAY_ERROR of each TARGET (R221). -/
  relayErr : SMap (Option Time) := []
  /-- The host address whose PROBE to the chain was forwarded last (R222). -/
  prober : Nat := 0
  /-- Probes of one other device that its BEACON has not answered: TARGET and host address, oldest first (R220). -/
  probes : List (Nat × Nat) := []
  /-- LO words of 64-bit registers held until their HI word is written (R466, R604): address and word. -/
  loHeld : List (Nat × Word) := []
  /-- The session that owns Service (R184). -/
  svcOwner : Option Nat := none
  /-- The next session identifier to hand out (a counter: R165 lets the device choose). -/
  nextIdent : Nat := 1
  /-- Elapsed time of the last event of each (code, path) that is limited in rate (R833). -/
  lastEv : List ((Nat × Nat) × Time) := []
  /-- PHY link of SVC: 0 down, 2 100 Mb/s, 3 1000 Mb/s (R226). -/
  link : Nat := 0
  sgmii : Bool := false
  deriving DecidableEq, Repr

/-! ## Modes and start (03_modes_and_start) -/

/-- The six major modes (R126). -/
inductive Mode where
  | recovery | minimal | configure | standby | run | service
  deriving DecidableEq, Repr

/-- The state of an axis in a flying restart (R148). -/
inductive FlyState where
  | none | pending | locked | failed
  deriving DecidableEq, Repr

/-- Fault-driven transitions waiting for the mode logic (R135). -/
inductive FaultReq where
  | overrun | demotion | pll | tileCheck | thermal | abort
  deriving DecidableEq, Repr

/-- Modes, start and restart: block 0x00. -/
structure ModeSt where
  mode : Mode := .configure
  busy : Bool := false
  target : Nat := 0
  /-- The Minimal reason (R140); 0 outside Minimal. -/
  reason : Nat := 0
  warmLast : Bool := false
  /-- DEV_RESTART_CAUSE.CAUSE (R155). -/
  cause : Nat := 0
  startMs : Nat := 0
  /-- The accepted host mode request waiting for the cycle boundary, with its session. -/
  req : Option (Mode × Nat) := none
  /-- Run is to be entered as soon as the required modules are OPERATIONAL (R638, R684). -/
  autoRun : Bool := false
  /-- Fault-driven transitions waiting for the cycle boundary. -/
  faults : List FaultReq := []
  /-- A whole-device ABORT takes the device to Standby once the transition under way ends (R218). -/
  abortAfter : Bool := false
  /-- Service ends at the next boundary (R133). -/
  svcEnd : Bool := false
  /-- Run has been entered since the start (R517). -/
  ranOnce : Bool := false
  /-- Device time at which Run was entered, for TIMEOUT_MS (R148). -/
  runEntered : Time := 0
  fly : SMap FlyState := []
  /-- Consecutive cycles inside the window, per axis (R148). -/
  flyLock : SMap Nat := []
  flying : Bool := false
  /-- DEV_FLY_CTL as the flying restart in progress found it (R158). -/
  flyCtl : Word := 0
  /-- A flying restart begins on the first base cycle in Run (R148). -/
  flyArmed : Bool := false
  /-- PORST_N asserted, thermal hold, VCORE reset, both keep-alives lost: held in reset. -/
  held : Bool := false
  /-- Outputs have been committed since the start (R128). -/
  committed : Bool := false
  /-- Buffers have been released since Run was entered (R306). -/
  runLive : Bool := false
  deriving DecidableEq, Repr

/-! ## Plumb (02_time_and_ticks) -/

/-- PB_SYNC_STATUS.STATE (R110). -/
inductive SyncState where
  | freeRun | acquiring | locked | holdover | grandmaster
  deriving DecidableEq, Repr

/-- A PTP message that the device sends (R61, R68, R69). -/
inductive PtpKind where
  | sync | followUp | announce | delayReq | delayResp | pdelayReq | pdelayResp | pdelayRespFollowUp
  deriving DecidableEq, Repr

/-- Its content: destination address, time-stamp with 48-bit seconds, correctionField, and the port that is answered. -/
structure PtpMsg where
  kind : PtpKind
  domain : Nat
  dest : Nat
  twoStep : Bool := false
  secs : BitVec 48 := 0
  nanos : Nat := 0
  correction : Int := 0
  ann : Option Announce := none
  asker : Nat := 0
  deriving DecidableEq, Repr

/-- A foreign master heard on a port: its last Announce, when it came, and when the one before came (R87). -/
structure Foreign where
  ann : Announce
  last : Time
  prev : Option Time := none
  deriving DecidableEq, Repr

/-- What Plumb holds of one PTP port (R89 to R92, R116). -/
structure PtpPort where
  /-- IEEE 1588 portState of a port that runs the best master clock algorithm. -/
  state : Nat := 1
  /-- The port has a fault (R106, 0x0244). -/
  faulty : Bool := false
  /-- Foreign masters of the default profiles; elapsed time of the last Announce or of entering LISTENING; elapsed time at which
  PRE_MASTER ends. -/
  foreign : List Foreign := []
  quietFrom : Time := 0
  preUntil : Time := 0
  /-- The filtered path delay in 2^-16 ns; none before the first measurement. -/
  delay : Option Int := none
  pathSteps : Nat := 0
  asymUnverified : Bool := false
  /-- Candidates held and their direction, true for above the filter (R89). -/
  cand : Nat := 0
  candUp : Bool := false
  /-- Measurements still to take in a re-measurement (R90), and their sum and count. -/
  remeas : Nat := 0
  remeasSum : Int := 0
  deriving DecidableEq, Repr

/-- One stamp of a timing input (R98). -/
structure TinStamp where
  time : Time
  rising : Bool
  seq : Nat
  deriving DecidableEq, Repr

/-- One timing input (R93 to R98). -/
structure Tin where
  /-- Edges selected since the start, lost edges included. -/
  count : Nat := 0
  lost : Nat := 0
  ovf : Bool := false
  /-- Stored stamps, oldest first, at most 64. -/
  fifo : List TinStamp := []
  /-- Elapsed time of the last stamped edge (R94). -/
  lastEdge : Option Time := none
  lastStamp : Option Time := none
  /-- An overflow episode is open (R96). -/
  episode : Bool := false
  deriving DecidableEq, Repr

/-- The state of a timed output (R120). -/
inductive ToutState where
  | idle | waiting | running | stopping
  deriving DecidableEq, Repr

/-- One timed output (R99 to R105). -/
structure Tout where
  st : ToutState := .idle
  missed : Nat := 0
  /-- Settings taken when the arm was accepted. -/
  start : Time := 0
  width : Time := 0
  period : Time := 0
  /-- Pulses of the train; 0 without end. -/
  count : Nat := 0
  once : Bool := true
  /-- Index of the next pulse of the grid. -/
  index : Nat := 0
  /-- The pin is at its active level since this instant. -/
  pulse : Option Time := none
  deriving DecidableEq, Repr

/-- The time unit: block 0x02. -/
structure Plumb where
  /-- Device time (R59). -/
  now : Time := 0
  /-- Elapsed time on the Plumb clock, which no step or slew changes (R94, R833). -/
  elapsed : Time := 0
  /-- Time latched by a read of PB_TIME_SEC_HI (R64). -/
  latch : Time := 0
  timeValid : Bool := false
  sync : SyncState := .freeRun
  /-- Some synchronisation has been reached since TIME_VALID became 1 (R88). -/
  everLocked : Bool := false
  slewing : Bool := false
  /-- PB_SLEW_REMAIN in 2^-16 ns, positive when the device is ahead (R78). -/
  slewRemain : Int := 0
  /-- Last measured offset in 2^-16 ns. -/
  offset : Int := 0
  /-- Applied rate correction, ppb (PB_FREQ), while a master steers or has steered the servo; the rates applied before it with the
  elapsed time at which each began, newest first (R86). -/
  freq : Int := 0
  rates : List (Time × Int) := []
  /-- The last Announce accepted from the master: its data set and currentUtcOffset (R60). -/
  parent : Option Announce := none
  /-- Consecutive offsets within 100 ns (R88). -/
  inLock : Nat := 0
  masterPort : Option Nat := none
  holdAge : Nat := 0
  /-- Elapsed time at holdover entry. -/
  holdFrom : Time := 0
  /-- Announce messages received since holdover began (R87). -/
  holdAnn : Nat := 0
  /-- Elapsed time of the last Announce and of the last Sync of the master. -/
  lastAnnounce : Time := 0
  lastSync : Time := 0
  /-- A step waiting for the next tick boundary (R81): the offset to remove. -/
  step : Option Int := none
  /-- Device time that the last step reached: no instant before it is reached again (R834). -/
  stepTo : Time := 0
  /-- Elapsed time until which the rate estimate is limited (R91). -/
  freqLimited : Time := 0
  ports : SMap PtpPort := []
  tin : SMap Tin := []
  tout : SMap Tout := []
  pllLocked : Bool := true
  /-- Start of the last tick issued; none when the tick of the present instant is still to be issued. -/
  tickAt : Option Time := none
  deriving DecidableEq, Repr

/-! ## Recorder (12_signal_recording) -/

/-- A stream entry of R544 and what it holds. -/
structure Entry where
  tag : Tag
  stream : Nat
  deadband : Word
  heartbeat : Nat
  /-- 0 CHANGE, 1 CHANGE_FULL, 2 FINE. -/
  mode : Nat
  k : Nat
  div : Nat
  fineTag : Tag
  /-- Value and carried time of its last record. -/
  last : Option (DWord × Time) := none
  /-- Observations since the stream started. -/
  seen : Nat := 0
  /-- The next observation is written with FIRST (R548). -/
  first : Bool := true
  /-- One of its records was lost in the open episode: FIRST after the GAP (R548). -/
  gapped : Bool := false
  /-- Open fine window: samples, sum, first and last sample time (R549). -/
  fine : Option (Nat × Int × Time × Time) := none
  deriving DecidableEq, Repr

/-- An open loss episode (R556). -/
structure Loss where
  count : Nat
  first : Time
  last : Time
  /-- Cause mask: bit 0 INGEST, bit 1 RING, bit 2 LATE. -/
  causes : Nat
  deriving DecidableEq, Repr

/-- RS_STATUS.STATE (R551). -/
inductive StreamState where
  | idle | running | stopped
  deriving DecidableEq, Repr

/-- One Spring stream (R551 to R563). -/
structure Stream where
  st : StreamState := .idle
  owner : Option Nat := none
  loss : Option Loss := none
  gapUnreported : Bool := false
  geomPending : Bool := false
  peerSilent : Bool := false
  offered : Nat := 0
  written : Nat := 0
  lostIngest : Nat := 0
  lostRing : Nat := 0
  lostLate : Nat := 0
  gaps : Nat := 0
  overwritten : Nat := 0
  /-- Ring offsets in 16-byte units (R553). -/
  rdPtr : Nat := 0
  wrPtr : Nat := 0
  /-- The units held, oldest first: the ring bytes from RS_RD_PTR to RS_WR_PTR. -/
  ring : List (BitVec 128) := []
  /-- Units from RS_RD_PTR on that have gone to the historian peer and are not acknowledged (R675). -/
  sent : Nat := 0
  segSeq : Nat := 0
  /-- Whole second of the open segment's base, and whether its header was written. -/
  segBase : Nat := 0
  segOpen : Bool := false
  headerWritten : Bool := false
  /-- Flags of the open segment's header (R541). -/
  segFlags : Nat := 0
  /-- Records and units since the last header that was written (R541). -/
  recsPrev : Nat := 0
  span : List (BitVec 128) := []
  /-- Some header was written since the start. -/
  anyHeader : Bool := false
  /-- Bytes of Tarn 4 staging in use (R555). -/
  staged : Nat := 0
  /-- Records written in the running second and in the last whole second. -/
  rateNow : Nat := 0
  rateLast : Nat := 0
  fillWarned : Bool := false
  /-- Counters latched by a read of RS_OFFERED LO. -/
  latch : List Nat := []
  /-- Elapsed time of the peer's last acknowledgement (R554). -/
  lastAck : Time := 0
  /-- A step of device time since the previous header (R541). -/
  stepped : Bool := false
  deriving DecidableEq, Repr

/-- The recorder: block 0x0B. -/
structure Recorder where
  entries : List Entry := []
  streams : SMap Stream := []
  /-- Units written in the running second, in the last whole second, and its maximum. -/
  unitsNow : Nat := 0
  unitsLast : Nat := 0
  unitsMax : Nat := 0
  obsNow : Nat := 0
  obsLast : Nat := 0
  /-- Observations offered in the running tick (R536). -/
  obsTick : Nat := 0
  /-- Last produced value of each class 5 tag (R23, R549). -/
  fine : SMap DWord := []
  deriving DecidableEq, Repr

/-! ## Triggers and captures (13_triggers_and_captures) -/

/-- One observation kept for capture rows and trigger conditions. -/
structure Obs where
  time : Time
  value : DWord
  stale : Bool
  /-- Device time of arrival. -/
  arrived : Time
  deriving DecidableEq, Repr

/-- What a trigger holds beside its registers (R572 to R580). -/
structure Trig where
  armRise : Bool := false
  armFall : Bool := false
  prev : Option (Time × DWord) := none
  /-- BIT: the level last confirmed, the running count and its first time. -/
  level : Option Bool := none
  run : Nat := 0
  runFirst : Time := 0
  /-- AND: newest occurrence held for each of four sources. -/
  held : List (Option Time) := [none, none, none, none]
  lastFire : Option Time := none
  count : Nat := 0
  lastTime : Time := 0
  deriving DecidableEq, Repr

/-- An entry of the trigger log (R583). -/
structure TrigLog where
  index : Nat
  trigger : Nat
  device : Nat
  time : Time
  taken : Nat
  missed : Nat
  arrivalNs : Nat
  flags : Nat
  deriving DecidableEq, Repr

/-- One row of a capture (R585). -/
structure Row where
  time : Time
  stale : Nat
  fresh : Nat
  vals : List DWord
  /-- Per slot the carried time minus T in signed ns, saturating. -/
  dts : List Int
  deriving DecidableEq, Repr

/-- CP_STATUS.STATE (R586). -/
inductive CapState where
  | idle | arming | armed | triggered | hold
  deriving DecidableEq, Repr

/-- A basin: the capture being taken, or one held (R589, R600). -/
structure Basin where
  slot : Nat
  /-- FLAGS of the header. -/
  flags : Nat := 0
  trigger : Nat := 0xFFFF
  trigTime : Time := 0
  /-- Rows held, oldest first. -/
  rows : List Row := []
  preReq : Nat := 0
  preAct : Nat := 0
  postReq : Nat := 0
  postAct : Nat := 0
  spillRows : Nat := 0
  spillLost : Nat := 0
  retrig : Nat := 0
  missedBefore : Nat := 0
  logIndex : Nat := 0
  ovr : Time := 0
  spillStream : Nat := 0
  /-- Instant of the trigger row, once known. -/
  trigRow : Option Time := none
  deriving DecidableEq, Repr

/-- One capture unit (R584 to R599). -/
structure CapUnit where
  st : CapState := .idle
  refuse : Nat := 0
  overflow : Bool := false
  loadWarn : Bool := false
  cur : Option Basin := none
  /-- Held captures, oldest first. -/
  held : List Basin := []
  /-- The re-arm interval [T_s, T_first) (R592). -/
  tStart : Time := 0
  tFirst : Time := 0
  /-- A firing that waits for ARMED (R592): trigger number, time, log index, flags. -/
  waiting : Option (Nat × Time × Nat × Nat) := none
  missed : Nat := 0
  retrig : Nat := 0
  captures : Nat := 0
  spillLost : Nat := 0
  /-- Carried time of each slot's value in the previous row (R585 FRESH). -/
  lastTimes : List (Option Time) := []
  /-- Instant of the last row of the previous capture. -/
  lastRow : Time := 0
  /-- Instant of the last row since the arm and since the last backward step; the instants that the last forward step passed over
  lie strictly between the two times (R834). -/
  rowSeen : Option Time := none
  passed : Time × Time := (0, 0)
  /-- Spilling, and rows still to spill. -/
  spilling : Bool := false
  staged : Nat := 0
  deriving DecidableEq, Repr

/-- Triggers and captures: block 0x0C. -/
structure Capture where
  trig : SMap Trig := []
  /-- The trigger log, newest first, at most 64. -/
  log : List TrigLog := []
  logNext : Nat := 0
  units : SMap CapUnit := []
  discarded : Nat := 0
  /-- Recent observations of the tags that units name, newest first. -/
  obs : SMap (List Obs) := []
  bytesNow : Nat := 0
  bytesLast : Nat := 0
  deriving DecidableEq, Repr

/-! ## Fabric (05_fabric_and_compiler_contract) -/

/-- What a commit-buffer entry addresses (R310). -/
inductive CommitTarget where
  /-- CMTOUT: the output-segment word at a Tarn 3 address. -/
  | out (addr : Nat)
  /-- CMTLP: setpoint, MAN_OUT or mode request of a loop; the AUX kind of R379. -/
  | loop (n kind : Nat)
  /-- CMTAX: target, command or limit of an axis; the AUX kind of R449. -/
  | axis (a kind : Nat)
  deriving DecidableEq, Repr

/-- An entry of a tile's commit buffer (R244, R254). -/
structure CommitEntry where
  target : CommitTarget
  /-- One word for CMTOUT and CMTLP, three for CMTAX. -/
  vals : List Word
  /-- The work item that issued it; none for a cyclic window. -/
  item : Option Nat := none
  deriving DecidableEq, Repr

/-- The window a tile is running (R251, R252). -/
structure RunWin where
  /-- Index in the tile's list. -/
  idx : Nat
  kind : Nat
  start : Time
  len : Nat
  complete : Bool := false
  late : Bool := false
  /-- A window of an earlier cycle that still runs. -/
  old : Bool := false
  deriving DecidableEq, Repr

/-- A work item running on a tile (R279 to R283). -/
structure RunItem where
  item : Nat
  started : Time
  /-- Cancelled after dispatch, over budget or aborted: the output commit is discarded (R281). -/
  discard : Bool := false
  /-- Its budget has run out and was reported (R255). -/
  ovr : Bool := false
  /-- Commit entries of this run, in issue order. -/
  entries : List CommitEntry := []
  /-- Held operations of this run, in issue order: opcode, ADDR, release time words (R283). -/
  held : List (Nat × Nat × List Word) := []
  deriving DecidableEq, Repr

/-- One Mason tile (R231, R240, R244). -/
structure Tile where
  /-- The operand buffer of 16,384 words. -/
  buf : SMap Word := []
  /-- Words of the cyclic program: those that section 0x0003 fills or a window's ops name (R279). -/
  alloc : List Nat := []
  /-- 0, or the first free value of the words outside the program's allocation, undefined after a work item (R279). -/
  junk : Nat := 0
  /-- The sixteen predicates. -/
  preds : BitVec 16 := 0
  /-- The op store of 16,384 words of 64 bits. -/
  store : SMap DWord := []
  /-- The commit buffer: cyclic entries in issue order. -/
  commit : List CommitEntry := []
  /-- Entries of completed work items, in order of completion (R254). -/
  itemCommit : List CommitEntry := []
  win : Option RunWin := none
  /-- Windows whose START came while an earlier one was late: index, and whether its own deadline has passed (R252). -/
  waitWins : List (Nat × Bool) := []
  run : Option RunItem := none
  /-- End of the open SLACK window. -/
  slackEnd : Option Time := none
  fault : Bool := false
  maxUse : Nat := 0
  late : Nat := 0
  ops : Nat := 0
  deriving DecidableEq, Repr

/-- The fabric: block 0x06. -/
structure Fabric where
  tiles : SMap Tile := []
  /-- Throttle in tenths of a per cent, and its highest over 1 µs since the last read (R262). -/
  throttle : Nat := 0
  max1us : Nat := 0
  /-- Elapsed time at the end of the last 1 µs interval above 25 per cent (R236, R833). -/
  cornerLast : Option Time := none
  deriving DecidableEq, Repr

/-! ## Work-item queues (06_work_item_queues) -/

/-- The state of an item (R272). -/
inductive ItemPhase where
  | idle | waiting | ready | running
  deriving DecidableEq, Repr

/-- The pending activation of a RUNNING item (R272). -/
inductive Pending where
  | none | ready | release (r : Time)
  deriving DecidableEq, Repr

/-- One work item (R272 to R302). -/
structure ItemSt where
  phase : ItemPhase := .idle
  pend : Pending := .none
  rel : Time := 0
  runs : Nat := 0
  latLast : Nat := 0
  latMax : Nat := 0
  /-- Device time of its last ready entry. -/
  readyAt : Time := 0
  /-- First passed over under R280, while held. -/
  heldFrom : Option Time := none
  /-- Its hold of R280 has ended for this entry. -/
  holdOver : Bool := false
  aged : Bool := false
  /-- Its release was late for want of room (R289). -/
  lateRoom : Bool := false
  deriving DecidableEq, Repr

/-- The work-item queues: block 0x07. -/
structure Queues where
  items : SMap ItemSt := []
  /-- Ready entries by priority 0 to 7, oldest first. -/
  ready : SMap (List Nat) := []
  /-- Last tile plus one of each code; 0 none (R280). -/
  lastTile : SMap Nat := []
  refused : Nat := 0
  lateRel : Nat := 0
  commitLost : Nat := 0
  dup : Nat := 0
  badOp : Nat := 0
  prioRuns : SMap Nat := []
  prioCancel : SMap Nat := []
  prioLast : SMap Nat := []
  deriving DecidableEq, Repr

/-! ## The cyclic program (07_cycle_program) -/

/-- PG_STATUS.PHASE (R351). -/
inductive Phase where
  | notRunning | latch | logic | commit | housekeeping | skipped
  deriving DecidableEq, Repr

/-- A force (R334): a tag, its direction and its value. -/
structure Force where
  tag : Tag
  output : Bool
  value : DWord
  deriving DecidableEq, Repr

/-- A record of the retain journal (R323). -/
structure JRec where
  /-- 1 BASE, 2 DELTA, 3 FINAL. -/
  type : Nat
  seq : Nat
  imageId : Nat
  capture : Time
  blocks : List (Nat × BitVec 512)
  /-- CHECK verifies and COMMIT holds its value. -/
  valid : Bool := true
  deriving DecidableEq, Repr

/-- A header copy of the MRAM (R322). -/
structure JHeader where
  seq : Nat := 0
  region : Bool := false
  imageId : Nat := 0
  valid : Bool := false
  deriving DecidableEq, Repr

/-- The retain journal in the MRAM and its writer (R318 to R333). -/
structure Journal where
  hdr0 : JHeader := {}
  hdr1 : JHeader := {}
  regA : List JRec := []
  regB : List JRec := []
  /-- Contents at the previous capture, by block, for finding changes (R320). -/
  shadow : SMap (BitVec 512) := []
  /-- Blocks captured and not yet written, with the newest content (R320). -/
  staging : SMap (Option (BitVec 512)) := []
  /-- Capture instant and cycle of the newest capture. -/
  capture : Time := 0
  captureCycle : Nat := 0
  /-- Cycle of the newest committed record, for LAG. -/
  recordCycle : Nat := 0
  seq : Nat := 0
  records : Nat := 0
  writeFail : Bool := false
  compacting : Bool := false
  finalIncomplete : Bool := false
  /-- Retained data of the result of an on-line change, until its BASE record is in force (R346). -/
  rebase : Option (SMap (BitVec 512)) := none
  /-- PFW after filtering, and a FINAL record being written. -/
  pfw : Bool := false
  finalPending : Bool := false
  /-- Blocks of the FINAL record being written, and its capture instant (R328). -/
  final : SMap (Option (BitVec 512)) := []
  finalAt : Time × Nat := (0, 0)
  lagMax : Nat := 0
  /-- CAPTURE as PG_RET_LAST shows it: of the newest record, 0 from a cold restart to the first record after it (R350). -/
  shown : Time := 0
  /-- A pending-above-budget episode is open (R332). -/
  overBudget : Bool := false
  /-- MRAM capacity in bytes and write rate in bytes per µs as measured at Configure. -/
  capacity : Nat := 0
  rate : Nat := 0
  deriving DecidableEq, Repr

/-- PG_OLC_STATUS.STATE (R340). -/
inductive OlcState where
  | none | loading | ready | armed | swapping
  deriving DecidableEq, Repr

/-- On-line change (R339 to R348). -/
structure Olc where
  st : OlcState := .none
  reason : Nat := 0
  willSkip : Bool := false
  xferNs : Nat := 0
  /-- Requested swap time; and the earliest boundary allowed by ARM. -/
  swapAt : Time := 0
  armedAt : Time := 0
  last : Time := 0
  carried : Nat := 0
  dropped : Nat := 0
  pkg : Option Image := none
  /-- The last old cycle's reason-7 test passed, so the next boundary swaps. -/
  cleared : Bool := false
  deriving DecidableEq, Repr

/-- The program: block 0x08. -/
structure Prog where
  /-- Base cycles since Run was entered (PG_CYCLE). -/
  cycle : Nat := 0
  /-- Base cycles begun in Run and Service since the device started, by which LAG counts (R321). -/
  cycles : Nat := 0
  /-- Start of the current base cycle. -/
  cycleStart : Time := 0
  /-- Start of the cycle whose windows run: the last one that was not skipped. -/
  winBase : Time := 0
  phase : Phase := .notRunning
  /-- PG_OVR_CTL as the present cycle found it (R355). -/
  ovrCtl : Word := 0
  ovrConsec : Nat := 0
  ovrTotal : Nat := 0
  skipTotal : Nat := 0
  /-- The current cycle has overrun (R253). -/
  overrun : Bool := false
  /-- The current cycle is a skipped one; the next one is to be skipped. -/
  skipping : Bool := false
  skipNext : Bool := false
  /-- An ABORT of the cycle prevents the release (R256). -/
  noRelease : Bool := false
  /-- The current cycle released its buffers. -/
  released : Bool := false
  /-- The retain capture of the cycle has been taken. -/
  captured : Bool := false
  /-- The capture of the overrun cycle before is still to be taken, for its LOGIC windows run on (R312). -/
  captureOwed : Bool := false
  /-- Host writes through the tag window waiting for the input latch, newest last (R47). -/
  tagWrites : List (Tag × DWord) := []
  /-- Host writes that act in the input latch of the present cycle. -/
  tagNow : List (Tag × DWord) := []
  /-- A base cycle has started since the device started. -/
  begun : Bool := false
  /-- The COMMIT_END of the present base cycle has been reached. -/
  ended : Bool := true
  /-- The force table in index order, and the forces acting in the current cycle (R336). -/
  forces : List Force := []
  forcesNow : List Force := []
  forceDropTag : Nat := 0
  jr : Journal := {}
  olc : Olc := {}
  /-- The previous latch of each module: SEQ and AGE of its copied data (R307). -/
  latched : SMap (Nat × Nat) := []
  deriving DecidableEq, Repr

/-! ## Control loops and learning (08_control_loops, 09_learning_and_tuning) -/

/-- LP_STATUS.MODE (R370). -/
inductive LoopMode where
  | open | manual | closed
  deriving DecidableEq, Repr

/-- A running or last test injection of a loop (R424 to R431). -/
structure Inject where
  running : Bool := false
  /-- START accepted and update 0 not yet reached. -/
  waiting : Bool := false
  /-- Stop accepted: x is 0 from the next period start. -/
  j : Nat := 0
  endReason : Nat := 0
  refuse : Nat := 0
  /-- Chirp phase in 2^-32 turns (R426). -/
  theta : Nat := 0
  /-- PRBS bits so far, newest first (R427). -/
  prbs : List Bool := []
  /-- The trigger of CAP_EN has fired. -/
  fired : Bool := false
  x : Int := 0
  deriving DecidableEq, Repr

/-- The open dwell of the repetitive controller (R409). -/
structure Dwell where
  k : Nat
  sum : Int := 0
  count : Nat := 0
  bad : Bool := false
  deriving DecidableEq, Repr

/-- The repetitive controller of a loop (R405 to R423). -/
structure Learn where
  /-- Bins, signed Q15 (R405). -/
  bins : SMap Int := []
  dwell : Option Dwell := none
  w : Nat := 0
  /-- Bin advance and elapsed time of the last 16 updates, newest first (R415). -/
  hist : List (Int × Time) := []
  /-- SEQ of the source's module at the last read, and its age (R407). -/
  srcSeq : Option Nat := none
  srcAge : Nat := 0
  leadEff : Nat := 0
  phi : Nat := 0
  learned : Nat := 0
  skipped : Nat := 0
  paused : Nat := 0
  abtFrozen : Bool := false
  /-- Requests for the next period start. -/
  clearReq : Bool := false
  abortReq : Bool := false
  binReq : List (Nat × Int) := []
  /-- RC_STATUS flags of the last update. -/
  overspeed : Bool := false
  reverse : Bool := false
  srcStale : Bool := false
  limitPause : Bool := false
  lastPaused : Bool := false
  lastLearned : Bool := false
  /-- ē and target bin of the last update, and r[k] before w (signals 19, 21, 22). -/
  ebar : Int := 0
  target : Nat := 0
  rk : Int := 0
  deriving DecidableEq, Repr

/-- One control loop (R359 to R391). -/
structure LoopSt where
  mode : LoopMode := .open
  /-- Setpoint target and MAN_OUT in force; values waiting for the next period start (R380). -/
  sp : Int := 0
  man : Int := 0
  spReq : Option Int := none
  manReq : Option Int := none
  /-- The last mode request to arrive; true when it came from the host (R371, R375). -/
  modeReq : Option (LoopMode × Bool) := none
  abortReq : Bool := false
  /-- Coefficient words in force until the next period start, where a write was accepted (R377): window offset and word. -/
  coefOld : List (Nat × Word) := []
  /-- Node writes waiting for the next period start; gain-table nodes in force. -/
  nodeReq : List (Nat × Nat) := []
  nodes : SMap Nat := []
  /-- Period start of the last update or skipped update; none has come since the last step of device time (R834). -/
  lastStart : Option Time := none
  fresh : Bool := true
  /-- Period start of the last computed update (R415). -/
  lastUpd : Option Time := none
  r : Int := 0
  e : Int := 0
  eg : Int := 0
  y : Int := 0
  yf : Int := 0
  u : Int := 0
  i : Int := 0
  p : Int := 0
  d : Int := 0
  f : Int := 0
  c : Int := 0
  v : Int := 0
  raw : Int := 0
  out : Int := 0
  /-- A first y has been read; an output has been written (R372, R387). -/
  started : Bool := false
  wrote : Bool := false
  aborted : Bool := false
  stale : Bool := false
  frozen : Bool := false
  preClip : Bool := false
  rateLim : Bool := false
  clampHi : Bool := false
  clampLo : Bool := false
  /-- The previous computed period ended limited high or low (R369). -/
  limHi : Bool := false
  limLo : Bool := false
  /-- The next computed period recloses under R372. -/
  reclose : Bool := false
  age : Nat := 0
  lastSeq : Option Nat := none
  /-- Consecutive fresh samples with the same raw value (R383). -/
  sameRun : Nat := 0
  sameRaw : Int := 0
  ignored : Nat := 0
  frozenEp : Nat := 0
  staleEp : Nat := 0
  /-- 0x0905 raised since ABORTED was set. -/
  ignoredRaised : Bool := false
  /-- The update of the last period start is still running (R362). -/
  busyUntil : Option Time := none
  lrn : Learn := {}
  inj : Inject := {}
  deriving DecidableEq, Repr

/-- The loop engine: block 0x09. -/
structure LoopEng where
  loops : SMap LoopSt := []
  loadMax : Nat := 0
  /-- The eight multisine tables of R428: samples by table × 4096 + index, and lengths. -/
  ms : SMap Int := []
  msLen : SMap Nat := []
  deriving DecidableEq, Repr

/-! ## Axes (10_motion_profiles, 11_axis_io_limits_stall) -/

/-- AX_STATUS.MODE (R483). -/
inductive AxMode where
  | none | position | velocity | follow
  deriving DecidableEq, Repr

/-- AX_STATUS.STATE (R483). -/
inductive AxState where
  | disabled | standstill | moving | syncing | following | stopping | qstopping | qstopped | jogging | homing | brakeTest
  deriving DecidableEq, Repr

/-- A segment of a plan: its steps, and position, velocity, acceleration at its start and acceleration at its end. The
acceleration is linear in a segment (constant jerk). Units are counts and generator steps. -/
structure Seg where
  steps : Nat
  p : Rat
  v : Rat
  a0 : Rat
  a1 : Rat
  deriving DecidableEq, Repr

/-- What arrives at a generator before a step (R451). -/
inductive AxInput where
  /-- A COMMAND entry or AX_CMD write: 1 STOP, 2 QSTOP, 3 RESUME; true from the host. -/
  | command (op : Nat) (host : Bool)
  /-- A limit change: selector 0 VMAX, 1 ACC, 2 DEC, 3 STOP_DEC; a 48.16 value. -/
  | limit (sel : Nat) (v : Nat)
  /-- A target of kind 0 POSITION, 1 VELOCITY or 2 FOLLOW, its value in 2^-32 counts or 48.16. -/
  | target (kind : Nat) (v : Int)
  /-- A jog: 0 end, 1 positive, 2 negative (R471). -/
  | jog (dir : Nat)
  deriving DecidableEq, Repr

/-- AX_HOME_STATUS.STATE (R528). -/
inductive HomeState where
  | idle | moveOff | search | reverseSearch | approach | stopping | parking
  deriving DecidableEq, Repr

/-- One switch input of an axis (R511 to R515). -/
structure Switch where
  raw : Bool := false
  deb : Bool := false
  acting : Bool := false
  /-- Stamp of the last raw edge; none once the debounced state has followed. -/
  edge : Option Time := none
  /-- First raw transition to active since the input was last debounced inactive, and its actual position (R521). -/
  firstActive : Option (Time × Int) := none
  lastActive : Option (Time × Int) := none
  /-- Raw edge that began the present inactive state, and the actual position there (R514). -/
  lastInactive : Option (Time × Int) := none
  /-- Ignore window open, and the release position (R515). -/
  ignore : Bool := false
  release : Int := 0
  deriving DecidableEq, Repr

/-- One axis. Positions are in 2^-32 counts, velocities, accelerations and jerks in 2^-16 (R445). -/
structure Axis where
  st : AxState := .standstill
  mode : AxMode := .none
  pos : Int := 0
  vel : Int := 0
  acc : Int := 0
  jerk : Int := 0
  /-- The running plan, and the steps done in its first segment. -/
  plan : List Seg := []
  planStep : Nat := 0
  /-- What arrived since the last step, oldest first. -/
  inbox : List AxInput := []
  tgt : Int := 0
  tgtVel : Int := 0
  hasTgt : Bool := false
  /-- DEC in force, while a change of the register has not been judged or is deferred. -/
  decNow : Option Nat := none
  /-- AX_STATUS.DEC_DEFERRED (R465). -/
  decDeferred : Bool := false
  /-- FOLLOW samples s_{c-1} and s_c, and the cycle start T_c they belong to (R458). -/
  sPrev : Option Int := none
  sCur : Option Int := none
  /-- The reference of the interval before, for FSMOOTH. -/
  sPrev2 : Option Int := none
  ref : Int := 0
  refVel : Int := 0
  /-- Present catch-up plan in the frame of the reference (R459). -/
  excess : List Seg := []
  excessStep : Nat := 0
  excessVel : Int := 0
  /-- The sample released in the present cycle, and cycles without one (R458, R461). -/
  sNext : Option Int := none
  missing : Nat := 0
  /-- The excess is planned at the next step (R459). -/
  replan : Bool := false
  actual : Int := 0
  actVel : Int := 0
  trackErr : Int := 0
  followErr : Int := 0
  aborted : Bool := false
  /-- A host RESUME acts once the axis is QSTOPPED (R469). -/
  resumeReq : Bool := false
  trackFault : Bool := false
  followExtrap : Bool := false
  followLimited : Bool := false
  swLimit : Bool := false
  /-- Side of the software limit stopped at: true for SW_MAX. -/
  swHigh : Bool := false
  /-- The stop in progress ends on a software limit. -/
  swStop : Bool := false
  tgtClamped : Bool := false
  posWrapped : Bool := false
  inWindow : Bool := false
  atTarget : Bool := false
  atSpeed : Bool := false
  refused : Nat := 0
  /-- Rank of the stop in progress (R467); 0 none. -/
  stopRank : Nat := 0
  jogDir : Nat := 0
  /-- JOG_VEL as the jog in progress took it at its start (R481). -/
  jogVel : Nat := 0
  jogLast : Time := 0
  /-- AX_POS, AX_VEL, AX_ACC, AX_ACT latched by a read of AX_POS_LO (R480). -/
  latch : Option (Int × Int × Int × Int) := none
  /-- Axis I/O. -/
  stepPos : Int := 0
  lagMax : Nat := 0
  /-- Steps that have fallen due and wait: direction (true positive) and due instant (R493). -/
  stepQ : List (Bool × Time) := []
  /-- Instant at which the command velocity changed sign, while DIR has not followed (R492). -/
  dirCross : Option Time := none
  /-- Direction output, and the device time of its last change (R492). -/
  dirPos : Bool := true
  dirSince : Time := 0
  /-- Device time of the last rising STEP edge. -/
  lastStep : Option Time := none
  enc : Int := 0
  encBase : Int := 0
  actBase : Int := 0
  encLevels : Bool × Bool := (false, false)
  lastEnc : Option Time := none
  /-- Position at the last ENCZ edge. -/
  encZ : Int := 0
  /-- The last two fresh drive reports: value and sample time. -/
  rep : List (Int × Time) := []
  posValid : Bool := false
  homed : Bool := false
  stalled : Bool := false
  encErr : Bool := false
  actStale : Bool := false
  limSrcStale : Bool := false
  boostAtMax : Bool := false
  holding : Bool := false
  load : Nat := 0
  current : Nat := 0
  /-- Active time of IREF in the present period, in ns (R495). -/
  iref : Nat := 0
  /-- Time of the first sample of the running stall interval. -/
  stallFrom : Option Time := none
  /-- BRAKE_TEST: its start and TEST_I (R752). -/
  testFrom : Time := 0
  testI : Nat := 0
  /-- In STANDSTILL or QSTOPPED since this instant. -/
  stillFrom : Option Time := none
  limp : Switch := {}
  limn : Switch := {}
  home : Switch := {}
  encz : Switch := {}
  bothRaised : Bool := false
  /-- Raw switch edges since the last generator step: switch, active level, stamp. -/
  edges : List (Nat × Bool × Time) := []
  homeSt : HomeState := .idle
  /-- What follows a stop within homing: 0 SEARCH, 1 REVERSE_SEARCH, 2 APPROACH, 3 the end. -/
  homeNext : Nat := 0
  homeResult : Nat := 0
  homeReversed : Bool := false
  /-- Reference already taken in this homing, its direction (true positive), travel since START, second limit met. -/
  homeDone : Bool := false
  homeStart : Int := 0
  homeTravel : Int := 0
  homeLatch : Int := 0
  homeSeenActive : Bool := false
  /-- HOME found in methods 3 and 4, so the index is searched. -/
  homeIndex : Bool := false
  stalls : Nat := 0
  encErrs : Nat := 0
  limStops : Nat := 0
  /-- Setpoint to a remote drive is frozen after a stall (R508). -/
  spFrozen : Option Int := none
  deriving DecidableEq, Repr

/-- Motion: block 0x0A. -/
structure Motion where
  axes : SMap Axis := []
  /-- Instant of the last generator step: the model's own, it keeps two steps from falling at one microsecond (R444). -/
  genAt : Option Time := none
  deriving DecidableEq, Repr

/-! ## Ashlar (14_ashlar_line_ports) -/

/-- ASH_PORT_STATUS.STATE (R647). -/
inductive PortState where
  | off | enumerating | cycling | scheduleFault | linkDown
  deriving DecidableEq, Repr

/-- Where the enumeration of a port stands (R634). -/
inductive EnumPhase where
  /-- Waiting for ENUM_RETURN. -/
  | enum
  /-- Waiting for the REPORT part of a position. -/
  | report (pos part : Nat)
  deriving DecidableEq, Repr

/-- A CONFIG part of a recovery round (R636, R639): slot, byte offset and length in the passive segment, PART and PARTS. -/
structure CfgPart where
  slot : Nat
  off : Nat
  len : Nat
  part : Nat := 0
  parts : Nat := 1
  deriving DecidableEq, Repr

/-- What the course frames of a port cycle were built from, at the build instant (R615 step 1), when it has changed since: the start of
that cycle, the output words and what decides which of them the frames carry. -/
structure Built where
  start : Time
  out : SMap Word
  before : SMap Word
  aborted : List Nat
  forces : List Force
  mode : Mode
  runLive : Bool
  committed : Bool
  claim : Nat
  deriving DecidableEq, Repr

/-- One Ashlar port. -/
structure Port where
  st : PortState := .off
  linkUp : Bool := true
  ringBroken : Bool := false
  outranked : Bool := false
  /-- Break point of a ring: modules reached from the first end (R632). -/
  breakAfter : Nat := 0
  found : Nat := 0
  unexpected : Nat := 0
  loadUp : Nat := 0
  loadDown : Nat := 0
  applyEff : Nat := 0
  upStartEff : Nat := 0
  cycles : Nat := 0
  /-- Device time of the start of the running port cycle, and its CYCLE number; no port cycle has begun since the last step of
  device time (R834). -/
  cycleStart : Time := 0
  fresh : Bool := true
  cycle : Nat := 0
  /-- The enumeration running: its phase and the COUNT of the last ENUM_RETURN. -/
  enum : Option EnumPhase := none
  count : Nat := 0
  /-- COUNT of the ENUM_RETURN before, and the reports received (R634). -/
  prevCount : Option Nat := none
  got : List ModReport := []
  /-- Recovery round: its ENUM is still to send; CONFIG parts still to send; its start (R639). -/
  recEnum : Bool := false
  recover : List CfgPart := []
  lastRound : Nat := 0
  /-- Settings in force since the last enumeration (R646). -/
  etype : Nat := 0x88B5
  guard : Nat := 320
  lossCycles : Nat := 3
  lostN : Nat := 3
  holdWin : Nat := 8
  skew : Time := 0
  /-- Downstream wire time of a port cycle in 0.1 ns, course frames and safety containers (R618). -/
  downWire : Nat := 0
  /-- Highest CLAIM heard from another master, and its count of cycles since heard (R627). -/
  claimSeen : Nat := 0
  claimAge : Nat := 0
  /-- The port's shadow was cleared (R703), and port cycles since the active's last course frame. -/
  shadowLost : Bool := false
  shadowAge : Nat := 0
  /-- The frames of the next port cycle, once they are built and what they carry has changed (R615). -/
  built : Option Built := none
  deriving DecidableEq, Repr

/-- MS_STATUS.STATE (R649). -/
inductive ModState where
  | absent | found | operational | lost | mismatch
  deriving DecidableEq, Repr

/-- One half of a module's input area (R621, R622). -/
structure InHalf where
  bytes : List Nat := []
  time : Time := 0
  seq : Nat := 0
  deriving DecidableEq, Repr

/-- One module. -/
structure Mod where
  st : ModState := .absent
  /-- Port cycles since a frame arrived at each end; 256 when never (R632). -/
  missA : Nat := 256
  missB : Nat := 256
  lossActive : Bool := false
  claimTie : Bool := false
  linkErr : Bool := false
  sampleLate : Bool := false
  modFault : Bool := false
  age : Nat := 0
  seq : Nat := 0
  /-- Port cycles without an accepted frame (R625). -/
  missing : Nat := 0
  /-- No frame yet since it became OPERATIONAL (R621). -/
  first : Bool := true
  gotThis : Bool := false
  /-- CYCLE of the last accepted frame (R621), and port cycles since its CONFIG (R634). -/
  lastCycle : Option Nat := none
  conf : Nat := 0
  vendor : Nat := 0
  product : Nat := 0
  revision : Nat := 0
  serial : Nat := 0
  /-- Point types and widths of the report, for the metadata of class 0 tags (R532). -/
  points : List Nat := []
  /-- MS_LOSS_CFG in force since the last enumeration (R646). -/
  lossCfg : Word := 0
  slotA : Nat := 0
  slotB : Nat := 0
  sampleNs : Nat := 0
  delay : Nat := 0
  delayB : Nat := 0
  fwd : Nat := 0
  sendLat : Nat := 0
  linkA : Nat := 0
  linkB : Nat := 0
  caps : Nat := 0
  inBytes : Nat := 0
  outBytes : Nat := 0
  missed : Nat := 0
  lost : Nat := 0
  safeErr : Nat := 0
  window : Nat := 0
  outOfOrder : Nat := 0
  repeated : Nat := 0
  claimSeen : Nat := 0
  act : InHalf := {}
  inact : InHalf := {}
  hasData : Bool := false
  deriving DecidableEq, Repr

/-- A safety container copy waiting for its twin (R641, R673). -/
structure SafeCopy where
  msg : SafeMsg
  time : Time
  deriving DecidableEq, Repr

/-- Ashlar: block 0x03. -/
structure Ashlar where
  ports : SMap Port := []
  mods : SMap Mod := []
  /-- The output segments of Tarn 3 in force: words by Tarn 3 word address (R17 stage 5). -/
  out : SMap Word := []
  /-- The output segments as they stood when Run was entered: what frames carry until the first release (R306). -/
  before : SMap Word := []
  /-- Modules whose segment an ABORT has made passive: until an output commit releases a word of it, or Run is entered (R215). -/
  aborted : List Nat := []
  safe : List SafeCopy := []
  /-- SAFE_ID episodes of a single copy open (R642). -/
  safeEp : List Nat := []
  deriving DecidableEq, Repr

/-! ## Lintel (15_lintel_chain) -/

/-- LN_PORT_STATUS.NB_STATE (R680). -/
inductive NbState where
  | none | verifying | known | new | failed
  deriving DecidableEq, Repr

/-- Frames of one kind that wait for a Lintel port: type, words as they are shown, payload bytes of each, how many are still to go, whether
the first has gone, and the elapsed time from which they wait (R658). -/
structure LnFrame where
  type : Nat
  words : List Nat
  bytes : Nat
  count : Nat := 1
  begun : Bool := false
  since : Time := 0
  deriving DecidableEq, Repr

/-- One Lintel port: LIN_E, LIN_W, the ASH6 and the ASH7 branch. -/
structure LnPort where
  link : Bool := false
  nb : NbState := .none
  nbNum : Nat := 0
  nbFp : Nat := 0
  /-- LN_KNOWN_FP: kept (R664). -/
  knownFp : Nat := 0
  stomped : Nat := 0
  bulkBytes : Nat := 0
  /-- Frames that wait, oldest first; elapsed time at which the frame being sent ends, and from which a frame of priority 2 may begin
  under LN_BULK_SHARE (R658). -/
  waiting : List LnFrame := []
  busy : Time := 0
  bulkFrom : Time := 0
  /-- Elapsed time at which IDENT was asked, its nonce, and the frames of the answer that have come (R662). -/
  identFrom : Time := 0
  nonce : Nat := 0
  identGot : List Nat := []
  deriving DecidableEq, Repr

/-- A device heard on the chain (R661). -/
structure LnDev where
  dev : Nat
  fp : Nat := 0
  mode : Nat := 0
  links : List (Nat × Nat × Nat) := []
  last : Time := 0
  deriving DecidableEq, Repr

/-- SHAFT state (R668): none heard, in step, extrapolating, stale. -/
inductive ShaftState where
  | none | ok | extrap | stale
  deriving DecidableEq, Repr

/-- A published shaft state (R665): time, position in 2^-32 counts, velocity and acceleration in 2^-16, claim. -/
structure ShaftPub where
  t : Time
  p : Int
  v : Int
  a : Int
  claim : Nat
  src : Nat := 0
  deriving DecidableEq, Repr

/-- An import (R670, R671). -/
structure LnImport where
  value : DWord := 0
  time : Time := 0
  arrived : Time := 0
  got : Bool := false
  stale : Bool := false
  deriving DecidableEq, Repr

/-- A relay chunk waiting for its acknowledgement (R677, R678). -/
structure RelayChunk where
  cont : Nat
  chunk : Nat
  unit : Nat
  target : Nat := 0
  chunks : Nat := 1
  resends : Nat := 0
  sentAt : Time := 0
  deriving DecidableEq, Repr

/-- Lintel: block 0x04. -/
structure Lintel where
  ports : SMap LnPort := []
  devs : List LnDev := []
  /-- Recently completed (ORIGIN, SEQ), newest first, at most 256 of an origin (R659). -/
  seen : List (Nat × Nat) := []
  seq : Nat := 0
  numConflict : Bool := false
  topoDiff : Bool := false
  ringBroken : Bool := false
  /-- LN_STATUS.TOPO: 0 chain, 1 ring, 2 tree, 3 tree with ring (R680). -/
  topo : Nat := 0
  shaft : List ShaftPub := []
  shaftState : ShaftState := .none
  shaftLate : Nat := 0
  shaftAge : Nat := 0
  /-- By origin: claim_hi, and the instant of its last frame (R627, R669). -/
  claims : SMap (Nat × Time) := []
  /-- The last tick whose shaft value was consumed (R666). -/
  shaftTick : Option Time := none
  /-- Arrival minus T_n of the last publication, ns, and the highest since the last read (R679). -/
  pathNs : Nat := 0
  pathMax : Nat := 0
  imports : SMap LnImport := []
  /-- MGMT pieces being reassembled: (unit, sender, message, piece). -/
  pieces : List (Nat × Nat × Nat × Nat) := []
  relay : List RelayChunk := []
  /-- Containers that a link has abandoned, or that its neighbour has refused: (container, unit) (R678). -/
  given : List (Nat × Nat) := []
  /-- Chunks of a relayed container held: (container, chunk). -/
  store : List (Nat × Nat) := []
  /-- Containers that the host sent here and that go on: CONT_ID, TARGET_DEV, CHUNKS, LENGTH (R792). -/
  heads : List (Nat × Nat × Nat × Nat) := []
  safe : List SafeCopy := []
  lastHello : Time := 0
  /-- Tick of the last EXPORT_SEND. -/
  exportTick : Option Time := none
  deriving DecidableEq, Repr

/-! ## Mortar (16_mortar_redundancy) -/

/-- MR_STATUS.ROLE (R684). -/
inductive PairRole where
  | none | active | standby | yielding
  deriving DecidableEq, Repr

/-- MR_STATUS.PAIR_STATE (R724). -/
inductive PairState where
  | single | alone | identifying | partnerNew | mismatch | resyncing | synced | unsynced
  deriving DecidableEq, Repr

/-- A Mortar frame's content (R690 to R693, R713, R721): a heartbeat; entries of an epoch or a resync with SECTION, COUNT and FRAME; the end
of one with BYTES and CRC in the message; YIELD with LAST_EPOCH and MODE; IDENT and PACKAGE by their words. -/
inductive MorMsg where
  | beat (b : BeatMsg)
  | data (resync : Bool) (epoch sec frame : Nat) (items : List MirItem)
  | fin (resync : Bool) (m : EpochEndMsg)
  | yield (epoch mode : Nat)
  | ident (words : List Nat)
  | package (words : List Nat)
  deriving DecidableEq, Repr

/-- A frame that waits for MOR: its order, 0 a heartbeat, 1 an epoch and what is neither, 2 a resync; payload bytes, and CLAIM. -/
structure MorFrame where
  prio : Nat
  claim : Nat
  bytes : Nat
  msg : MorMsg
  since : Time := 0
  deriving DecidableEq, Repr

/-- Mortar: block 0x05. -/
structure Mortar where
  role : PairRole := .none
  state : PairState := .single
  /-- The unit's letter: true for B (R682). -/
  unitB : Bool := false
  /-- Level of the ACTIVE pin (R717). -/
  activePin : Bool := false
  /-- Axes whose local pins the device drives; those of the others hold their inactive levels (R490). -/
  pinsLive : List Nat := []
  link : Bool := false
  partnerKnown : Bool := false
  partnerHeard : Bool := false
  partnerFp : Nat := 0
  /-- MR_KNOWN_FP: kept (R716). -/
  knownFp : Nat := 0
  claim : Nat := 0
  claimSeen : Nat := 0
  missRun : Nat := 0
  hbMissed : Nat := 0
  /-- A heartbeat of the running tick counted; one of the tick before is judged missed (R688). -/
  hbThisTick : Bool := true
  hbDue : Bool := false
  /-- The last heartbeat that counted. -/
  beat : BeatMsg := {}
  inSync : Bool := false
  resyncReq : Bool := false
  /-- Snapshot epoch of the last resync sent or taken; a resync is complete since the last loss of sync (R711, R712). -/
  snapshot : Nat := 0
  snapDone : Bool := false
  /-- An ABORT of channel 1 has stopped the epochs (R696); one of channel 2 a resync (R712). -/
  epochStop : Bool := false
  resyncStop : Bool := false
  /-- Frames of the newest epoch under assembly: epoch, and (index, entries). -/
  staging : Nat × List (Nat × List MirItem) := (0, [])
  /-- Frames of the resync under assembly: its epoch, and (index, entries). -/
  staging2 : Nat × List (Nat × List MirItem) := (0, [])
  /-- MR_EPOCH, and the last epoch applied (standby). -/
  epoch : Nat := 0
  epochApplied : Nat := 0
  /-- ACK_EPOCH as the partner last reported it (R695). -/
  ackEpoch : Nat := 0
  epochBytes : Nat := 0
  epochMax : Nat := 0
  discarded : Nat := 0
  /-- Active: retained blocks at the last capture, and the epoch at which each last changed (R694). -/
  blkLast : SMap (BitVec 512) := []
  blkAt : SMap Nat := []
  /-- Round-robin position of the bins: loop and first bin of the next epoch (R694). -/
  binLoop : Nat := 0
  binFirst : Nat := 0
  /-- Standby: the mirrored retained blocks, and the tags, loop and axis records of the epoch applied (R697). -/
  mBlocks : SMap (BitVec 512) := []
  mItems : List MirItem := []
  binsFull : Bool := false
  /-- Bins applied since the resync: loop × 4,096 + bin (R700). -/
  binsSeen : SMap Bool := []
  takeovers : Nat := 0
  toTime : Time := 0
  toLag : Nat := 0
  /-- Frames that wait for MOR, oldest first, and the elapsed time at which the frame being sent ends (R690). -/
  waiting : List MorFrame := []
  busy : Time := 0
  /-- The IDENT challenge sent over MOR, and the frames of the answer that have come (R713). -/
  nonce : Nat := 0
  identGot : List Nat := []
  /-- YIELD is to be sent after the next epoch (R689). -/
  yieldReq : Bool := false
  /-- A takeover waits for the base cycle start, with its mode (R705). -/
  toPending : Option Mode := none
  /-- PAIR_WAIT_MS runs since this elapsed time (R685). -/
  waitFrom : Option Time := none
  /-- The shadow outputs are frozen: no loss clears them (R703). -/
  frozen : Bool := false
  /-- The partner has a forwarded package loaded; a package has been forwarded (R721). -/
  olcSent : Bool := false
  deriving DecidableEq, Repr

/-! ## Safety island (17_safety_island): block 0x0D and the island itself -/

/-- A safe function's state (R747). -/
inductive FnState where
  | off | on | ss1 | waitRestart
  deriving DecidableEq, Repr

/-- One channel of the island: held in reset, LOCKED, and the cause and detail of its lock (R763); 1 POWER_ON. -/
structure Chan where
  inReset : Bool := false
  locked : Bool := true
  cause : Nat := 1
  detail : Nat := 0
  deriving DecidableEq, Repr

/-- One channel A or B of a safe input. Levels are true for high, the non-demand (R739). -/
structure SafeLine where
  raw : Bool := false
  /-- The level that counts for demand and discrepancy (R739, R742). -/
  lvl : Bool := false
  /-- Samples for which the raw level has differed from it. -/
  run : Nat := 0
  /-- Under test by the running pulse of its own source (R744). -/
  test : Bool := false
  /-- Has followed every sample of the running pulse of another source (R745). -/
  follow : Bool := false
  deriving DecidableEq, Repr

/-- One safe input (R739 to R742). -/
structure SafeIn where
  a : SafeLine := {}
  b : SafeLine := {}
  demand : Bool := false
  /-- Sample at which the running disagreement began, and its fault taken. -/
  disc : Option Nat := none
  discFault : Bool := false
  lastDisc : Nat := 0
  demands : Nat := 0
  deriving DecidableEq, Repr

/-- One safe function and its output (R747 to R750). -/
structure SafeFn where
  st : FnState := .off
  /-- Whether a source demanded at the last judgement. -/
  dem : Bool := true
  /-- Sample at which SS1 was entered. -/
  ss1At : Nat := 0
  pinP : Bool := false
  pinW : Bool := false
  /-- Sample of the last change of a pin. -/
  pinAt : Nat := 0
  rb : Bool := false
  /-- Consecutive samples of read-back disagreement. -/
  mism : Nat := 0
  /-- A dark test runs: its start, and a sample of it has read off. -/
  dark : Option Nat := none
  darkSeen : Bool := false
  /-- The channel that the next or running test drops: false P, true W. -/
  darkCh : Bool := false
  /-- On-time since the last test, in samples. -/
  onTime : Nat := 0
  passed : Nat := 0
  abandoned : Nat := 0
  deriving DecidableEq, Repr

/-- One test-pulse source (R743 to R746). -/
structure SafeTp where
  pulses : Nat := 0
  untested : Nat := 0
  /-- Sample at which the last pulse began. -/
  start : Option Nat := none
  /-- The line read wrong at the last sample. -/
  bad : Bool := false
  deriving DecidableEq, Repr

/-- One brake (R751 to R755). Instants are samples. -/
structure SafeBrk where
  req : Bool := false
  testTag : Bool := false
  released : Bool := false
  changedAt : Nat := 0
  rb : Bool := false
  /-- The read-back has disagreed for 50 ms. -/
  mism : Bool := false
  /-- Start of the running test. -/
  test : Option Nat := none
  p0 : Int := 0
  dev : Nat := 0
  failed : Bool := false
  overdue : Bool := false
  lastPass : Nat := 0
  deriving DecidableEq, Repr

/-- One safety connection (R756 to R762). -/
structure SafeConn where
  timeout : Bool := true
  /-- Inbound: the last valid SAFE_SEQ; outbound: the last one sent. -/
  seq : Option Nat := none
  /-- Sample of the last valid pair. -/
  last : Nat := 0
  jumps : Nat := 0
  /-- Consecutive valid pairs. -/
  valid : Nat := 0
  data : Nat := 0
  deriving DecidableEq, Repr

/-- One record of the island's fault log (R770). -/
structure FaultRec where
  cause : Nat
  path : Nat
  channelW : Bool
  time : Time
  detail : Nat
  deriving DecidableEq, Repr

/-- The safety island: Tarn 5, channel P and channel W. No core command writes it. -/
structure Island where
  p : Chan := {}
  w : Chan := {}
  block : Option SafetyBlock := none
  /-- The next sample of 10 µs, counted since reset. -/
  now : Nat := 0
  ins : SMap SafeIn := []
  fns : SMap SafeFn := []
  tps : SMap SafeTp := []
  brks : SMap SafeBrk := []
  conns : SMap SafeConn := []
  /-- Newest first, at most 16. -/
  faults : List FaultRec := []
  /-- SF_LOCK.BY_W, and the sample of the last fault detected. -/
  byW : Bool := false
  faultAt : Option Nat := none
  eccCorr : Nat := 0
  /-- SF_RST (R772). -/
  rstResult : Nat := 0
  pressMs : Nat := 0
  /-- Consecutive checks of R732 without a heartbeat of P, without a toggle of W, with a disagreement, and the oscillator
  outside its limits at the last one. -/
  pLost : Nat := 0
  wLost : Nat := 0
  chanDis : Nat := 0
  oscBad : Bool := false
  deriving DecidableEq, Repr

/-! ## Updates, recovery and identity (18_update_and_identity) -/

/-- A settings copy (R795): values that the host changed and that outlive a restart. -/
structure Settings where
  lnFp : SMap Nat := []
  mrFp : Nat := 0
  pairWait : Option Word := none
  deriving DecidableEq, Repr

/-- The boot record in force (R778). Slots: false A, true B. -/
structure BootRec where
  seq : Nat := 0
  fwActive : Bool := false
  fwPrev : Option Bool := none
  cfgActive : Option Bool := none
  cfgPrev : Option Bool := none
  trial : Bool := false
  reqRecovery : Bool := false
  trialStarts : Nat := 0
  startFails : Nat := 0
  lastFail : Nat := 0
  /-- Settings copy of firmware slots A and B. -/
  setA : Option Bool := some false
  setB : Option Bool := none
  boots : Nat := 0
  minSec : Nat := 0
  /-- The owner table (R803): up to four fingerprints, first to last. -/
  owners : List Nat := []
  deriving DecidableEq, Repr

/-- UP_STATUS.STATE (R806). -/
inductive UpState where
  | none | receiving | rebuilding | verifying | held
  deriving DecidableEq, Repr

/-- The container of a destination (R791): 0 firmware, 1 configuration, 2 safety, 3 token, 4 owner table. -/
structure Download where
  st : UpState := .none
  cont : Nat := 0
  hdr : ContHdr := {}
  /-- Chunks held, chunk 0 among them. -/
  got : List Nat := []
  deriving DecidableEq, Repr

/-- Updates and identity: block 0x01 units 0 to 2. A slot that is none has a zero hash in the boot record. -/
structure Update where
  boot : BootRec := {}
  /-- The newest record of each boot-record copy (R778, R779). -/
  recA : BootRec := {}
  recB : BootRec := {}
  /-- The last start that reached step 4 did not reach step 12, for a reason that R140 does not list (R139, R160). -/
  startOpen : Bool := false
  fwA : Option Firmware := none
  fwB : Option Firmware := none
  cfgA : Option Image := none
  cfgB : Option Image := none
  safeA : Option SafetyBlock := none
  safeB : Option SafetyBlock := none
  /-- Settings copies A and B (R795). -/
  setA : Settings := {}
  setB : Settings := {}
  /-- What runs: the set, the image, their slots, the safety slot found and the settings copy in use. -/
  runFw : Option Firmware := none
  runCfg : Option Image := none
  runFwSlot : Bool := false
  runCfgSlot : Bool := false
  safeSlot : Bool := false
  setCopy : Bool := false
  /-- Versions of channel P firmware and channel W schema that run on the island (R786). -/
  islandP : Nat := 0
  islandW : Nat := 0
  pendingAct : Bool := false
  down : SMap Download := []
  /-- Bytes that have arrived of chunks still incomplete: CONT_ID, CHUNK, OFFSET, count (R790). -/
  parts : List (Nat × Nat × Nat × Nat) := []
  /-- UP_STATUS (R806): the container last named, its kind, and the last refusal. -/
  named : Nat := 0
  namedKind : Nat := 0
  refuse : Nat := 0
  refusals : Nat := 0
  relayed : Nat := 0
  abandoned : Nat := 0
  dbgLevel : Nat := 0
  /-- Ticks left of the debug token's lifetime. -/
  dbgTicks : Nat := 0
  dbgNonce : Nat := 0
  retries : Nat := 0
  deriving DecidableEq, Repr

/-! ## Memory and power (19_pins_power_package) -/

/-- Memory: block 0x0E, the DRAM tag store and Tarn 1. -/
structure Mem where
  /-- Tarn 1 bytes. -/
  tarn1 : SMap Byte := []
  /-- Words that copy-outs have written at the instant `wroteAt`, each with the highest tile that wrote it (R232). -/
  wrote : List (Nat × Nat) := []
  wroteAt : Time := 0
  /-- Tag store values and metadata (R23, R531). -/
  tags : SMap DWord := []
  meta_ : SMap DWord := []
  eccCorr : Nat := 0
  eccUncorr : Nat := 0
  eccAddr : Nat := 0
  collisions : SMap Nat := []
  dramMib : Nat := 0
  nvm0 : Nat := 0
  nvm1 : Nat := 0
  deriving DecidableEq, Repr

/-- Power, pace governor and temperature: block 0x0F. -/
structure Power where
  /-- Last VCORE sample in mV and its band (R817, R831). -/
  vcore : Nat := 750
  band : Nat := 0
  /-- Consecutive samples below 0.62 V. -/
  below : Nat := 0
  uvResets : Nat := 0
  /-- In undervoltage reset until VCORE is restored. -/
  uv : Bool := false
  paceReq : Bool := false
  /-- The throttle at the governor's last five samples, newest first, in tenths of a per cent. -/
  last5 : List Nat := []
  /-- Episodes of 0x0F06 and 0x0F07 open, and the elapsed time since which the throttle has been zero (R818, R833). -/
  ep06 : Bool := false
  ep07 : Bool := false
  zeroFrom : Option Time := none
  /-- Sensors, and the highest junction since the last read, in 1/16 °C. -/
  temps : List Int := [400, 400, 400, 400, 400, 400, 400, 400]
  tempMax : Int := 0
  /-- Episodes of R819: the threshold that started the first, and the others. -/
  ep05 : Option Int := none
  ep41 : Bool := false
  ep81 : Bool := false
  hold : Bool := false
  vkaA : Bool := true
  vkaB : Bool := true
  feedA : Bool := true
  feedB : Bool := true
  kaLost : Bool := false
  on : Bool := true
  /-- TEST_EN holds the device in reset (R827); levels of RESET_OUT_N and SVC_PHY_RST_N (R810, R814, R825). -/
  testHold : Bool := false
  resetN : Bool := false
  phyN : Bool := false
  deriving DecidableEq, Repr

/-! ## What a command emits -/

/-- The header of a management datagram that the device sends (R165), with the host address; a SECURE payload's ciphertext and tag
(R181). -/
structure DgHdr where
  dest : Nat
  type : Nat
  source : Nat
  session : Nat
  seq : Nat
  frag : Nat
  frags : Nat
  length : Nat
  sealed : Option Nat := none
  deriving DecidableEq, Repr

/-- An Ashlar frame's port, EtherType and header (R619, R620). -/
structure AshHdr where
  port : Nat
  etype : Nat
  type : Nat
  length : Nat
  claim : Nat := 0
  cycle : Nat := 0
  frame : Nat := 0
  frames : Nat := 1
  flags : Nat := 0
  deriving DecidableEq, Repr

/-- What the last command put on a pin, a link or a session: the machine's outputs. -/
inductive Out where
  /-- A response: session, request, opcode, status, body. -/
  | resp (sess req op status : Nat) (body : List Nat)
  | notify (sess : Nat) (n : Notif)
  /-- The header of a datagram that carries the message named next. -/
  | dgram (h : DgHdr)
  /-- An answer of the network functions of SVC: 1 ARP, 2 NDP, 3 echo (R162), and the host. -/
  | net (kind dest : Nat)
  /-- A datagram outside sessions: its kind (R166) and words. -/
  | datagram (kind : Nat) (words : List Nat)
  /-- A course frame with the output words of its segments. -/
  | course (h : AshHdr) (words : List (Nat × Word))
  /-- Another Ashlar frame with its fields after the header. -/
  | ash (h : AshHdr) (words : List Nat)
  /-- A Lintel frame over a unit: EtherType, TYPE, LENGTH, words. -/
  | lintel (unit etype type length : Nat) (words : List Nat)
  /-- A frame that was forwarded over a unit ends with an inverted FCS (R659). -/
  | stomped (unit type : Nat)
  /-- A Mortar frame: EtherType, CLAIM, content. -/
  | mor (etype claim : Nat) (m : MorMsg)
  /-- A PTP message on a port. -/
  | ptp (port : Nat) (m : PtpMsg)
  /-- The tick pulse with its number within the second. -/
  | tick (n : Nat)
  /-- A pin's edge: 0 TOUT, 4 safe output P, 5 W, 6 TP, 7 brake, 8 ACTIVE, 9 RESET_OUT_N, 10 SVC_PHY_RST_N; its index and level. -/
  | pin (kind n : Nat) (level : Bool)
  /-- An edge of a local pin set at its instant: 1 STEP, 2 DIR, 3 EN; the level (R488, R491). -/
  | axPin (kind pinset : Nat) (level : Bool) (t : Time)
  /-- IREF of a pin set has a new active time in each period of 1,000 ns (R495). -/
  | iref (pinset active : Nat)
  deriving DecidableEq, Repr

/-! ## The whole state -/

/-- Everything but the island: the core, Plumb and the interfaces. -/
structure Core where
  /-- Registers that hold a word, by address; each entry is the word XOR its Cold value, so that reset lists none. -/
  regs : SMap Word := []
  /-- Cold values that the running image placed (R43, and "image" entries): word XOR table Cold value. -/
  img : SMap Word := []
  host : HostSt := {}
  md : ModeSt := {}
  plumb : Plumb := {}
  spr : Recorder := {}
  cap : Capture := {}
  fab : Fabric := {}
  wq : Queues := {}
  prog : Prog := {}
  lp : LoopEng := {}
  mot : Motion := {}
  ash : Ashlar := {}
  ln : Lintel := {}
  mr : Mortar := {}
  up : Update := {}
  mem : Mem := {}
  pw : Power := {}
  /-- The island's mirror as last copied (R770). -/
  mirror : Island := {}
  /-- What the last command emitted, oldest first. -/
  out : List Out := []
  /-- The model's own field: free values taken so far (notes/assumptions/1.md). -/
  free : Nat := 0
  deriving DecidableEq, Repr

/-- The block: the core and the island. -/
structure Dev where
  core : Core := {}
  isl : Island := {}
  deriving DecidableEq, Repr

/-- The state of the model: the block and the commands that wait. -/
structure State where
  dev : Dev := {}
  pending : List Instr := []
  deriving DecidableEq, Repr

/-- Reasons a run can stop. No command of this model faults: the spec reports errors as statuses, events or states. -/
inductive Fault where
  /-- Raised by nothing: a place for a stop the spec would call a fault. Safe. -/
  | none
  deriving DecidableEq, Repr

/-- Why a command has no meaning. -/
inductive Refusal where
  /-- An arm not modelled yet, by its mnemonic. Safe: the run stops. -/
  | notModelled (mnemonic : String)
  /-- An op word that the image check refuses and the spec gives no effect (R241, R836 to R840). Raised by the fabric ops.
  Safe: the run stops. -/
  | illFormedOp
  deriving DecidableEq, Repr

/-- The machine right after reset: every register at its Cold value, nothing powered away, no image placed. -/
def State.reset : State := {}

end Sys2Proof.Machine
end

