-- ==== Sys2Proof/Machine/Ops.lean ====
section
/-!
DEFINITION. Machine/Ops.lean: the named operations that every meaning is built from: fields of words, the register file,
time, events and notifications, the tag store, Tarn 1, and the lifts from a block's state to the whole state.
-/
namespace Sys2Proof.Machine

/-! ## Numbers -/

/-- Bits hi:lo of a word. -/
def bits (w : Word) (hi lo : Nat) : Nat := (w.toNat >>> lo) % 2 ^ (hi + 1 - lo)

/-- One bit of a word. -/
def bit (w : Word) (n : Nat) : Bool := w.getLsbD n

/-- An n-bit field read as two's complement. -/
def sx (n v : Nat) : Int := if v < 2 ^ (n - 1) then (v : Int) else (v : Int) - (2 ^ n : Nat)

/-- A number as a word, modulo 2^32. -/
def wd (n : Nat) : Word := BitVec.ofNat 32 n

/-- An integer as a word, modulo 2^32. -/
def wi (n : Int) : Word := BitVec.ofInt 32 n

/-- A flag as bit n of a word's number. -/
def flg (b : Bool) (n : Nat) : Nat := if b then 2 ^ n else 0

/-- Limits an integer to a range. -/
def clampI (lo hi x : Int) : Int := if x < lo then lo else if hi < x then hi else x

/-- Limits a count to 32 bits. -/
def sat32 (n : Nat) : Nat := min n 0xFFFFFFFF

/-- Absolute value of an integer as a natural number. -/
def absN (x : Int) : Nat := x.natAbs

/-- The largest r with r² ≤ n, by bisection on `f` bits. -/
def isqrtAux : Nat → Nat → Nat → Nat
  | 0, _, r => r
  | f + 1, n, r => let c := r + 2 ^ f; isqrtAux f n (if c * c ≤ n then c else r)

/-- Integer square root. -/
def isqrt (n : Nat) : Nat := isqrtAux (Nat.log2 n / 2 + 1) n 0

/-- Integer division rounding up. -/
def cdiv (a b : Nat) : Nat := (a + b - 1) / b

/-! ## Time (R59) -/

/-- One nanosecond, in units of 2^-16 ns. -/
def ns (n : Nat) : Time := n * 65536
/-- One second. -/
def second : Time := ns 1000000000
/-- One tick of 15,625 ns (R65). -/
def tickLen : Time := ns 15625
/-- One microsecond. -/
def us : Time := ns 1000
/-- One millisecond. -/
def ms : Time := ns 1000000

/-- Whole seconds of a device time. -/
def secOf (t : Time) : Nat := t / second
/-- Nanoseconds within the second. -/
def nsOf (t : Time) : Nat := (t % second) / 65536
/-- Fraction below the nanosecond, 16 bits. -/
def fracOf (t : Time) : Nat := t % 65536
/-- Ticks since second 0 (R66). -/
def tickOf (t : Time) : Nat := t / tickLen

/-! ## Lifts -/

/-- Applies a function to the core and leaves the island as it is. -/
def Dev.onCore (f : Core → Core) (d : Dev) : Dev := { d with core := f d.core }

/-- Forgets what the last command emitted. -/
def Core.quiet (c : Core) : Core := { c with out := [] }

/-- Adds an output of this command. -/
def Core.emit (o : Out) (c : Core) : Core := { c with out := c.out ++ [o] }

/-- The effect of a command that acts on the core alone: a next state, the queue and the island untouched. -/
def coreCmd (f : Core → Core) (s : State) : Host.Outcome State Fault Refusal :=
  .next { s with dev := { s.dev with core := f s.dev.core.quiet } }

/-- The effect of a command that acts on core and island: a next state, the queue untouched. -/
def devCmd (f : Dev → Dev) (s : State) : Host.Outcome State Fault Refusal :=
  .next { s with dev := f (s.dev.onCore Core.quiet) }

/-- Takes the next free value (notes/assumptions/1.md). -/
def Core.freeWord (c : Core) : Word × Core := (Config.freeWord c.free, { c with free := c.free + 1 })
def Core.freeBit (c : Core) : Bool × Core := (Config.freeBit c.free, { c with free := c.free + 1 })
def Core.freeNat (c : Core) : Nat × Core := (Config.freeNat c.free, { c with free := c.free + 1 })

def Core.onHost (f : HostSt → HostSt) (c : Core) : Core := { c with host := f c.host }
def Core.onMd (f : ModeSt → ModeSt) (c : Core) : Core := { c with md := f c.md }
def Core.onPlumb (f : Plumb → Plumb) (c : Core) : Core := { c with plumb := f c.plumb }
def Core.onRec (f : Recorder → Recorder) (c : Core) : Core := { c with spr := f c.spr }
def Core.onCap (f : Capture → Capture) (c : Core) : Core := { c with cap := f c.cap }
def Core.onFab (f : Fabric → Fabric) (c : Core) : Core := { c with fab := f c.fab }
def Core.onWq (f : Queues → Queues) (c : Core) : Core := { c with wq := f c.wq }
def Core.onProg (f : Prog → Prog) (c : Core) : Core := { c with prog := f c.prog }
def Core.onJr (f : Journal → Journal) (c : Core) : Core := { c with prog := { c.prog with jr := f c.prog.jr } }
def Core.onOlc (f : Olc → Olc) (c : Core) : Core := { c with prog := { c.prog with olc := f c.prog.olc } }
def Core.onMr (f : Mortar → Mortar) (c : Core) : Core := { c with mr := f c.mr }
def Core.onUp (f : Update → Update) (c : Core) : Core := { c with up := f c.up }

/-- A boot-record change (R779): written first to the copy whose newest valid record has the lower SEQ, with SEQ one above the
highest, then to the other, one higher again; the last is in force. -/
def Core.onBoot (f : BootRec → BootRec) (c : Core) : Core :=
  c.onUp fun u =>
    let b1 := { f u.boot with seq := (u.boot.seq + 1) % 2 ^ 32 }
    let b2 := { f u.boot with seq := (u.boot.seq + 2) % 2 ^ 32 }
    let a := decide (u.recA.seq ≤ u.recB.seq)
    { u with boot := b2, recA := if a then b1 else b2, recB := if a then b2 else b1 }
def Core.onPw (f : Power → Power) (c : Core) : Core := { c with pw := f c.pw }
def Core.onMem (f : Mem → Mem) (c : Core) : Core := { c with mem := f c.mem }
def Core.onAshSt (f : Ashlar → Ashlar) (c : Core) : Core := { c with ash := f c.ash }
def Core.onLn (f : Lintel → Lintel) (c : Core) : Core := { c with ln := f c.ln }

def Core.tile (c : Core) (t : Nat) : Tile := SMap.get {} c.fab.tiles t
def Core.onTile (t : Nat) (f : Tile → Tile) (c : Core) : Core :=
  c.onFab fun b => { b with tiles := SMap.upd {} b.tiles t f }
def Core.item (c : Core) (i : Nat) : ItemSt := SMap.get {} c.wq.items i
def Core.onItem (i : Nat) (f : ItemSt → ItemSt) (c : Core) : Core :=
  c.onWq fun q => { q with items := SMap.upd {} q.items i f }
def Core.loop (c : Core) (n : Nat) : LoopSt := SMap.get {} c.lp.loops n
def Core.onLoop (n : Nat) (f : LoopSt → LoopSt) (c : Core) : Core :=
  { c with lp := { c.lp with loops := SMap.upd {} c.lp.loops n f } }
def Core.axis (c : Core) (a : Nat) : Axis := SMap.get {} c.mot.axes a
def Core.onAxis (a : Nat) (f : Axis → Axis) (c : Core) : Core :=
  { c with mot := { c.mot with axes := SMap.upd {} c.mot.axes a f } }
def Core.stream (c : Core) (k : Nat) : Stream := SMap.get {} c.spr.streams k
def Core.onStream (k : Nat) (f : Stream → Stream) (c : Core) : Core :=
  c.onRec fun r => { r with streams := SMap.upd {} r.streams k f }
def Core.trig (c : Core) (x : Nat) : Trig := SMap.get {} c.cap.trig x
def Core.onTrig (x : Nat) (f : Trig → Trig) (c : Core) : Core :=
  c.onCap fun p => { p with trig := SMap.upd {} p.trig x f }
def Core.unit (c : Core) (u : Nat) : CapUnit := SMap.get {} c.cap.units u
def Core.onUnit (u : Nat) (f : CapUnit → CapUnit) (c : Core) : Core :=
  c.onCap fun p => { p with units := SMap.upd {} p.units u f }
def Core.port (c : Core) (p : Nat) : Port := SMap.get {} c.ash.ports p
def Core.onPort (p : Nat) (f : Port → Port) (c : Core) : Core :=
  c.onAshSt fun a => { a with ports := SMap.upd {} a.ports p f }
def Core.mod (c : Core) (m : Nat) : Mod := SMap.get {} c.ash.mods m
def Core.onMod (m : Nat) (f : Mod → Mod) (c : Core) : Core :=
  c.onAshSt fun a => { a with mods := SMap.upd {} a.mods m f }
def Core.lnPort (c : Core) (u : Nat) : LnPort := SMap.get {} c.ln.ports u
def Core.onLnPort (u : Nat) (f : LnPort → LnPort) (c : Core) : Core :=
  c.onLn fun a => { a with ports := SMap.upd {} a.ports u f }
def Core.session (c : Core) (s : Nat) : Session := SMap.get {} c.host.sess s
def Core.onSession (s : Nat) (f : Session → Session) (c : Core) : Core :=
  c.onHost fun h => { h with sess := SMap.upd {} h.sess s f }
def Core.ptpPort (c : Core) (p : Nat) : PtpPort := SMap.get {} c.plumb.ports p
def Core.onPtpPort (p : Nat) (f : PtpPort → PtpPort) (c : Core) : Core :=
  c.onPlumb fun b => { b with ports := SMap.upd {} b.ports p f }
def Core.tin (c : Core) (n : Nat) : Tin := SMap.get {} c.plumb.tin n
def Core.onTin (n : Nat) (f : Tin → Tin) (c : Core) : Core :=
  c.onPlumb fun b => { b with tin := SMap.upd {} b.tin n f }
def Core.tout (c : Core) (m : Nat) : Tout := SMap.get {} c.plumb.tout m
def Core.onTout (m : Nat) (f : Tout → Tout) (c : Core) : Core :=
  c.onPlumb fun b => { b with tout := SMap.upd {} b.tout m f }

/-- The running configuration image, or an empty one (R257). -/
def Core.image (c : Core) : Image := c.up.runCfg.getD {}

/-- Device time (R59). -/
def Core.now (c : Core) : Time := c.plumb.now

/-- Whether the device is in Run or Service. -/
def Core.running (c : Core) : Bool := c.md.mode == .run || c.md.mode == .service

/-! ## The register file (R30 to R34) -/

/-- The bits of a field in its register. -/
def Fld.mask (f : Fld) : Word := wd ((2 ^ (f.hi + 1 - f.lo) - 1) * 2 ^ f.lo)

/-- The registers of a block's page beside the header. -/
def blockDefs : Nat → List RegDef
  | 0 => regs_blk0 | 1 => regs_blk1 | 2 => regs_blk2 | 3 => regs_blk3 | 4 => regs_blk4 | 5 => regs_blk5 | 6 => regs_blk6
  | 7 => regs_blk7 | 8 => regs_blk8 | 9 => regs_blk9 | 11 => regs_blkB | 12 => regs_blkC | 13 => regs_blkD
  | 14 => regs_blkE | 15 => regs_blkF | _ => []

/-- What an address names: the address of the register's first instance, both indices, the word, and the window's instance. -/
structure Hit where
  key : Nat
  i : Nat := 0
  j : Nat := 0
  w : Nat := 0
  inst : Nat := 0
  flds : List Fld := []
  deriving DecidableEq, Repr

/-- Whether an offset lies in a register, and at which indices and word. -/
def RegDef.locate (d : RegDef) (off : Nat) : Option (Nat × Nat × Nat) :=
  if off < d.off then none else
  let r := off - d.off
  let i := if d.s1 = 0 then 0 else r / d.s1
  let r1 := if d.s1 = 0 then r else r % d.s1
  let j := if d.s2 = 0 then 0 else r1 / d.s2
  let r2 := if d.s2 = 0 then r1 else r1 % d.s2
  if (d.s1 = 0 ∨ i < d.n1) ∧ (d.s2 = 0 ∨ j < d.n2) ∧ r2 < 4 * d.words then some (i, j, r2 / 4) else none

/-- The register at an offset of a page or window. -/
def findReg (base inst off : Nat) : List RegDef → Option Hit
  | [] => none
  | d :: l => match d.locate off with
    | some (i, j, w) => some { key := base + d.off, i := i, j := j, w := w, inst := inst, flds := d.flds }
    | none => findReg base inst off l

/-- The register that an address names (R30, R31); none at a reserved address or an unallocated offset (R32). -/
def regAt (a : Nat) : Option Hit :=
  if a % 4 ≠ 0 then none
  else if a < 0x100000 then
    let b := a / 0x10000
    let off := a % 0x10000
    match findReg (b * 0x10000) 0 off regs_hdr with
    | some h => some h
    | none => findReg (b * 0x10000) 0 off (blockDefs b)
  else if 0x01000000 ≤ a ∧ a < 0x01040000 then findReg 0x01000000 ((a - 0x01000000) / 0x100) (a % 0x100) regs_loop
  else if 0x02000000 ≤ a ∧ a < 0x02018000 then
    findReg 0x02000000 ((a - 0x02000000) / 0x200) (a % 0x200) regs_axis
  else if 0x03000000 ≤ a ∧ a < 0x03004000 then findReg 0x03000000 ((a - 0x03000000) / 0x100) (a % 0x100) regs_cap
  else if 0x03100000 ≤ a ∧ a < 0x03101000 then
    findReg 0x03100000 ((a - 0x03100000) / 0x100) (a % 0x100) regs_stream
  else if 0x04000000 ≤ a ∧ a < 0x04040000 then findReg 0x04000000 ((a - 0x04000000) / 0x40) (a % 0x40) regs_mod
  else none

/-- The Cold value of a register's fields (R3). -/
def fldsCold (l : List Fld) : Word := l.foldl (fun w f => w ||| wd (f.cold * 2 ^ f.lo)) 0

/-- The Cold value of the word at an address, image defaults included. -/
def coldOf (a : Nat) : Word :=
  match regAt a with
  | some h =>
    if h.key % 0x10000 = 0 ∧ h.key < 0x100000 then wd (h.key * 0x100 + 0x100)
    else fldsCold h.flds
  | none => 0

/-- Cold value with what the running image placed. -/
def Core.imgWord (c : Core) (a : Nat) : Word := SMap.get 0 c.img a ^^^ coldOf a

/-- Registers held separately for each session, with the bits that they use. -/
def selMask (key : Nat) : Option Word :=
  if key = A.WQ_SEL then some 0xFFFF
  else if key = A.WQ_REL_SEC ∨ key = A.WQ_REL_NS ∨ key = A.CP_AP_OFFSET then some 0xFFFFFFFF
  else if key = A.LE_TBL_SEL ∨ key = A.LE_BIN_SEL then some 0x3FF
  else if key = A.LE_MS_SEL then some 7
  else if key = A.RR_META_TAG ∨ key = A.RR_ENT_SEL then some 0x1FFFFFF
  else if key = A.RR_AP_SEL then some 0xF
  else if key = A.CP_AP_SEL then some 0xF3F
  else none

/-- Bits that a whole-word register uses; the others are reserved (R4). -/
def usedMask (h : Hit) : Word :=
  if h.key = A.CP_TAG ∨ h.key = A.TR_TAG ∨ h.key = A.RC_SRC_TAG ∨ h.key = A.PG_FORCE_TAG then 0x1FFFFFF
  else if h.key = A.TR_CHAIN then 0x3FF007F
  else if h.key = A.CP_TRIGGER then 0x8000007F
  else if h.key = A.ASH_ETYPE ∨ h.key = A.AX_STEP_LAG_MAX then 0xFFFF
  else if h.key = A.MS_LOSS_CFG then 0x3FFFF
  else if h.key = A.LE_MS_LEN then 0x1FFF
  else if h.key = A.LE_TBL_NODE ∧ h.i = 32 then 0xFFFF
  else (selMask h.key).getD 0xFFFFFFFF

/-- The stored word takes the bits that the mask covers in writable fields; W1C bits written 1 clear. -/
def storeWrite (h : Hit) (old v mask : Word) (wo : Bool) : Word :=
  let of_ (p : Acc → Bool) : Word := h.flds.foldl (fun m f => if p f.acc then m ||| f.mask else m) 0
  let wm := mask &&& usedMask h &&& of_ fun x => x == .rw || x == .rwo || x == .rws || (wo && x == .wo)
  ((old &&& ~~~ wm) ||| (v &&& wm)) &&& ~~~ (v &&& mask &&& of_ fun x => x == .w1c)

/-- Two halves of a word as signed values. -/
def loQ (w : Word) : Int := sx 16 (bits w 15 0)
def hiQ (w : Word) : Int := sx 16 (bits w 31 16)

/-- Two signed halves as a word, the first in bits 15:0. -/
def halves (lo hi : Int) : Word := wd ((hi % 65536).toNat * 65536 + (lo % 65536).toNat)

/-- The stored word of a register. -/
def Core.reg (c : Core) (a : Nat) : Word := SMap.get 0 c.regs a ^^^ c.imgWord a

/-- Writes the stored word of a register. -/
def Core.setReg (c : Core) (a : Nat) (v : Word) : Core := { c with regs := SMap.set 0 c.regs a (v ^^^ c.imgWord a) }

/-- The image places a register's word: it becomes the Cold and the present value (R43). -/
def Core.placeReg (c : Core) (a : Nat) (v : Word) : Core := { c with img := SMap.set 0 c.img a (v ^^^ coldOf a) }

/-- Stored register as a number. -/
def Core.regN (c : Core) (a : Nat) : Nat := (c.reg a).toNat
/-- A field of a stored register. -/
def Core.fld (c : Core) (a hi lo : Nat) : Nat := bits (c.reg a) hi lo
/-- A flag of a stored register. -/
def Core.flag (c : Core) (a n : Nat) : Bool := bit (c.reg a) n
/-- Two stored words as an unsigned 64-bit number, low word first. -/
def Core.reg64 (c : Core) (a : Nat) : Nat := c.regN a + c.regN (a + 4) * 2 ^ 32
/-- Two stored words as a signed number. -/
def Core.sreg64 (c : Core) (a : Nat) : Int := sx 64 (c.reg64 a)
/-- A stored word as a signed number. -/
def Core.sreg (c : Core) (a : Nat) : Int := (c.reg a).toInt

/-- Adds to a counter register; saturates at 0xFFFF_FFFF. -/
def Core.bump (c : Core) (a : Nat) (n : Nat := 1) : Core := c.setReg a (wd (sat32 (c.regN a + n)))
/-- Adds to a counter register that wraps. -/
def Core.bumpWrap (c : Core) (a : Nat) (n : Nat := 1) : Core := c.setReg a (c.reg a + wd n)
/-- Replaces bits hi:lo of a stored register. -/
def Core.setFld (c : Core) (a hi lo v : Nat) : Core :=
  let m := wd ((2 ^ (hi + 1 - lo) - 1) * 2 ^ lo)
  c.setReg a ((c.reg a &&& ~~~ m) ||| (wd (v * 2 ^ lo) &&& m))

/-- Address of a loop's register from the address of loop 0's. -/
def lpA (key n : Nat) : Nat := key + 0x100 * n
def axA (key a : Nat) : Nat := key + 0x200 * a
def cpA (key u : Nat) : Nat := key + 0x100 * u
def rsA (key k : Nat) : Nat := key + 0x100 * k
def msA (key m : Nat) : Nat := key + 0x40 * m

/-! ## Paths, events and notifications (R16, R25, R199 to R206) -/

/-- A management path: block, unit, channel (R25). -/
def path (b u ch : Nat) : Nat := b * 2 ^ 24 + u * 2 ^ 12 + ch
/-- All units, or all channels. -/
def allOf : Nat := 0xFFF

/-- Elapsed time of the last event of a code on a path (R833). -/
def lastEvent (c : Core) (code p : Nat) : Option Time :=
  (c.host.lastEv.find? (fun e => e.1 == (code, p))).map Prod.snd

/-- Puts a notification in its session's queue, or counts it lost (R205). `full` raises 0x0123 at the start of an episode. -/
def Core.queueNotif (c : Core) (sub : Sub) (n : Notif) : Core × Bool :=
  let s := c.session sub.sess
  if 64 ≤ s.queue.length then
    let c1 := c.onHost fun h =>
      { h with subs := h.subs.map fun x => if x.id = sub.id then { x with lost := x.lost + 1 } else x }
    let c2 := (c1.bump (A.HA_SESS_LOST + 0x20 * sub.sess)).onSession sub.sess fun x => { x with losing := true }
    (c2, !s.losing)
  else
    let c1 := c.onSession sub.sess fun x => { x with queue := x.queue ++ [{ n with lost := sub.lost }], losing := false }
    (c1.onHost fun h => { h with subs := h.subs.map fun x =>
      if x.id = sub.id then { x with lost := 0, nseq := x.nseq + 1 } else x }, false)

/-- An event record enters the log, the block header and EVT_PEND (R36, R37, R206). -/
def Core.logEvent (c : Core) (code p : Nat) : EvRec × Core :=
  let r : EvRec := { index := c.host.logNext, code := code, path := p, time := c.now }
  let b := code / 256
  let c1 := c.onHost fun h => { h with
    log := (r :: h.log).take 512, logNext := h.logNext + 1,
    lastEv := ((code, p), c.plumb.elapsed) :: h.lastEv.filter (fun e => e.1 != (code, p)) }
  let evt := c1.reg (b * 0x10000 + 0x8)
  let c2 := c1.setReg (b * 0x10000 + 0x8) (wd (min (bits evt 31 16 + 1) 0xFFFF * 65536 + code))
  (r, if 0x40 ≤ code % 256 then c2.setReg (b * 0x10000 + 0x4) (c2.reg (b * 0x10000 + 0x4) ||| 0x100) else c2)

/-- Whether an event subscription selects a record (R202). -/
def Sub.wants (s : Sub) (code : Nat) : Bool :=
  s.kind == 1 && s.blockMask.testBit (code / 256) && decide (s.minBand * 0x40 ≤ code % 256)

/-- Delivers a record to the event subscriptions; answers the sessions that began to lose. -/
def Core.deliver (r : EvRec) : List Sub → Core → Core × List Nat
  | [], c => (c, [])
  | s :: l, c =>
    if s.wants r.code then
      let cur := (c.host.subs.find? (fun x => x.id == s.id)).getD s
      let (c1, began) := c.queueNotif cur { sub := s.id, kind := 1, nseq := cur.nseq, lost := cur.lost, recs := [r], time := c.now }
      let (c2, ls) := Core.deliver r l c1
      (c2, if began then s.sess :: ls else ls)
    else Core.deliver r l c

/-- Each session that began to lose raises 0x0123, which is an event like any other: its delivery may let further sessions lose, each
once at most (R205). -/
def Core.raiseLosses : Nat → List Nat → Core → Core
  | 0, _, c => c
  | _, [], c => c
  | f + 1, s :: l, c =>
    let (r, c1) := c.logEvent 0x0123 (path 1 3 s)
    let (c2, ls) := c1.deliver r c1.host.subs
    Core.raiseLosses f (l ++ ls) c2

/-- Raises an event: log, block header, subscriptions, and 0x0123 of the sessions that began to lose (R202, R205). -/
def Core.raise (c : Core) (code p : Nat) : Core :=
  let (r, c1) := c.logEvent code p
  let (c2, ls) := c1.deliver r c1.host.subs
  Core.raiseLosses 16 ls c2

/-- Raises an event at most once per interval of elapsed time on its path (R833). -/
def Core.raiseEvery (c : Core) (gap : Time) (code p : Nat) : Core :=
  match lastEvent c code p with
  | some t => if t + gap ≤ c.plumb.elapsed then c.raise code p else c
  | none => c.raise code p

/-- Raises an event when a condition holds. -/
def Core.raiseIf (c : Core) (b : Bool) (code p : Nat) : Core := if b then c.raise code p else c

/-! ## Tags and the tag store (R20 to R23, R531) -/

/-- The tag of a class and an index. -/
def mkTag (cls idx : Nat) : Tag := cls * 2 ^ 22 + idx
def tagClass (t : Tag) : Nat := t / 2 ^ 22
def tagIndex (t : Tag) : Nat := t % 2 ^ 22
/-- Class 0: module number and point. -/
def pointTag (m pt : Nat) : Tag := mkTag 0 (m * 1024 + pt)
/-- Class 2: axis and signal. -/
def axisTag (a sig : Nat) : Tag := mkTag 2 (a * 16384 + sig)
/-- Class 3: loop and signal. -/
def loopTag (n sig : Nat) : Tag := mkTag 3 (n * 4096 + sig)

/-- Tag store value. -/
def Core.tagVal (c : Core) (t : Tag) : DWord := SMap.get 0 c.mem.tags t
/-- Writes a tag store value. -/
def Core.setTag (c : Core) (t : Tag) (v : DWord) : Core := c.onMem fun m => { m with tags := SMap.set 0 m.tags t v }
/-- Tag metadata. -/
def Core.metaOf (c : Core) (t : Tag) : DWord := SMap.get 0 c.mem.meta_ t
def Core.setMeta (c : Core) (t : Tag) (v : DWord) : Core := c.onMem fun m => { m with meta_ := SMap.set 0 m.meta_ t v }

/-! ## Tarn 1 (R49, R839): bytes, a 64-bit value with its low byte first -/

/-- Bytes of Tarn 1. -/
def tarn1Size : Nat := 20971520

/-- A byte of Tarn 1. -/
def Core.t1Byte (c : Core) (a : Nat) : Byte := SMap.get 0 c.mem.tarn1 a

/-- Reads n bytes from a Tarn 1 address, lowest address least significant. -/
def readLE (m : SMap Byte) (a : Nat) : Nat → Nat
  | 0 => 0
  | n + 1 => (SMap.get (0 : Byte) m a).toNat + 256 * readLE m (a + 1) n

/-- Writes the n low bytes of a number at an address, least significant first. -/
def writeLE (m : SMap Byte) (a v : Nat) : Nat → SMap Byte
  | 0 => m
  | n + 1 => writeLE (SMap.set 0 m a (BitVec.ofNat 8 v)) (a + 1) (v / 256) n

def Core.t1Read (c : Core) (a n : Nat) : Nat := readLE c.mem.tarn1 a n
def Core.t1Write (c : Core) (a v n : Nat) : Core := c.onMem fun m => { m with tarn1 := writeLE m.tarn1 a v n }

/-! ## Operand buffers (R231): words by index, a 64-bit value in two words from an even index, low word first -/

/-- What an operand-buffer word reads as when nothing wrote it: 0, or a free value after a work item ran on the tile (R279). -/
def Tile.base (t : Tile) (i : Nat) : Word :=
  if t.junk = 0 then 0 else if t.alloc.contains i then 0 else Config.freeWord (t.junk + i)

def Tile.word (t : Tile) (i : Nat) : Word := SMap.get 0 t.buf i ^^^ t.base i
def Tile.setWord (t : Tile) (i : Nat) (v : Word) : Tile := { t with buf := SMap.set 0 t.buf i (v ^^^ t.base i) }
def Tile.dword (t : Tile) (i : Nat) : DWord := (t.word (i + 1)) ++ (t.word i)
def Tile.setDword (t : Tile) (i : Nat) (v : DWord) : Tile :=
  (t.setWord i (v.setWidth 32)).setWord (i + 1) ((v >>> 32).setWidth 32)
def Tile.pred (t : Tile) (i : Nat) : Bool := t.preds.getLsbD i
def Tile.setPred (t : Tile) (i : Nat) (b : Bool) : Tile :=
  { t with preds := if b then t.preds ||| (1#16 <<< i) else t.preds &&& ~~~ (1#16 <<< i) }

/-- All listed keys of a range of instances that a predicate selects, by folding a function over 0 to n−1. -/
def forN (n : Nat) (f : Nat → Core → Core) (c : Core) : Core := (List.range n).foldl (fun d i => f i d) c

/-- Folds a function over a list of instances. -/
def forL {α : Type} (l : List α) (f : α → Core → Core) (c : Core) : Core := l.foldl (fun d i => f i d) c

/-! ## Lintel frames of this device (R654, R656) -/

/-- Priority of a frame type, 0 highest (R657). -/
def lnPrio (type : Nat) : Nat := if type = 2 then 0 else if type = 1 ∨ (3 ≤ type ∧ type ≤ 5) then 1 else 2

/-- Payload bytes of a frame with its 20-byte header (R656, R661, R662, R665, R670, R672 to R678). -/
def lnBytes (type : Nat) (ws : List Nat) : Nat :=
  match type with
  | 1 => 70 | 2 => 60 | 3 => 32 + 16 * ((ws.length - 4) / 4) | 4 => 40 | 5 => 34 + ws.getD 8 32
  | 0x10 => if ws.getD 4 0 = 0 then 52 else 276
  | 0x11 => 284 | 0x12 => 292 | 0x13 => 32 | _ => 276

/-- Frames that a message of a type takes: an IDENT answer 21, a RELAY chunk 256 (R662, R677). -/
def lnCount (type : Nat) (ws : List Nat) : Nat :=
  if type = 0x10 ∧ ws.getD 4 0 ≠ 0 then 21 else if type = 0x12 then 256 else 1

/-- Wire time of a frame: 38 bytes beside a payload of at least 46, at 10 Gb/s, on a branch at 2.5 Gb/s (R652, R656). -/
def lnWire (u bytes : Nat) : Time := (38 + max 46 bytes) * 65536 * 8 / 10 * (if u < 2 then 1 else 4)

/-- Elapsed time from which a port may send a waiting frame. -/
def LnPort.ready (p : LnPort) (f : LnFrame) : Time := max p.busy (max f.since (if lnPrio f.type = 2 then p.bulkFrom else 0))

/-- The frame that a port sends next: of those it could send first, the oldest of the highest priority; and when. -/
def LnPort.next (p : LnPort) : Option (LnFrame × Time) :=
  match p.waiting with
  | [] => none
  | f :: l =>
    let t := l.foldl (fun t g => min t (p.ready g)) (p.ready f)
    let can := p.waiting.filter fun g => decide (p.ready g ≤ t)
    let top := can.foldl (fun n g => min n (lnPrio g.type)) 2
    (can.find? fun g => lnPrio g.type == top).map fun g => (g, t)

/-- LN_BULK_SHARE in per cent. -/
def Core.bulkShare (c : Core) : Nat := max 1 (c.regN A.LN_BULK_SHARE)

/-- A port sends one frame, whose end it then waits for; a frame of priority 2 leaves room for others (R658). -/
def Core.lnSendOne (u : Nat) (f : LnFrame) (t : Time) (c : Core) : Core :=
  let w := lnWire u f.bytes
  let bulk := lnPrio f.type = 2
  let c1 := c.onLnPort u fun p => { p with
    busy := t + w, bulkFrom := if bulk then t + w * 100 / c.bulkShare else p.bulkFrom
    bulkBytes := if bulk then (p.bulkBytes + 38 + max 46 f.bytes) % 2 ^ 32 else p.bulkBytes
    waiting := p.waiting.flatMap fun g => if g = f then (if f.count ≤ 1 then [] else [{ f with count := f.count - 1, begun := true }]) else [g] }
  if f.begun then c1 else c1.emit (.lintel u (c.fld A.LN_ETYPE 15 0) f.type (f.bytes - 20) f.words)

/-- A port sends what it can send by the present elapsed time (R658). -/
def Core.lnPump (u : Nat) : Nat → Core → Core
  | 0, c => c
  | n + 1, c =>
    match (c.lnPort u).next with
    | some (f, t) => if c.plumb.elapsed < t then c else Core.lnPump u n (c.lnSendOne u f t)
    | none => c

/-- Frames still to go over a port. -/
def LnPort.left (p : LnPort) : Nat := p.waiting.foldl (fun n f => n + f.count) 0

/-- Every port sends what it can send (R658). -/
def Core.lnPumps (c : Core) : Core := forN 4 (fun u d => d.lnPump u (d.lnPort u).left) c

/-- A message joins the waiting frames of a port that has a link, and leaves where nothing is before it; one of priority 0, which
nothing can overtake, as soon as the frame being sent has ended. -/
def Core.lnPut (u type count : Nat) (ws : List Nat) (c : Core) : Core :=
  if (c.lnPort u).link then
    let c0 := c.lnPump u (c.lnPort u).left
    let f : LnFrame := { type := type, words := ws, bytes := lnBytes type ws, count := count, since := c.plumb.elapsed }
    let c1 := c0.onLnPort u fun p => { p with waiting := p.waiting ++ [f] }
    if lnPrio type = 0 then c1.lnSendOne u f ((c1.lnPort u).ready f) else c1.lnPump u (c1.lnPort u).left
  else c

/-- CLAIM of this device's frames: 0 outside a pair (R656). -/
def Core.lnClaim (c : Core) : Nat := if c.image.pair.en then c.mr.claim else 0

/-- The header of this device's frames as it is shown: ORIGIN, SEQ, CLAIM, HOPS. -/
def Core.lnHead (c : Core) : List Nat := [c.fld A.LN_CFG 9 0, c.ln.seq, c.lnClaim, 0]

/-- SEQ advances by the frames originated (R656). -/
def Core.lnSeq (n : Nat) (c : Core) : Core := c.onLn fun l => { l with seq := (l.seq + n) % 2 ^ 32 }

/-- Sends a message of `count` frames under this device's number over one unit with a link. -/
def Core.lnTrain (u type count : Nat) (ws : List Nat) (c : Core) : Core :=
  if (c.lnPort u).link then (c.lnPut u type count (c.lnHead ++ ws)).lnSeq count else c

/-- Sends a frame or a message of a type. -/
def Core.lnSend (u type : Nat) (ws : List Nat) (c : Core) : Core := c.lnTrain u type (lnCount type (c.lnHead ++ ws)) ws

/-- A frame that was forwarded turns out bad: it ends with an inverted FCS (R659). -/
def Core.lnStomp (u type : Nat) (c : Core) : Core :=
  (c.onLnPort u fun p => { p with stomped := sat32 (p.stomped + 1) }).emit (.stomped u type)

/-- One frame over every unit with a link. -/
def Core.lnEvery (type : Nat) (ws : List Nat) (c : Core) : Core :=
  (forN 4 (fun u d => d.lnPut u type 1 (c.lnHead ++ ws)) c).lnSeq 1

/-- Floods a frame that this device originates: nothing from the unit of a pair that is not ACTIVE, and no SHAFT, EXPORT, TRIGGER or
SAFE after a number conflict. -/
def Core.lnFlood (type : Nat) (ws : List Nat) (c : Core) : Core :=
  if (c.image.pair.en && c.mr.role != .active) || (c.ln.numConflict && decide (2 ≤ type) && decide (type ≤ 5)) then c
  else c.lnEvery type ws

/-! ## Mortar frames of this device (R690) -/

/-- Section and bytes of an entry (R692). -/
def itemSize : MirItem → Nat × Nat
  | .block _ _ => (1, 68)
  | .tag _ _ => (2, 12)
  | .loop _ _ _ _ _ _ _ => (3, 20)
  | .axis _ _ => (4, 84)
  | .bins _ _ vs => (5, 8 + 2 * vs.length)

/-- Bytes of entries. -/
def itemsSize (l : List MirItem) : Nat := l.foldl (fun n e => n + (itemSize e).2) 0

/-- Payload bytes of a frame with its 16-byte header (R691 to R693); the words of IDENT as R662 has them. -/
def MorMsg.bytes : MorMsg → Nat
  | .beat _ => 64
  | .data _ _ _ _ l => 24 + itemsSize l
  | .fin resync _ => if resync then 36 else 40
  | .yield _ _ => 28
  | .ident ws => if ws.length ≤ 3 then 48 else 272
  | .package _ => 272

/-- The order in which waiting frames leave: a heartbeat first, a resync last (R690, R711). -/
def MorMsg.prio : MorMsg → Nat
  | .beat _ => 0
  | .data true _ _ _ _ => 2
  | .fin true _ => 2
  | _ => 1

/-- The frame that MOR sends next: of those that it could send first the oldest of the first order; and when. -/
def Mortar.next (m : Mortar) : Option (MorFrame × Time) :=
  match m.waiting with
  | [] => none
  | f :: l =>
    let ready (g : MorFrame) : Time := max m.busy g.since
    let t := l.foldl (fun t g => min t (ready g)) (ready f)
    let can := m.waiting.filter fun g => decide (ready g ≤ t)
    let top := can.foldl (fun n g => min n g.prio) 2
    (can.find? fun g => g.prio == top).map fun g => (g, t)

/-- MOR sends one frame at 10 Gb/s. The end marker of an epoch completes it: MR_EPOCH (R723). -/
def Core.morSendOne (f : MorFrame) (t : Time) (c : Core) : Core :=
  (c.onMr fun m => { m with
    busy := t + (38 + max 46 f.bytes) * 65536 * 8 / 10, waiting := m.waiting.erase f
    epoch := match f.msg with | .fin false x => x.epoch | _ => m.epoch }).emit (.mor c.image.pair.etype f.claim f.msg)

/-- MOR sends what it can send by the present elapsed time. -/
def Core.morPump : Nat → Core → Core
  | 0, c => c
  | n + 1, c =>
    match c.mr.next with
    | some (f, t) => if c.plumb.elapsed < t then c else Core.morPump n (c.morSendOne f t)
    | none => c

/-- A frame joins those that wait for MOR, while its link is up, and leaves where nothing is before it; a heartbeat, which nothing can
overtake, as soon as the frame being sent has ended. -/
def Core.morPut (m : MorMsg) (c : Core) : Core :=
  if c.mr.link then
    let c0 := c.morPump c.mr.waiting.length
    let f : MorFrame := { prio := m.prio, claim := c.mr.claim, bytes := m.bytes, msg := m, since := c.plumb.elapsed }
    let c1 := c0.onMr fun x => { x with waiting := x.waiting ++ [f] }
    if f.prio = 0 then c1.morSendOne f (max c1.mr.busy f.since) else c1.morPump c1.mr.waiting.length
  else c

end Sys2Proof.Machine
end

