-- ==== Sys2Proof/Machine/FloatOps.lean ====
section
/-!
DEFINITION. Machine/FloatOps.lean: binary32 arithmetic of the fabric (R243) and binary64 where the spec names it (R545, R575),
over exact sign, magnitude and exponent, with one rounding function.
-/
namespace Sys2Proof.Machine

/-- A float value: NaN, an infinity, or (−1)^s × m × 2^e exactly. -/
inductive FP where
  | nan
  | inf (s : Bool)
  | fin (s : Bool) (m : Nat) (e : Int)
  deriving DecidableEq, Repr

/-- Rounds m × 2^e to p bits, nearest even, with an unbounded exponent range (R243). `sticky` says that the exact value lies a
little above m × 2^e. -/
def roundNE (p m : Nat) (e : Int) (sticky : Bool := false) : Nat × Int :=
  let m2 := 4 * m + (if sticky then 1 else 0)
  let e2 := e - 2
  let l := Nat.log2 m2 + 1
  if m2 = 0 then (0, e)
  else if l ≤ p then (m2, e2)
  else
    let sh := l - p
    let q := m2 >>> sh
    let r := m2 % 2 ^ sh
    let half := 2 ^ (sh - 1)
    let up := half < r ∨ (r = half ∧ q % 2 = 1)
    (if up then q + 1 else q, e2 + sh)

/-- A binary32 word as a value; a subnormal reads as zero of the same sign (R243). -/
def fp32 (w : Word) : FP :=
  let s := bit w 31
  let ex := bits w 30 23
  let f := bits w 22 0
  if ex = 255 then (if f = 0 then .inf s else .nan)
  else if ex = 0 then .fin s 0 0
  else .fin s (f + 2 ^ 23) ((ex : Int) - 150)

/-- A rounded value as a binary32 word: below 2^-126 zero of its sign, from 2^128 infinity, NaN 0x7FC0_0000 (R243). -/
def toF32 (x : FP) (sticky : Bool := false) : Word :=
  match x with
  | .nan => 0x7FC00000
  | .inf s => if s then 0xFF800000 else 0x7F800000
  | .fin s m e =>
    let sg := flg s 31
    let (q, e1) := roundNE 24 m e sticky
    if q = 0 then wd sg
    else
      let l := Nat.log2 q
      let ex : Int := e1 + (l : Int)
      if ex < -126 then wd sg
      else if 127 < ex then wd (sg + 0x7F800000)
      else
        let f : Nat := if l ≤ 23 then q * 2 ^ (23 - l) else q / 2 ^ (l - 23)
        wd (sg + (ex + 127).toNat * 2 ^ 23 + f % 2 ^ 23)

/-- A binary64 value, subnormals included. -/
def fp64 (w : DWord) : FP :=
  let n := w.toNat
  let s := w.getLsbD 63
  let ex : Nat := (n / 2 ^ 52) % 2048
  let f := n % 2 ^ 52
  if ex = 2047 then (if f = 0 then .inf s else .nan)
  else if ex = 0 then .fin s f (-1074)
  else .fin s (f + 2 ^ 52) ((ex : Int) - 1075)

/-- Rounds to binary64 precision, nearest even, gradual underflow. -/
def round64 (x : FP) (sticky : Bool := false) : FP :=
  match x with
  | .fin s m e =>
    if m = 0 then .fin s 0 0 else
    let l : Int := e + Nat.log2 m
    let p : Int := if l < -1022 then 53 - (-1022 - l) else 53
    let (q, e1) := roundNE (if p < 0 then 0 else p.toNat) m e sticky
    if 1024 ≤ e1 + Nat.log2 q ∧ q ≠ 0 then .inf s else .fin s q e1
  | y => y

/-- Exact sum; opposite infinities give NaN, an exact zero sum of unlike zeros is +0. -/
def FP.add : FP → FP → FP
  | .nan, _ => .nan
  | _, .nan => .nan
  | .inf a, .inf b => if a = b then .inf a else .nan
  | .inf a, _ => .inf a
  | _, .inf b => .inf b
  | .fin a m e, .fin b n f =>
    let g := min e f
    let x : Int := (if a then -1 else 1) * (m * 2 ^ (e - g).toNat : Nat)
    let y : Int := (if b then -1 else 1) * (n * 2 ^ (f - g).toNat : Nat)
    let z := x + y
    if z = 0 then .fin (a && b && m == 0 && n == 0) 0 0 else .fin (decide (z < 0)) z.natAbs g

/-- Changes the sign. -/
def FP.neg : FP → FP
  | .nan => .nan
  | .inf s => .inf (!s)
  | .fin s m e => .fin (!s) m e

/-- Exact product. -/
def FP.mul : FP → FP → FP
  | .nan, _ => .nan
  | _, .nan => .nan
  | .inf a, .inf b => .inf (a != b)
  | .inf a, .fin b m _ => if m = 0 then .nan else .inf (a != b)
  | .fin a m _, .inf b => if m = 0 then .nan else .inf (a != b)
  | .fin a m e, .fin b n f => .fin (a != b) (m * n) (e + f)

/-- Quotient to at least 70 significant bits, with the flag of a remainder. -/
def FP.div : FP → FP → FP × Bool
  | .nan, _ => (.nan, false)
  | _, .nan => (.nan, false)
  | .inf _, .inf _ => (.nan, false)
  | .inf a, .fin b _ _ => (.inf (a != b), false)
  | .fin a _ _, .inf b => (.fin (a != b) 0 0, false)
  | .fin a m e, .fin b n f =>
    if n = 0 then (if m = 0 then (.nan, false) else (.inf (a != b), false))
    else
      let k := 70 + Nat.log2 n
      (.fin (a != b) (m * 2 ^ k / n) (e - f - k), m * 2 ^ k % n != 0)

/-- Square root to at least 40 significant bits, with the flag of a remainder. -/
def FP.sqrt : FP → FP × Bool
  | .nan => (.nan, false)
  | .inf s => (if s then .nan else .inf false, false)
  | .fin s m e =>
    if m = 0 then (.fin s 0 0, false)
    else if s then (.nan, false)
    else
      let k : Nat := if (e - 100) % 2 = 0 then 100 else 101
      let n := m * 2 ^ k
      let r := isqrt n
      (.fin false r ((e - k) / 2), r * r != n)

/-- Exact order of two values: none when one is a NaN. -/
def FP.lt? : FP → FP → Option Bool
  | .nan, _ => none
  | _, .nan => none
  | .inf a, .inf b => some (a && !b)
  | .inf a, _ => some a
  | _, .inf b => some (!b)
  | .fin a m e, .fin b n f =>
    let g := min e f
    let x : Int := (if a then -1 else 1) * (m * 2 ^ (e - g).toNat : Nat)
    let y : Int := (if b then -1 else 1) * (n * 2 ^ (f - g).toNat : Nat)
    some (decide (x < y))

/-- Equality of values: −0 equals +0; a NaN equals nothing. -/
def FP.eqv (x y : FP) : Bool := x.lt? y == some false && y.lt? x == some false

/-- Sign of a value, of a zero too. -/
def FP.sign : FP → Bool
  | .nan => false
  | .inf s => s
  | .fin s _ _ => s

/-- minimumNumber and maximumNumber of IEEE 754-2019 (R243): −0 below +0, a NaN gives the other operand. -/
def FP.minNum (x y : FP) : FP :=
  match x, y with
  | .nan, b => b
  | a, .nan => a
  | a, b => if a.lt? b == some true then a else if b.lt? a == some true then b else if a.sign then a else b

def FP.maxNum (x y : FP) : FP :=
  match x, y with
  | .nan, b => b
  | a, .nan => a
  | a, b => if a.lt? b == some true then b else if b.lt? a == some true then a else if a.sign then b else a

/-- Round to nearest even to an integer; NaN 0 and infinities saturate to 32 bits (R243). -/
def FP.toInt32 : FP → Word
  | .nan => 0
  | .inf s => if s then 0x80000000 else 0x7FFFFFFF
  | .fin s m e =>
    let v : Nat :=
      if 0 ≤ e then m * 2 ^ e.toNat
      else
        let sh := (-e).toNat
        let q := m >>> sh
        let r := m % 2 ^ sh
        let half := 2 ^ (sh - 1)
        if half < r ∨ (r = half ∧ q % 2 = 1) then q + 1 else q
    let x : Int := if s then -(v : Int) else v
    wi (clampI (-(2 ^ 31)) (2 ^ 31 - 1) x)

/-- A signed integer as an exact value. -/
def FP.ofInt (x : Int) : FP := .fin (decide (x < 0)) x.natAbs 0

/-- Largest integer not above a finite value; 0 for the others. -/
def FP.floor : FP → Int
  | .fin s m e =>
    let x : Int := (if s then -1 else 1) * (m : Int)
    if 0 ≤ e then x * (2 ^ e.toNat : Nat) else x.fdiv (2 ^ (-e).toNat : Nat)
  | _ => 0

/-- binary32 operations of the fabric. -/
def f32add (a b : Word) : Word := toF32 (FP.add (fp32 a) (fp32 b))
def f32sub (a b : Word) : Word := toF32 (FP.add (fp32 a) (fp32 b).neg)
def f32mul (a b : Word) : Word := toF32 (FP.mul (fp32 a) (fp32 b))
/-- d + a × b with one rounding. -/
def f32mac (d a b : Word) : Word := toF32 (FP.add (fp32 d) (FP.mul (fp32 a) (fp32 b)))
def f32div (a b : Word) : Word := let (q, s) := FP.div (fp32 a) (fp32 b); toF32 q s
def f32sqrt (a : Word) : Word := let (q, s) := FP.sqrt (fp32 a); toF32 q s
def f32ofInt (a : Word) : Word := toF32 (FP.ofInt a.toInt)

end Sys2Proof.Machine
end

