-- ==== Sys2Proof/Machine/Record.lean ====
section
/-!
DEFINITION. Machine/Record.lean: the recorder (12_signal_recording): stream entries, records, segments, the rings, loss and
its accounting. A unit of the ring is 16 bytes, held as four words, the
word at the lowest address least significant.
-/
namespace Sys2Proof.Machine

/-! ## Periods that several chapters use -/

/-- Tc in ticks: 2^BASE_K (R246). -/
def Core.baseTicks (c : Core) : Nat := 2 ^ c.image.schedule.baseK
/-- Tc (R249). -/
def Core.baseLen (c : Core) : Time := c.baseTicks * tickLen
/-- Port cycle of a port: 2^PORT_K ticks (R614, R647). -/
def Core.portLen (c : Core) (p : Nat) : Time := 2 ^ (c.fld (A.ASH_PORT_CFG + 0x40 * p) 3 0) * tickLen
/-- Loop period: 2^PERIOD_K ticks (R360, R400). -/
def Core.loopTicks (c : Core) (n : Nat) : Nat := 2 ^ (c.fld (lpA A.LP_CFG n) 2 0)

/-- Production period of a tag (R536); none where nothing declares one. -/
def Core.prodPeriod (c : Core) (t : Tag) : Option Time :=
  match tagClass t with
  | 0 => some (c.portLen (tagIndex t / 1024 / 512))
  | 1 => some c.baseLen
  | 2 => some tickLen
  | 3 => some (c.loopTicks (tagIndex t / 4096) * tickLen)
  | _ => let r := (c.metaOf t).toNat % 2 ^ 32
         if r = 0 then none else some (second / r)

/-! ## Units, records and the checksum -/

/-- A 16-byte unit from its four words, the first at the lowest address. -/
def unit128 (w0 w1 w2 w3 : Word) : BitVec 128 := w3 ++ w2 ++ w1 ++ w0

/-- Word i of a unit. -/
def unitWord (u : BitVec 128) (i : Nat) : Word := (u >>> (32 * i)).setWidth 32

/-- One byte into CRC-32C, reflected, polynomial 0x82F63B78. PRESUMED (notes/assumptions/12.md). -/
def crcByte (crc : Word) (b : Nat) : Word :=
  (List.range 8).foldl (fun c _ => if bit c 0 then (c >>> 1) ^^^ 0x82F63B78 else c >>> 1) (crc ^^^ wd (b % 256))

/-- CRC-32C of bytes. -/
def crc32c (l : List Nat) : Word := ~~~ (l.foldl crcByte 0xFFFFFFFF)

/-- The bytes of a word in the order of their addresses: most significant first (R164, R541). -/
def wordBytes (w : Word) : List Nat := [bits w 31 24, bits w 23 16, bits w 15 8, bits w 7 0]

/-- The bytes of a unit, lowest address first. -/
def unitBytes (u : BitVec 128) : List Nat := (List.range 4).flatMap fun i => wordBytes (unitWord u i)

/-- Word 0 of a record (R538). -/
def recWord0 (kind : Nat) (first forced stale partial_ : Bool) (tag : Nat) : Word :=
  wd (kind * 2 ^ 29 + flg first 28 + flg forced 27 + flg stale 26 + flg partial_ 25 + tag)

/-- OFFSET of a time from the base second, whole nanoseconds (R540). -/
def recOffset (base : Nat) (t : Time) : Word := wi ((t / 65536 : Nat) - (base * 1000000000 : Nat))

def loW (v : DWord) : Word := v.setWidth 32
def hiW (v : DWord) : Word := (v >>> 32).setWidth 32

/-! ## Geometry -/

def Core.rsDest (c : Core) (k : Nat) : Nat := c.fld (rsA A.RS_CFG k) 31 30
/-- Ring size in units. -/
def Core.rsSize (c : Core) (k : Nat) : Nat := c.fld (rsA A.RS_CFG k) 13 0 * 65536

/-- Records (not SEGMENT or GAP) among units, walking record by record; and the units up to the next SEGMENT header. -/
def dropSegment : List (BitVec 128) → Bool → Bool → List (BitVec 128) × Nat × Nat
  | [], _, _ => ([], 0, 0)
  | u :: l, atStart, second =>
    if second then
      let (r, n, d) := dropSegment l false false
      (r, n, d + 1)
    else
      let kind := bits (unitWord u 0) 31 29
      if kind = 6 ∧ !atStart then (u :: l, 0, 0)
      else
        let (r, n, d) := dropSegment l false (3 ≤ kind)
        (r, n + (if kind ≤ 4 then 1 else 0), d + 1)

/-- Frees ring space under DRAM_ONLY: the oldest whole segment goes, its records counted in RS_OVERWRITTEN (R552). -/
def Core.discardSegment (c : Core) (k : Nat) : Core :=
  let (r, n, d) := dropSegment (c.stream k).ring true false
  c.onStream k fun s => { s with ring := r, overwritten := s.overwritten + n,
                                 rdPtr := if c.rsSize k = 0 then 0 else (s.rdPtr + d) % c.rsSize k }

/-- Makes room for n units under DRAM_ONLY, by at most f discards. -/
def Core.makeRoom (k n : Nat) : Nat → Core → Core
  | 0, c => c
  | f + 1, c =>
    if c.rsSize k < (c.stream k).ring.length + n ∧ (c.stream k).ring ≠ [] then Core.makeRoom k n f (c.discardSegment k) else c

/-- Whether n units fit, after the discards that DEST 0 allows. -/
def Core.room (c : Core) (k n : Nat) : Core × Bool :=
  let c1 := if c.rsDest k = 0 then Core.makeRoom k n ((c.stream k).ring.length + 1) c else c
  (c1, (c1.stream k).ring.length + n ≤ c1.rsSize k)

/-- Appends units to a ring; raises 0x0B04 once per episode above RS_FILL_WARN. -/
def Core.append (c : Core) (k : Nat) (us : List (BitVec 128)) : Core :=
  let size := c.rsSize k
  let c1 := c.onStream k fun s => { s with
    ring := s.ring ++ us, wrPtr := if size = 0 then 0 else (s.wrPtr + us.length) % size,
    span := s.span ++ us, staged := s.staged + 16 * us.length }
  let c2 := c1.onRec fun r => { r with unitsNow := r.unitsNow + us.length }
  let s := c2.stream k
  let ovr := decide (c2.regN (rsA A.RS_FILL_WARN k) * size < s.ring.length * 1000)
  (c2.onStream k fun s => { s with fillWarned := ovr }).raiseIf (ovr && !s.fillWarned) 0x0B04 (path 0xB k 0)

/-! ## Loss (R556 to R559) -/

/-- One record lost: opens or extends the episode, counts it by cause (0 INGEST, 1 RING, 2 LATE). -/
def Core.lose (c : Core) (k cause : Nat) (t : Time) : Core :=
  let s := c.stream k
  let l : Loss := match s.loss with
    | some l => { l with count := l.count + 1, last := t, causes := l.causes ||| 2 ^ cause }
    | none => { count := 1, first := t, last := t, causes := 2 ^ cause }
  let c1 := c.onStream k fun s => { s with
    loss := some l, offered := s.offered + 1,
    lostIngest := s.lostIngest + (if cause = 0 then 1 else 0),
    lostRing := s.lostRing + (if cause = 1 then 1 else 0),
    lostLate := sat32 (s.lostLate + (if cause = 2 then 1 else 0)) }
  c1.raiseIf s.loss.isNone 0x0B41 (path 0xB k 0)

/-- All records lost so far. -/
def Stream.lostTotal (s : Stream) : Nat := s.lostIngest + s.lostRing + s.lostLate

/-- Role of a PTP port (R113). -/
def Core.ptpRole (c : Core) (p : Nat) : Nat := c.fld (A.PB_PORT_CTL + 0x10 * p) 1 0
/-- Whether the line profile is chosen (R69, R111). -/
def Core.lineProfile (c : Core) : Bool := c.flag A.PB_TIME_CTL 0

/-- PB_SYNC_STATUS.STATE: in the line profile a device with valid time and no SLAVE port is GRANDMASTER (R63, R69, R88); so is, in the
default profiles, one without a master whose best-master decision made a port MASTER (notes/assumptions/121.md). -/
def Core.syncState (c : Core) : SyncState :=
  let slaveless := if c.lineProfile then (List.range 12).all (fun p => c.ptpRole p != 2)
    else c.plumb.masterPort.isNone && (List.range 12).any fun p => c.ptpRole p != 0 && (c.ptpPort p).state == 6
  if c.plumb.timeValid && slaveless then .grandmaster else c.plumb.sync

/-- UNLOCKED: the time is neither LOCKED nor GRANDMASTER (R541). -/
def Core.unlocked (c : Core) : Bool := c.syncState != .locked && c.syncState != .grandmaster

/-- The SEGMENT header of the open segment (R541). `stop` marks the closing header of a stop. -/
def Core.segUnits (c : Core) (k : Nat) (stop : Bool) : List (BitVec 128) :=
  let s := c.stream k
  let w0 := wd (6 * 2 ^ 29 + flg (!s.anyHeader && s.segSeq == 0) 28 + flg s.stepped 27 + flg c.unlocked 26 + flg stop 25 + k)
  let prev := if s.anyHeader then s.recsPrev else 0
  let crc := if s.anyHeader then crc32c (s.span.flatMap unitBytes) else 0
  [unit128 w0 (wd s.segSeq) (wd s.segBase) (wd (s.segBase / 2 ^ 32)),
   unit128 (wd prev) (wd s.lostTotal) crc (wd c.up.boot.boots)]

/-- Writes the header of the open segment: it starts a new span. Bytes 16 to 19 hold RECORDS_PREV, high half first. -/
def Core.putHeader (c : Core) (k : Nat) (stop : Bool) : Core :=
  let us := c.segUnits k stop
  let c1 := c.onStream k fun s => { s with span := [], recsPrev := 0 }
  (c1.append k us).onStream k fun s => { s with anyHeader := true, headerWritten := true, stepped := false }

/-- The GAP record of an episode (R541, R556). -/
def gapUnits (base : Nat) (now : Time) (l : Loss) : List (BitVec 128) :=
  let span := l.last / 65536 - l.first / 65536
  [unit128 (wd (5 * 2 ^ 29 + l.causes)) (recOffset base now) (wd l.count) (wd (l.count / 2 ^ 32)),
   unit128 (wd (span / 2 ^ 32)) (wd span) (wd (secOf l.first)) (wd (nsOf l.first))]

/-- Ends a loss episode when there is room for the pending header, the GAP and `more` units (R556): header, GAP, 0x0B03, and
FIRST on the next record of every entry that lost one (R548). -/
def Core.gapWrite (c : Core) (k more : Nat) : Core :=
  match (c.stream k).loss with
  | none => c
  | some l =>
    let hdr := (c.stream k).segOpen && !(c.stream k).headerWritten
    let (c0, ok) := c.room k ((if hdr then 2 else 0) + 2 + more)
    if ok then
      let c1 := if hdr then c0.putHeader k false else c0
      let c2 := c1.append k (gapUnits (c1.stream k).segBase c1.now l)
      let c3 := c2.onStream k fun s => { s with loss := none, gapUnreported := false, gaps := s.gaps + 1,
                                                recsPrev := s.recsPrev + 1 }
      let c4 := c3.onRec fun r => { r with entries := r.entries.map fun e =>
        if e.stream = k ∧ e.gapped then { e with first := true, gapped := false } else e }
      c4.raise 0x0B03 (path 0xB k 0)
    else c0

/-- Offers one record of kinds VALUE to MARK to a running stream: written, or lost with its cause. Answers whether it was
written. `us` is the record for a segment base, given whether a GAP was written just before it. -/
def Core.putRec (c : Core) (k : Nat) (t : Time) (us : Nat → Bool → List (BitVec 128)) (len : Nat) : Core × Bool :=
  let s := c.stream k
  if s.st ≠ .running then (c, false)
  else if t / 65536 + 2 ^ 31 < s.segBase * 1000000000 then (c.lose k 2 t, false)
  else if c.regN (rsA A.RS_STAGE_QUOTA k) < s.staged + 16 * len then (c.lose k 0 t, false)
  else
    let c1 := c.gapWrite k len
    let (c2, ok) := c1.room k len
    if (c2.stream k).loss.isSome || !ok || !(c2.stream k).headerWritten then (c2.lose k 1 t, false)
    else
      let c3 := c2.append k (us s.segBase s.loss.isSome)
      (c3.onStream k fun s => { s with offered := s.offered + 1, written := s.written + 1, recsPrev := s.recsPrev + 1,
                                       rateNow := s.rateNow + 1 }, true)

/-! ## Segments (R542) -/

/-- Opens a segment for a base second; a header that does not fit is not written later except before a GAP (R556, R557). -/
def Core.openSegment (c : Core) (k base : Nat) : Core :=
  let s := c.stream k
  let c1 := c.onStream k fun s => { s with
    segBase := base, segSeq := if s.segOpen then s.segSeq + 1 else s.segSeq, segOpen := true, headerWritten := false }
  if s.loss.isSome then c1 else
  let (c2, ok) := c1.room k 2
  if ok then c2.putHeader k false else c2

/-! ## Change-only recording (R544 to R550) -/

/-- TYPE of a tag's metadata (R531). -/
def Core.tagType (c : Core) (t : Tag) : Nat := (c.metaOf t).toNat / 2 ^ 60
/-- WIDTH of a tag in bits. -/
def Core.tagWidth (c : Core) (t : Tag) : Nat := (c.metaOf t).toNat / 2 ^ 54 % 64 + 1

/-- A tag's value as a signed or unsigned number. -/
def tagNum (type : Nat) (v : DWord) : Int := if type = 3 then v.toNat else v.toInt

/-- A float tag's value, FLOAT32 in the low word. -/
def tagFloat (type : Nat) (v : DWord) : FP := if type = 5 then fp32 (loW v) else fp64 v

/-- Whether an observation differs from the last record by more than the deadband (R545). -/
def changed (type : Nat) (deadband : Word) (rec v : DWord) : Bool :=
  if type = 1 ∨ type = 9 ∨ type = 10 ∨ type = 0 then decide (v ≠ rec)
  else if type = 5 ∨ type = 6 then
    match tagFloat type v, tagFloat type rec with
    | .nan, .nan => false
    | .nan, _ => true
    | _, .nan => true
    | a, b =>
      let d := FP.add a b.neg
      let d' := if type = 5 then fp32 (toF32 d) else round64 d
      let mag := if d'.sign then d'.neg else d'
      (fp32 deadband).lt? mag == some true && !(a.eqv b)
  else decide ((deadband.toNat : Int) < (tagNum type v - tagNum type rec).natAbs)

/-- Record of an observation: VALUE, HEARTBEAT (16 bytes) or EVENT (32 bytes). -/
def obsUnits (kind : Nat) (first forced stale : Bool) (tag : Tag) (v : DWord) (t : Time) (base : Nat) :
    List (BitVec 128) :=
  let u := unit128 (recWord0 kind first forced stale false tag) (recOffset base t) (loW v) (hiW v)
  if kind = 3 then [u, unit128 (wd (fracOf t * 65536)) 0 0 0] else [u]

/-- Mean of a fine window as FIX48_16, rounded half upward (R549). -/
def fineMean (n : Nat) (sum : Int) : DWord := BitVec.ofInt 64 ((2 * sum * 65536 + n).fdiv (2 * n))

/-- Closes the fine window of entry number i: a FINE record at the midpoint of its first and last sample, and the value of
FINE_TAG. Answers the produced tag, value and time. -/
def Core.closeFine (c : Core) (i : Nat) : Core × List (Tag × DWord × Time) :=
  match c.spr.entries[i]? with
  | none => (c, [])
  | some e => match e.fine with
    | none => (c, [])
    | some (n, sum, t0, t1) =>
      let mid := (t0 + t1) / 2 / 65536 * 65536
      let part := decide (n < 2 ^ e.k)
      let v : DWord := BitVec.ofInt 64 (sum * 4096 + ((n - 1 : Nat) : Int))
      let (c1, ok) := c.putRec e.stream mid (fun base gap =>
        [unit128 (recWord0 2 (e.first || gap && e.gapped) false false part e.tag) (recOffset base mid) (loW v) (hiW v)]) 1
      let mean := fineMean n sum
      let c2 := c1.onRec fun r => { r with
        entries := r.entries.set i { e with fine := none, first := e.first && !ok, gapped := !ok },
        fine := SMap.set 0 r.fine e.fineTag mean }
      (c2, [(e.fineTag, mean, mid)])

/-- One observation offered to entry number i (R536 to R550). -/
def Core.obsEntry (c : Core) (i : Nat) (v : DWord) (t : Time) (stale forced : Bool) : Core × List (Tag × DWord × Time) :=
  match c.spr.entries[i]? with
  | none => (c, [])
  | some e =>
    if (c.stream e.stream).st ≠ .running then (c, []) else
    let taken := e.seen % 2 ^ e.div = 0
    let put (e' : Entry) (d : Core) : Core := d.onRec fun r => { r with entries := r.entries.set i e' }
    let e1 := { e with seen := e.seen + 1 }
    if !taken then (put e1 c, [])
    else if 31250 ≤ c.spr.obsTick then
      ((put { e1 with gapped := true } c).lose e.stream 0 t, [])
    else
      let c0 := c.onRec fun r => { r with obsTick := r.obsTick + 1, obsNow := r.obsNow + 1 }
      let ty := c.tagType e.tag
      if e.mode = 2 then
        let x := tagNum ty v
        let gap := match e.fine, c.prodPeriod e.tag with
          | some (_, _, _, t1), some p => decide (4 * p < t - t1)
          | _, _ => false
        let (c1, l1) := if stale || gap then (put e1 c0).closeFine i else (put e1 c0, [])
        if stale then (c1, l1) else
        let e2 := (c1.spr.entries[i]?).getD e1
        let w := match e2.fine with
          | some (n, s, t0, _) => (n + 1, s + x, t0, t)
          | none => (1, x, t, t)
        let c2 := put { e2 with fine := some w } c1
        if 2 ^ e.k ≤ w.1 then let (c3, l2) := c2.closeFine i; (c3, l1 ++ l2) else (c2, l1)
      else
        let hb := match e.last with
          | some (_, tr) => decide (e.heartbeat ≠ 0 ∧ tr + e.heartbeat * ms ≤ t)
          | none => false
        let ch := match e.last with
          | some (r, _) => changed ty e.deadband r v
          | none => true
        if e.first || ch || hb then
          let kind := if e.first || ch then (if e.mode = 1 ∨ ty = 9 then 3 else 0) else 1
          let (c1, ok) := c0.putRec e.stream t
            (fun base gap => obsUnits kind (e.first || gap && e.gapped) forced stale e.tag v t base) (if kind = 3 then 2 else 1)
          (put (if ok then { e1 with last := some (v, t), first := false, gapped := false }
                else { e1 with gapped := true }) c1, [])
        else (put e1 c0, [])

/-- Offers an observation to every entry of its tag, in entry order. -/
def Core.obsEntries (tag : Tag) (v : DWord) (t : Time) (stale forced : Bool) :
    List (Nat × Entry) → Core → Core × List (Tag × DWord × Time)
  | [], c => (c, [])
  | (i, e) :: l, c =>
    if e.tag = tag then
      let (c1, p) := c.obsEntry i v t stale forced
      let (c2, q) := Core.obsEntries tag v t stale forced l c1
      (c2, p ++ q)
    else Core.obsEntries tag v t stale forced l c

/-- Numbers a list from n. -/
def number {α : Type} : Nat → List α → List (Nat × α)
  | _, [] => []
  | n, x :: l => (n, x) :: number (n + 1) l

/-- An observation offered to the recorder (R535); answers the class 5 values it produces. -/
def Core.recObserve (c : Core) (tag : Tag) (v : DWord) (t : Time) (stale forced : Bool) :
    Core × List (Tag × DWord × Time) :=
  Core.obsEntries tag v t stale forced (number 0 c.spr.entries) c

/-- A MARK record in a running stream (R541, R560, R581, R594, R595). -/
def Core.putMark (c : Core) (k : Nat) (t : Time) (value : DWord) (source kind : Nat) : Core :=
  if (c.stream k).st ≠ .running then c else
  (c.putRec k t (fun base _ =>
    [unit128 (wd (4 * 2 ^ 29)) (recOffset base t) (loW value) (hiW value),
     unit128 (wd (fracOf t * 65536 + source)) (wd kind) 0 0]) 2).1

/-! ## Start, stop, tick (R551, R555, R558) -/

/-- Starts a stream: a new segment for the present second, counters kept from the last start of the device. -/
def Core.rsStart (c : Core) (k : Nat) : Core :=
  let s := c.stream k
  if s.st = .running then c else
  let c1 := c.onStream k fun s => { s with
    st := .running, segSeq := 0, segOpen := false, headerWritten := false, anyHeader := false, span := [], recsPrev := 0,
    stepped := false, lastAck := c.plumb.elapsed,
    loss := if s.gapUnreported then s.loss else none }
  let c2 := c1.onRec fun r => { r with entries := r.entries.map fun e =>
    if e.stream = k then { e with seen := 0, first := true, last := none, fine := none, gapped := false } else e }
  let c3 := c2.openSegment k (secOf c.now)
  let c4 := if (c3.stream k).loss.isSome then c3.gapWrite k 0 else c3
  c4.raise 0x0B01 (path 0xB k 0)

/-- Closes the open fine windows of a stream. -/
def Core.closeFines (k : Nat) : List Nat → Core → Core × List (Tag × DWord × Time)
  | [], c => (c, [])
  | i :: l, c =>
    let mine := (c.spr.entries[i]?).any fun e => e.stream = k
    let (c1, p) := if mine then c.closeFine i else (c, [])
    let (c2, q) := Core.closeFines k l c1
    (c2, p ++ q)

/-- Stops a running stream: open fine windows close with PARTIAL, a pending GAP is written when space allows, then the STOP
header (R550, R551, R558). -/
def Core.rsStop (c : Core) (k : Nat) : Core :=
  if (c.stream k).st ≠ .running then c else
  let c0 := (Core.closeFines k (List.range c.spr.entries.length) c).1
  let c1 := c0.gapWrite k 2
  let (c2, ok) := c1.room k 2
  let c3 := if ok && (c2.stream k).loss.isNone then
      c2.putHeader k true else c2
  let c4 := c3.onStream k fun s => { s with
    st := .stopped, segOpen := false, gapUnreported := s.loss.isSome, staged := 0 }
  c4.raise 0x0B02 (path 0xB k 0)

/-- What a tick does to the recorder: at tick 0 of a second every running stream opens a segment, unless a step has opened one for
this second, and the rates turn over; staging drains by 1,000 units (R542, R555). -/
def drainStaging : Nat → List Nat → List Nat
  | _, [] => []
  | n, x :: l => (x - min x n) :: drainStaging (n - min x n) l

def Core.recTick (c : Core) (newSecond : Bool) : Core :=
  let ks := List.range 16
  let drained := drainStaging 16000 (ks.map fun k => (c.stream k).staged)
  let c1 := forL (ks.zip drained) (fun p d => d.onStream p.1 fun s => { s with staged := p.2 }) c
  let c2 := c1.onRec fun r => { r with obsTick := 0 }
  if !newSecond then c2 else
  let c3 := c2.onRec fun r => { r with
    unitsLast := r.unitsNow, unitsMax := max r.unitsMax r.unitsNow, unitsNow := 0, obsLast := r.obsNow, obsNow := 0 }
  forL ks (fun k d =>
    let d1 := d.onStream k fun s => { s with rateLast := s.rateNow, rateNow := 0 }
    let x := d1.stream k
    if x.st = .running ∧ !(x.segOpen && x.segBase == secOf d1.now) then d1.openSegment k (secOf d1.now) else d1) c3

end Sys2Proof.Machine
end

