-- ==== Sys2Proof/Machine/Capture.lean ====
section
/-!
DEFINITION. Machine/Capture.lean: triggers and Basin captures (13_triggers_and_captures), and observe: what an observation
of a tag's value does to recorder, triggers and captures (R24, R535).
-/
namespace Sys2Proof.Machine

/-! ## Capture units -/

/-- Row period of a unit (R584). -/
def Core.rowPeriod (c : Core) (u : Nat) : Time := 2 ^ (c.fld (cpA A.CP_CFG u) 31 28) * tickLen
def Core.cpTags (c : Core) (u : Nat) : Nat := c.fld (cpA A.CP_CFG u) 27 22
def Core.rowTimes (c : Core) (u : Nat) : Bool := c.flag (cpA A.CP_CFG u) 21
/-- ROW_BYTES (R585). -/
def Core.rowBytes (c : Core) (u : Nat) : Nat :=
  8 + 8 * c.cpTags u + (if c.rowTimes u then 4 * c.cpTags u else 0)
def Core.basinRows (c : Core) (u : Nat) : Nat := c.fld (cpA A.CP_BASIN u) 22 0
def Core.cpSlots (c : Core) (u : Nat) : Nat := c.fld (cpA A.CP_BASIN u) 31 27
def Core.cpTag (c : Core) (u j : Nat) : Tag := c.regN (A.CP_TAG + 0x80 * u + 4 * j)
/-- Whether the image declares a unit (R33, R602). -/
def Core.unitDeclared (c : Core) (u : Nat) : Bool := c.image.units.any (fun p => p.1 == u)
def unitPath (u : Nat) : Nat := path 0xC u allOf

/-- First multiple of p at or after t. -/
def alignUp (p t : Time) : Time := if p = 0 then t else (t + p - 1) / p * p

/-- CP_LOAD: bytes per second of the units in ARMING, ARMED or TRIGGERED (R596). -/
def Core.cpLoad (c : Core) : Nat :=
  (List.range 64).foldl (fun n u =>
    let st := (c.unit u).st
    if st = .arming ∨ st = .armed ∨ st = .triggered then n + c.rowBytes u * (64000 / 2 ^ (c.fld (cpA A.CP_CFG u) 31 28)) else n) 0

/-- The lowest slot that holds nothing. -/
def Core.freeSlot (c : Core) (u : Nat) : Option Nat :=
  let x := c.unit u
  (List.range (c.cpSlots u)).find? fun s => !(x.held.any (fun b => b.slot == s)) && !(x.cur.any (fun b => b.slot == s))

/-- Which refusal of R587 applies, in the order of R11, NOT_CONFIGURED last: REFUSE, status, event. -/
def Core.armRefuse (c : Core) (u : Nat) : Option (Nat × Nat × Option Nat) :=
  let st := (c.unit u).st
  let pre := c.regN (cpA A.CP_PRE_ROWS u)
  let post := c.regN (cpA A.CP_POST_ROWS u)
  let spill := c.flag (cpA A.CP_CFG u) 20
  let trg := c.reg (cpA A.CP_TRIGGER u)
  if !(c.md.mode == .standby || c.running) then some (6, 0x09, none)
  else if st = .arming ∨ st = .armed ∨ st = .triggered then some (5, 0x0F, none)
  else if spill && (c.stream (c.fld (cpA A.CP_CFG u) 19 16)).st != .running then some (2, 0x0F, some 0x0C43)
  else if (c.freeSlot u).isNone then some (3, 0x0F, some 0x0C43)
  else if c.basinRows u < post + pre ∧ !spill then some (1, 0x08, some 0x0C41)
  else if bit trg 31 || c.fld (A.TR_CFG + 0x40 * bits trg 6 0) 31 28 == 0 then some (4, 0x06, some 0x0C43)
  else none

/-- A refused arm: REFUSE and the event, the unit's state unchanged (R587). -/
def Core.armRefused (u r : Nat) (ev : Option Nat) (c : Core) : Core :=
  let c1 := c.onUnit u fun x => { x with refuse := r }
  match ev with | some e => c1.raise e (unitPath u) | none => c1

/-- Arms a unit (R587, R592, R596): ARMING, with a free slot, or a refusal. Answers the status. `ts` is T_s. -/
def Core.arm (c : Core) (u : Nat) (ts : Time) : Core × Nat :=
  match c.armRefuse u with
  | some (r, status, ev) => (c.armRefused u r ev, status)
  | none =>
    let slot := (c.freeSlot u).getD 0
    let first := alignUp (c.rowPeriod u) (c.now + tickLen)
    let b : Basin := { slot := slot, preReq := c.regN (cpA A.CP_PRE_ROWS u), postReq := c.regN (cpA A.CP_POST_ROWS u),
                       flags := flg (c.rowTimes u) 8, spillStream := c.fld (cpA A.CP_CFG u) 19 16 }
    let c1 := c.onUnit u fun x => { x with
      st := .arming, cur := some b, tStart := ts, tFirst := first, waiting := none,
      lastTimes := [], spilling := false, rowSeen := none, passed := (0, 0) }
    if 1200000000 < c1.cpLoad then
      let c2 := forN 64 (fun v d => if (d.unit v).st = .arming ∨ (d.unit v).st = .armed ∨ (d.unit v).st = .triggered then
        d.onUnit v fun x => { x with loadWarn := true } else d) c1
      (c2.raise 0x0C03 (unitPath u), 0)
    else (c1, 0)

/-- Closes the current capture as held with flags, and re-arms or holds (R590, R595, R597). -/
def Core.closeCapture (c : Core) (u : Nat) (rearm : Bool) : Core :=
  match (c.unit u).cur with
  | none => c
  | some b =>
    let last := if b.spillRows ≠ 0 then (c.unit u).lastRow else match b.rows.getLast? with | some r => r.time | none => c.now
    let c1 := c.onUnit u fun x => { x with
      st := .hold, overflow := false, held := x.held ++ [b], cur := none, captures := (x.captures + 1) % 2 ^ 32, spilling := false }
    let c2 := c1.raise 0x0C01 (unitPath u)
    if rearm && c2.flag (cpA A.CP_CFG u) 10 && (c2.freeSlot u).isSome then
      (c2.arm u (last + c2.rowPeriod u)).1
    else c2

/-- Rows in the basin from the trigger row on. -/
def Basin.post (b : Basin) : Nat := b.rows.length - b.preAct

/-- The trigger row, when a row at or after the trigger time is held: PRE_ACT, PRE_SHORT, TRIG_EARLY (R589). `lost` says that
rows of the ring have been overwritten. -/
def Basin.settle (b : Basin) (period : Time) (lost : Bool) : Basin :=
  if b.trigRow.isSome then b else
  match b.rows.findIdx? (fun r => decide (b.trigTime ≤ r.time)) with
  | none => b
  | some i =>
    let row := (b.rows[i]?.map Row.time).getD 0
    let early := lost && i == 0 && decide (alignUp period b.trigTime < row)
    let pre := if early then 0 else min b.preReq i
    { b with rows := b.rows.drop (i - pre), preAct := pre, trigRow := some row,
             flags := b.flags ||| flg (decide (pre < b.preReq)) 1 ||| flg early 2 }

/-- A capture that ends before its count: without a trigger row every row held lies before it, and PRE_ROWS of them are kept. -/
def Basin.cut (b : Basin) (triggered : Bool) : Basin :=
  if !triggered then { b with preAct := 0, postAct := b.rows.length }
  else if b.trigRow.isSome then { b with postAct := b.post }
  else
    let pre := min b.preReq b.rows.length
    { b with rows := b.rows.drop (b.rows.length - pre), preAct := pre, postAct := 0, flags := b.flags ||| flg (decide (pre < b.preReq)) 1 }

/-- Completes a capture when its post-trigger rows are there (R590). -/
def Core.tryComplete (c : Core) (u : Nat) : Core :=
  match (c.unit u).cur with
  | none => c
  | some b =>
    if b.trigRow.isNone then c else
    let target := min b.postReq (c.basinRows u - b.preAct)
    if b.post < target then c
    else
      let b1 := { b with rows := b.rows.take (b.preAct + target), postAct := target }
      let spill := c.flag (cpA A.CP_CFG u) 20 && decide (target < b.postReq)
      if spill && decide (b.spillRows < b.postReq - target) then c.onUnit u fun x => { x with cur := some b1, spilling := true }
      else (c.onUnit u fun x => { x with cur := some b1 }).closeCapture u true

/-- A unit takes a firing: TRIGGERED (R589). `flags` are the header's flags that the firing brings. -/
def Core.takeFiring (c : Core) (u trg : Nat) (t : Time) (idx flags : Nat) : Core :=
  let per := c.rowPeriod u
  let full := c.basinRows u
  let c1 := c.onUnit u fun x => { x with
    st := .triggered, waiting := none,
    cur := x.cur.map fun b =>
      ({ b with flags := b.flags ||| 1 ||| flags, trigger := trg, trigTime := t, logIndex := idx }).settle per
        (decide (full ≤ b.rows.length)) }
  c1.tryComplete u

/-- Offers a firing to a unit: taken, missed (R589 to R592), or neither. An injection before T_first is no miss (R598). UNLOCKED is
judged as the firing arrives (R599). -/
def Core.offerUnit (c : Core) (u trg : Nat) (t : Time) (idx fl : Nat) : Core × Bool × Bool :=
  let x := c.unit u
  let flags := fl ||| flg c.unlocked 10
  let miss : Core × Bool × Bool :=
    ((c.onUnit u fun x => { x with
        missed := sat32 (x.missed + 1), cur := x.cur.map fun b => { b with missedBefore := b.missedBefore + 1 } }).raise 0x0C02
      (unitPath u), false, true)
  match x.st with
  | .idle => (c, false, false)
  | .hold => (c, false, false)
  | .arming =>
    if t < x.tFirst ∧ flags &&& 0x200 = 0 then miss
    else if x.waiting.isSome then
      (c.onUnit u fun x => { x with retrig := sat32 (x.retrig + 1), cur := x.cur.map fun b => { b with retrig := b.retrig + 1 } },
        false, false)
    else (c.onUnit u fun x => { x with waiting := some (trg, t, idx, flags) }, true, false)
  | .armed =>
    if x.tStart ≤ t ∧ t < x.tFirst ∧ flags &&& 0x200 = 0 then miss else (c.takeFiring u trg t idx flags, true, false)
  | .triggered =>
    let at_ := match x.cur with | some b => b.trigRow.getD b.trigTime | none => 0
    if at_ ≤ t then
      (c.onUnit u fun x => { x with retrig := sat32 (x.retrig + 1), cur := x.cur.map fun b => { b with retrig := b.retrig + 1 } },
        false, false)
    else (c, false, false)

/-- Device time reaches T_first: an ARMING unit becomes ARMED, and a waiting firing is taken (R592). -/
def Core.rearmEnd (c : Core) (u : Nat) : Core :=
  let x := c.unit u
  if x.st ≠ .arming ∨ c.now < x.tFirst then c else
  let c1 := c.onUnit u fun x => { x with st := .armed }
  match x.waiting with
  | some (trg, t, idx, fl) => c1.takeFiring u trg t idx fl
  | none => c1

/-! ## Firings (R581, R583) -/

/-- A log entry for a firing; answers its index. -/
def Core.logFiring (c : Core) (trg dev : Nat) (t : Time) (fl : Nat) : Nat × Core :=
  let i := c.cap.logNext
  let arr := if t ≤ c.now then min ((c.now - t) / 65536) 0xFFFFFFFF else 0
  (i, c.onCap fun p => { p with
    logNext := i + 1,
    log := ({ index := i, trigger := trg, device := dev, time := t, taken := 0, missed := 0, arrivalNs := arr, flags := fl } :: p.log).take 64 })

/-- Marks TAKEN or MISSED of a unit in a log entry. -/
def Core.markLog (c : Core) (i u : Nat) (taken missed : Bool) : Core :=
  c.onCap fun p => { p with log := p.log.map fun e =>
    if e.index = i then { e with taken := e.taken ||| flg taken u, missed := e.missed ||| flg missed u } else e }

/-- Offers a firing to one unit and notes the outcome in its log entry. -/
def Core.offerLogged (c : Core) (u trg : Nat) (t : Time) (idx flags : Nat) : Core :=
  let (c1, tk, ms_) := c.offerUnit u trg t idx flags
  c1.markLog idx u tk ms_

/-- Steps 1 to 4 of R581 for a firing of trigger x at time t. `dev` is the chain source, 0xFFFF when local. Answers whether the
firing was not discarded. -/
def Core.fireOne (c : Core) (x : Nat) (t : Time) (dev : Nat) : Core × Bool :=
  if c.now + second < t then
    ((c.onCap fun p => { p with discarded := sat32 (p.discarded + 1) }).raise 0x0C44 (path 0xC allOf allOf), false)
  else
    let (i, c1) := c.logFiring x dev t (if dev = 0xFFFF then 0 else 1)
    let c2 := c1.onTrig x fun r => { r with count := sat32 (r.count + 1), lastTime := t, lastFire := some t }
    let c3 := forN 64 (fun u d =>
      let tr := d.reg (cpA A.CP_TRIGGER u)
      if d.unitDeclared u && bits tr 6 0 == x && !bit tr 31 then d.offerLogged u x t i 0 else d) c2
    let marks := c3.fld (A.TR_MARKS + 0x20 * x) 15 0
    let c4 := forN 16 (fun k d => if marks.testBit k then d.putMark k t (BitVec.ofNat 64 i) x 1 else d) c3
    let c5 := if c4.flag (A.TR_MARKS + 0x20 * x) 16 then c4.lnFlood 4 [x, secOf t, nsOf t, fracOf t] else c4
    (c5, true)

/-- Whether a trigger runs: enabled, in Standby, Run or Service (R570). -/
def Core.trigRuns (c : Core) (x : Nat) : Bool :=
  c.flag (A.TR_CTL + 0x20 * x) 0 && (c.md.mode == .standby || c.running)
def Core.trigKind (c : Core) (x : Nat) : Nat := c.fld (A.TR_CFG + 0x40 * x) 31 28

/-- The sources of a combination, most significant byte first (R604). -/
def Core.trigSrcs (c : Core) (y : Nat) : List Nat :=
  let w := c.reg (A.TR_SRC + 0x40 * y)
  [bits w 31 24, bits w 23 16, bits w 15 8, bits w 7 0]

/-- Puts an occurrence at the places of a source. -/
def setHeld (x : Nat) (t : Time) : List Nat → List (Option Time) → List (Option Time)
  | s :: ss, h :: hs => (if s = x then some t else h) :: setHeld x t ss hs
  | _, hs => hs

/-- An occurrence of source x at time t is offered to combination y (R580). -/
def Core.combine (c : Core) (x : Nat) (t : Time) (y : Nat) : Core :=
  let k := c.trigKind y
  let src := c.trigSrcs y
  if !(c.trigRuns y) || !(k == 7 || k == 8) || !(src.contains x) then c else
  let r := c.trig y
  let w := ns (c.regN (A.TR_WIN_NS + 0x40 * y))
  let before := match r.lastFire with | some f => decide (t < f) | none => false
  if before then c
  else if k = 8 then
    let ok := match r.lastFire with | some f => decide (f + w ≤ t) | none => true
    if ok then (c.fireOne y t 0xFFFF).1 else c
  else
    let held := setHeld x t src r.held
    let used := (src.zip held).filter fun p => p.1 != 0xFF
    let times := used.filterMap Prod.snd
    let mx := times.foldl max 0
    let mn := times.foldl min mx
    if times.length = used.length ∧ mx - mn < w then
      ((c.onTrig y fun r => { r with held := [none, none, none, none] }).fireOne y mx 0xFFFF).1
    else c.onTrig y fun r => { r with held := held }

/-- A firing of trigger x, with step 5 of R581: combinations in ascending number. -/
def Core.fire (c : Core) (x : Nat) (t : Time) (dev : Nat := 0xFFFF) : Core :=
  let (c1, ok) := c.fireOne x t dev
  if ok then forN 128 (fun y d => d.combine x t y) c1 else c1

/-! ## Conditions (R572 to R577) -/

/-- Order of two tag values of a type, exactly. -/
def valLt (type : Nat) (a b : DWord) : Bool :=
  if type = 5 ∨ type = 6 then (tagFloat type a).lt? (tagFloat type b) == some true
  else decide (tagNum type a < tagNum type b)

/-- A bound moved by the hysteresis: exact for integers, in the float's own format rounded to binary64. -/
def shiftedLt (type : Nat) (v b h : DWord) (up : Bool) : Bool :=
  -- up: v > b + h; otherwise v < b − h
  if type = 5 ∨ type = 6 then
    let lim := round64 (FP.add (tagFloat type b) (if up then tagFloat type h else (tagFloat type h).neg))
    if up then lim.lt? (tagFloat type v) == some true else (tagFloat type v).lt? lim == some true
  else
    let hh := tagNum type h
    if up then decide (tagNum type b + hh < tagNum type v) else decide (tagNum type v < tagNum type b - hh)

/-- The crossing instant of R575. Float types go left to right in binary64 (notes/assumptions/13.md). -/
def crossTime (type : Nat) (t0 t1 : Time) (v0 v1 b : DWord) : Time :=
  let dt : Int := (t1 : Int) - t0
  if type = 5 ∨ type = 6 then
    let f := tagFloat type
    let num := round64 (FP.mul (FP.ofInt dt) (round64 (FP.add (f b) (f v0).neg)))
    let den := round64 (FP.add (f v1) (f v0).neg)
    let (q, st) := FP.div num den
    ((t0 : Int) + (round64 q st).floor).toNat
  else
    let num := dt * (tagNum type b - tagNum type v0)
    let den := tagNum type v1 - tagNum type v0
    if den = 0 then t1 else ((t0 : Int) + (if 0 < den then num.fdiv den else (-num).fdiv (-den))).toNat

/-- Whether a value is a NaN of a float tag. -/
def isNaNTag (type : Nat) (v : DWord) : Bool := (type == 5 || type == 6) && tagFloat type v == .nan

/-- A LEVEL condition: arming and firing for rise and fall, the crossed value L (R573). Answers arms and the firing bound. -/
def levelStep (type dir : Nat) (l h v : DWord) (ar af : Bool) : Bool × Bool × Option DWord :=
  let fireR := ar && !(valLt type v l)
  let fireF := af && !(valLt type l v)
  let armR := (dir == 1 || dir == 3) && shiftedLt type v l h false
  let armF := (dir == 2 || dir == 3) && shiftedLt type v l h true
  if fireR ∨ fireF then (false, false, some l) else (ar || armR, af || armF, none)

/-- A WINDOW condition (R574): `ar` armed to enter, `af` armed to leave. `v0` is the previous fresh value. -/
def windowStep (type dir : Nat) (lo hi h v v0 : DWord) (ar af : Bool) : Bool × Bool × Option DWord :=
  let below := valLt type v lo
  let above := valLt type hi v
  let inside := !below && !above
  let fireE := ar && inside
  let fireL := af && !inside
  let bound := if fireE then (if valLt type v0 lo then lo else hi) else if below then lo else hi
  let armE := (dir == 1 || dir == 3) && (shiftedLt type v lo h false || shiftedLt type v hi h true)
  let armL := (dir == 2 || dir == 3) && !(shiftedLt type lo v h true) && !(shiftedLt type hi v h false) && inside
  if fireE ∨ fireL then (false, false, some bound) else (ar || armE, af || armL, none)

/-- LO + H ≤ v ≤ HI − H, exactly (R574). -/
def wellInside (type : Nat) (lo hi h v : DWord) : Bool :=
  if type = 5 ∨ type = 6 then
    let f := tagFloat type
    !((f v).lt? (round64 (FP.add (f lo) (f h))) == some true) && !((round64 (FP.add (f hi) (f h).neg)).lt? (f v) == some true)
  else decide (tagNum type lo + tagNum type h ≤ tagNum type v ∧ tagNum type v ≤ tagNum type hi - tagNum type h)

def reg64w (c : Core) (a : Nat) : DWord := BitVec.ofNat 64 (c.reg64 a)

/-- A negative hysteresis in a tag's type, which R573 and R577 do not admit. -/
def badHyst (ty : Nat) (v : DWord) : Bool := valLt (if ty = 3 ∨ ty = 5 ∨ ty = 6 then ty else 2) v 0

/-- An observation offered to trigger x: evaluates its condition, and answers the trigger time when it fires (R572 to R576). After a
stale observation the next one can arm and count, and cannot fire; one that would fire ends the arming (notes/assumptions/77.md). -/
def Core.condition (c : Core) (x : Nat) (tag : Tag) (v : DWord) (t : Time) (stale : Bool) : Core × Option Time :=
  let k := c.trigKind x
  if !(c.trigRuns x) || !(k == 2 || k == 3 || k == 4) || c.regN (A.TR_TAG + 0x40 * x) != tag then (c, none) else
  let ty := c.tagType tag
  let cfg := c.reg (A.TR_CFG + 0x40 * x)
  let dir := bits cfg 27 26
  let r := c.trig x
  if stale || isNaNTag ty v then
    (c.onTrig x fun r => { r with prev := none, run := 0 }, none)
  else if k = 4 then
    let b := v.getLsbD (bits cfg 21 16)
    let put (f : Trig → Trig) : Core := c.onTrig x fun r => f { r with prev := some (t, v) }
    match r.level with
    | none => (put fun r => { r with level := some b, run := 0 }, none)
    | some l =>
      if b = l then (put fun r => { r with run := 0 }, none)
      else
        let first := if r.run = 0 then t else r.runFirst
        let run := r.run + 1
        if bits cfg 15 8 ≤ run ∧ r.prev.isSome then
          (put fun r => { r with level := some b, run := 0 }, if dir = 3 ∨ (dir = 1 ∧ b) ∨ (dir = 2 ∧ !b) then some first else none)
        else (put fun r => { r with run := run, runFirst := first }, none)
  else
    let l := reg64w c (A.TR_LEVEL + 0x40 * x)
    let hi := reg64w c (A.TR_HIGH + 0x40 * x)
    let h := reg64w c (A.TR_HYST + 0x40 * x)
    let upd (ar af : Bool) (d : Core) : Core := d.onTrig x fun r => { r with armRise := ar, armFall := af, prev := some (t, v) }
    let step (v0 : DWord) (ar af : Bool) : Bool × Bool × Option DWord :=
      if k = 2 then levelStep ty dir l h v ar af
      else
        let (a, b, f) := windowStep ty dir l hi h v v0 ar af
        (a, if f.isSome then false else af || ((dir == 2 || dir == 3) && wellInside ty l hi h v && b), f)
    match r.prev with
    | none =>
      let (ar, af, f) := step v r.armRise r.armFall
      let (ar', af', _) := if f.isSome then step v false false else (ar, af, none)
      (upd ar' af' c, none)
    | some (t0, v0) =>
      let (ar, af, f) := step v0 r.armRise r.armFall
      (upd ar af c, f.map fun b => crossTime ty t0 t v0 v b)

/-- Puts a firing among others by trigger time, after those of the same time. -/
def insertFire (f : Time × Nat) : List (Time × Nat) → List (Time × Nat)
  | [] => [f]
  | g :: l => if f.1 < g.1 then f :: g :: l else g :: insertFire f l

/-- An observation offered to every condition; the firings follow in ascending trigger time, then number (R582). -/
def Core.conditions (tag : Tag) (v : DWord) (t : Time) (stale : Bool) (c : Core) : Core :=
  let (c1, fs) := (List.range 128).foldl (fun (p : Core × List (Time × Nat)) x =>
    let (d, f) := p.1.condition x tag v t stale
    (d, match f with | some s => insertFire (s, x) p.2 | none => p.2)) (c, [])
  forL fs (fun f d => d.fire f.2 f.1) c1

/-! ## Observations -/

/-- Keeps an observation for the rows of units that name its tag: newest first, the last 5 ms and one older. -/
def keepObs (now : Time) : List Obs → List Obs
  | [] => []
  | o :: l => if o.time + 5 * ms < now then [o] else o :: keepObs now l

/-- An observation of a tag (R24, R535): stream entries, conditions in ascending trigger number, capture rows. -/
def Core.observe1 (c : Core) (tag : Tag) (v : DWord) (t : Time) (stale forced : Bool) :
    Core × List (Tag × DWord × Time) :=
  let (c1, more) := c.recObserve tag v t stale forced
  let c2 := if c1.image.units.any (fun p => p.2.contains tag) then
      c1.onCap fun p => { p with obs := SMap.upd [] p.obs tag fun l =>
        { time := t, value := v, stale := stale, arrived := c1.now } :: keepObs c1.now l } else c1
  (c2.conditions tag v t stale, more)

/-- Observations that follow from fine windows, to a depth that the class 5 tags of an image can chain. -/
def Core.observeMore : Nat → List (Tag × DWord × Time) → Core → Core
  | 0, _, c => c
  | _ + 1, [], c => c
  | f + 1, (tag, v, t) :: l, c =>
    let (c1, more) := c.observe1 tag v t false false
    Core.observeMore f (l ++ more) c1

/-- Whether streams, triggers and captures run (R551, R570, R599). -/
def Core.observing (c : Core) : Bool := c.md.mode == .standby || c.running

/-- An observation and what it produces. Outside Standby, Run and Service nothing observes. -/
def Core.observe (c : Core) (tag : Tag) (v : DWord) (t : Time) (stale : Bool := false) (forced : Bool := false) : Core :=
  if !c.observing then c else
  let (c1, more) := c.observe1 tag v t stale forced
  Core.observeMore 300 more c1

/-- Production of a class 4 or 6 tag: the tag store takes the value at once (R23), and it is observed. -/
def Core.produce (c : Core) (tag : Tag) (v : DWord) (t : Time) (stale : Bool := false) : Core :=
  (c.setTag tag v).observe tag v t stale

/-! ## Rows (R585, R588 to R595) -/

/-- The newest kept observation at or before T that has arrived by a limit. -/
def newestAt (t lim : Time) : List Obs → Option Obs → Option Obs
  | [], b => b
  | o :: l, b =>
    if o.time ≤ t ∧ o.arrived ≤ lim then
      newestAt t lim l (match b with | some x => if x.time < o.time then some o else some x | none => some o)
    else newestAt t lim l b

/-- CP_ROW_DELAY (R585). -/
def Core.rowDelay (c : Core) (u : Nat) : Time := ns (c.regN (cpA A.CP_ROW_DELAY u))

/-- The row of instant T (R585), with the carried times for the next row's FRESH. -/
def Core.buildRow (c : Core) (u : Nat) (t : Time) : Row × List (Option Time) :=
  let n := c.cpTags u
  let os := (List.range n).map fun j => newestAt t (t + c.rowDelay u) (SMap.get [] c.cap.obs (c.cpTag u j)) none
  let prev := (c.unit u).lastTimes
  let mask (f : Nat → Option Obs → Bool) : Nat := (number 0 os).foldl (fun m p => m + flg (f p.1 p.2) p.1) 0
  ({ time := t,
     stale := mask fun _ o => match o with | some x => x.stale | none => true,
     fresh := mask fun j o => match o, prev[j]? with
       | some x, some (some p) => decide (p < x.time)
       | some _, _ => true
       | none, _ => false,
     vals := os.map fun o => match o with | some x => x.value | none => 0,
     dts := os.map fun o => match o with
       | some x => clampI (-(2 ^ 31)) 0 (-(((t - x.time) / 65536 : Nat) : Int))
       | none => -(2 ^ 31) },
   os.map fun o => o.map Obs.time)

/-- A spilled row: one VALUE record per slot, bracketed by MARK records (R594). -/
def Core.spillRow (c : Core) (u : Nat) (r : Row) : Core :=
  match (c.unit u).cur with
  | none => c
  | some b =>
    let k := b.spillStream
    let total := b.postReq - b.postAct
    let c1 := if b.spillRows = 0 then c.putMark k r.time (BitVec.ofNat 64 total) (0x8000 + u) 4 else c
    let c2 := (number 0 r.vals).foldl (fun d p =>
      (d.putRec k r.time (fun base _ => obsUnits 0 false false (r.stale.testBit p.1) (d.cpTag u p.1) p.2 r.time base) 1).1) c1
    let n := b.spillRows + 1
    let c3 := c2.onUnit u fun x => { x with cur := x.cur.map fun b => { b with spillRows := n, flags := b.flags ||| 0x20 } }
    if total ≤ n then (c3.putMark k r.time (BitVec.ofNat 64 n) (0x8000 + u) 5).closeCapture u true else c3

/-- The stream of a spill has stopped: the rows not offered are lost (R594). -/
def Core.spillShort (c : Core) (u : Nat) : Core :=
  match (c.unit u).cur with
  | none => c
  | some b =>
    let lost := b.postReq - b.postAct - b.spillRows
    let c1 := c.onUnit u fun x => { x with
      spillLost := sat32 (x.spillLost + lost),
      cur := x.cur.map fun b => { b with spillLost := lost, flags := b.flags ||| 0x40 } }
    (c1.raise 0x0C05 (unitPath u)).closeCapture u true

/-- A row that cannot be staged ends the capture (R595). -/
def Core.overflow (c : Core) (u : Nat) (t : Time) : Core :=
  let trig := (c.unit u).st = .triggered
  let kept := ((c.unit u).cur.map fun b => b.rows.length).getD 0
  let c1 := c.onUnit u fun x => { x with
    st := .hold, overflow := true, spilling := false, cur := none,
    held := x.held ++ (x.cur.map fun b => { (b.cut trig) with flags := (b.cut trig).flags ||| 8, ovr := t }).toList }
  let c2 := if c1.flag (cpA A.CP_CFG u) 15 then
      c1.putMark (c1.fld (cpA A.CP_CFG u) 14 11) t (BitVec.ofNat 64 kept) (0x8000 + u) 3 else c1
  c2.raise 0x0C42 (unitPath u)

/-- Whether the row of instant T is one that a unit takes: on its grid, from T_first on, each once (R584, R592, R834). -/
def Core.rowDue (c : Core) (u : Nat) (t : Time) : Bool :=
  let x := c.unit u
  let late := x.cur.isNone || (match x.rowSeen with | some r => decide (t ≤ r) | none => false) ||
    (decide (x.passed.1 < t) && decide (t < x.passed.2))
  (x.st == .armed || x.st == .triggered) && !late && decide (x.tFirst ≤ t) && t % c.rowPeriod u == 0

/-- Assembly of the row of instant T (R585): stored, spilled, completing, or an overflow. -/
def Core.rowAssemble (c : Core) (u : Nat) (t : Time) : Core :=
  let x := c.unit u
  if !c.rowDue u t then c else
  let bytes := c.rowBytes u
  if c.regN (cpA A.CP_STAGE_QUOTA u) < x.staged + bytes then c.overflow u t else
  let (r, times) := c.buildRow u t
  let c1 := c.onUnit u fun x => { x with staged := x.staged + bytes, lastTimes := times, lastRow := t, rowSeen := some t }
  let c2 := c1.onCap fun p => { p with bytesNow := p.bytesNow + bytes }
  if x.spilling then
    if (c2.stream ((x.cur.map Basin.spillStream).getD 0)).st = .running then c2.spillRow u r else c2.spillShort u
  else
    let full := c.basinRows u
    let per := c.rowPeriod u
    let push (b : Basin) : Basin :=
      let rows := b.rows ++ [r]
      let ovr := decide (full < rows.length) && b.trigRow.isNone
      let b1 := { b with rows := if ovr then rows.drop 1 else rows }
      if x.st = .triggered then b1.settle per false else b1
    let c3 := c2.onUnit u fun x => { x with cur := x.cur.map push }
    if x.st = .triggered then c3.tryComplete u else c3

/-- Staging of captures drains at 18,750 bytes a tick (R595). -/
def Core.capTick (c : Core) (newSecond : Bool) : Core :=
  let us := List.range 64
  let drained := drainStaging 18750 (us.map fun u => (c.unit u).staged)
  let c1 := forL (us.zip drained) (fun p d => if (d.unit p.1).staged = p.2 then d else d.onUnit p.1 fun x => { x with staged := p.2 }) c
  if newSecond then c1.onCap fun p => { p with bytesLast := p.bytesNow, bytesNow := 0 } else c1

/-- DISARM, or an ABORT of the unit (R597). -/
def Core.disarm (c : Core) (u : Nat) : Core :=
  match (c.unit u).st with
  | .arming => c.onUnit u fun x => { x with st := .idle, cur := none, waiting := none }
  | .armed => c.onUnit u fun x => { x with st := .idle, cur := none, waiting := none }
  | .triggered =>
    let c1 := c.onUnit u fun x => { x with
      st := .hold, cur := none, spilling := false, captures := (x.captures + 1) % 2 ^ 32,
      held := x.held ++ (x.cur.map fun b => { (b.cut true) with flags := (b.cut true).flags ||| 0x10 }).toList }
    c1.raise 0x0C01 (unitPath u)
  | _ => c

/-- RELEASE: the oldest held slot is freed; a unit in HOLD with AUTO_REARM re-arms (R593). -/
def Core.release (c : Core) (u : Nat) : Core :=
  if (c.unit u).held = [] then c else
  let c1 := c.onUnit u fun x => { x with held := x.held.drop 1 }
  if (c1.unit u).st = .hold ∧ c1.flag (cpA A.CP_CFG u) 10 then (c1.arm u c1.now).1 else c1

/-- CP_CTL.TRIGGER: fires one unit, logged with trigger 0xFFFF (R578). -/
def Core.unitFire (c : Core) (u : Nat) (t : Time) (fl : Nat) : Core :=
  let (i, c1) := c.logFiring 0xFFFF 0xFFFF t fl
  c1.offerLogged u 0xFFFF t i (if fl = 4 then 0x200 else 0)

/-- Clearing or setting TR_CTL.ENABLE: clearing resets the condition state (R570). -/
def Core.trEnable (c : Core) (x : Nat) (on : Bool) : Core :=
  let c1 := c.setFld (A.TR_CTL + 0x20 * x) 0 0 (if on then 1 else 0)
  if on then c1 else c1.onTrig x fun r => { count := r.count, lastTime := r.lastTime }

/-- What every start does: units idle, slots free, log and conditions cleared (R583, R599). -/
def Core.capStart (c : Core) : Core := { c with cap := {} }

/-- Words of a header and rows as the read-out presents them (R600). -/
def capWords (boots : Nat) (period : Nat) (rowBytes : Nat) (u : Nat) (tags : List Tag) (b : Basin) (rowTimes : Bool) :
    List Word :=
  let first := (b.rows.head?.map Row.time).getD 0
  let rows : List Word := b.rows.flatMap fun r =>
    [wd r.stale, wd r.fresh] ++ (r.vals.flatMap fun v => [loW v, hiW v]) ++ (if rowTimes then r.dts.map wi else [])
  let crc := crc32c (rows.flatMap wordBytes)
  [0x42534E31, wd (0x0001 * 65536 + u * 256 + b.slot), wd b.flags, wd (b.trigger * 65536 + tags.length * 256 + period),
   wd (secOf b.trigTime / 2 ^ 32), wd (secOf b.trigTime), wd (nsOf b.trigTime), wd (fracOf b.trigTime * 65536),
   wd (secOf first / 2 ^ 32), wd (secOf first), wd (nsOf first), wd rowBytes, wd b.preReq, wd b.preAct, wd b.postReq,
   wd b.postAct] ++
  [wd b.spillRows, wd b.spillLost, wd b.retrig, wd b.missedBefore, wd b.logIndex, wd boots,
   wd (secOf b.ovr / 2 ^ 32), wd (secOf b.ovr), wd (nsOf b.ovr), wd (b.spillStream * 2 ^ 24), crc, 0, 0, 0, 0, 0] ++
  ((tags ++ List.replicate 32 0).take 32).map wd ++ rows

/-- The words of a trigger-log entry (R583). -/
def TrigLog.words (e : TrigLog) : List Word :=
  [wd e.index, wd (e.trigger * 65536 + e.device), wd (secOf e.time / 2 ^ 32), wd (secOf e.time), wd (nsOf e.time),
   wd (fracOf e.time * 65536), wd e.taken, wd (e.taken / 2 ^ 32), wd e.missed, wd (e.missed / 2 ^ 32), wd e.arrivalNs,
   wd e.flags, 0, 0, 0, 0]

end Sys2Proof.Machine
end

