-- ==== Sys2Proof/Machine/Operands.lean ====
section
/-!
DEFINITION. Machine/Operands.lean: op words and their fields (R237, R238), the fields the image check admits (R241, R836 to
R840), worst-case times (R242), and the operand forms of the ops: words, pairs, Q15 vectors, accumulators.
-/
namespace Sys2Proof.Machine

/-! ## The op word (R237, R238) -/

/-- OPCODE of an op word. -/
def opcodeOf (w : DWord) : Nat := w.toNat >>> 56

/-- Whether an opcode takes two op words (R238). -/
def isLong (op : Nat) : Bool := op == 0x12 || (decide (0xB0 ≤ op) && decide (op ≤ 0xDF))

/-- The fields of an op word and, for a long op, of its second word. -/
def opFields (w w2 : DWord) : OpWord :=
  { cond := (w >>> 54).setWidth 2
    pred := (w >>> 50).setWidth 4
    dst := (w >>> 36).setWidth 14
    a := (w >>> 22).setWidth 14
    b := (w >>> 8).setWidth 14
    imm := w.setWidth 8
    addr := (w2 >>> 32).setWidth 32
    aux := w2.setWidth 32 }

/-- The first op word of an opcode and its fields. -/
def opWord1 (op : Nat) (o : OpWord) : DWord :=
  BitVec.ofNat 64 (op * 2 ^ 56 + o.cond.toNat * 2 ^ 54 + o.pred.toNat * 2 ^ 50 + o.dst.toNat * 2 ^ 36 +
    o.a.toNat * 2 ^ 22 + o.b.toNat * 2 ^ 8 + o.imm.toNat)

/-- The second op word of a long op. -/
def opWord2 (o : OpWord) : DWord := o.addr ++ o.aux

/-- Whether R242 lists an opcode. -/
def knownOp (op : Nat) : Bool :=
  decide (op ≤ 0x15) || (decide (0x20 ≤ op) && decide (op ≤ 0x2B)) || (decide (0x40 ≤ op) && decide (op ≤ 0x43)) ||
  (decide (0x60 ≤ op) && decide (op ≤ 0x6C)) || (decide (0x80 ≤ op) && decide (op ≤ 0x8A)) ||
  (decide (0xA0 ≤ op) && decide (op ≤ 0xA4)) || (decide (0xB0 ≤ op) && decide (op ≤ 0xB4)) ||
  (decide (0xC0 ≤ op) && decide (op ≤ 0xC3)) || (decide (0xD0 ≤ op) && decide (op ≤ 0xD3))

def even14 (x : BitVec 14) : Bool := x.toNat % 2 == 0

/-- The indices that R837 requires even. -/
def pairsOk (op : Nat) (o : OpWord) : Bool :=
  if op = 0x20 ∨ op = 0x21 ∨ op = 0x22 ∨ op = 0x23 ∨ op = 0x24 then even14 o.dst && even14 o.a && even14 o.b
  else if op = 0x25 ∨ op = 0x26 ∨ op = 0x27 then even14 o.dst && even14 o.a
  else if op = 0x28 ∨ op = 0x29 ∨ op = 0x2A then even14 o.a && even14 o.b
  else if op = 0x2B ∨ op = 0xB0 ∨ op = 0xB2 ∨ op = 0xB4 ∨ op = 0x40 then even14 o.dst
  else if op = 0xB1 ∨ op = 0xB3 ∨ op = 0x43 then even14 o.a
  else true

/-- The bit and predicate numbers of R836. -/
def rangesOk (op : Nat) (o : OpWord) : Bool :=
  if op = 0x84 ∨ op = 0x85 ∨ op = 0x86 then decide (o.imm.toNat ≤ 31)
  else if op = 0x0B ∨ op = 0x0C ∨ op = 0x0D ∨ op = 0x28 ∨ op = 0x29 ∨ op = 0x2A ∨ op = 0x66 ∨ op = 0x67 ∨ op = 0x87 then
    decide (o.imm.toNat ≤ 15)
  else if op = 0x88 ∨ op = 0x89 then
    decide (o.imm.toNat ≤ 15) && decide (o.a.toNat ≤ 15) && decide (o.b.toNat ≤ 15) && o.dst == 0
  else if op = 0x8A then decide (o.imm.toNat ≤ 15) && decide (o.a.toNat ≤ 15) && o.b == 0 && o.dst == 0
  else true

/-- The event codes that R358 lists. -/
def pgCodes : List Nat := [0x0801, 0x0803, 0x0804, 0x0805, 0x0806, 0x0807, 0x0808, 0x0842, 0x0843, 0x0844, 0x0846, 0x0881]

/-- ADDR of TRD1 and TWR1 (R839), of EVT (R840), of CMTLP (R379) and CMTAX (R449). -/
def addrOk (op : Nat) (o : OpWord) : Bool :=
  if op = 0xB0 ∨ op = 0xB1 then decide (o.addr.toNat ≤ 20971512)
  else if op = 0xD3 then
    bits o.addr 31 16 == 0 && bits o.addr 15 8 == 0x08 && decide (bits o.addr 7 0 < 0x80) && !pgCodes.contains o.addr.toNat
  else if op = 0xC2 then bits o.addr 31 18 == 0 && bits o.addr 15 10 == 0 && decide (bits o.addr 17 16 ≤ 2)
  else if op = 0xC3 then decide (o.addr.toNat < 192) && decide (o.aux.toNat ≤ 4)
  else true

/-- An op word that the image check admits (R237, R241, R836 to R840). -/
def opOk (op : Nat) (o : OpWord) : Bool :=
  knownOp op && decide (o.cond.toNat ≠ 3) && pairsOk op o && rangesOk op o && addrOk op o

/-- Groups of up to eight elements of a vector op (R838). -/
def groups (o : OpWord) : Nat := (o.imm.toNat + 8) / 8

/-- Worst-case time of an op in units of 0.1 ns (R242); `inBytes` is a module's IN_BYTES, for LATCHM. -/
def opTime (op : Nat) (o : OpWord) (inBytes : Nat → Nat) : Nat :=
  if op = 0x00 then 4
  else if op = 0x01 ∨ op = 0x02 then 16
  else if op = 0x03 then 32 else if op = 0x04 then 36
  else if op ≤ 0x07 then 160
  else if op ≤ 0x10 then 16
  else if op ≤ 0x12 then 12
  else if op = 0x13 then 16
  else if op ≤ 0x15 then 24
  else if op = 0x20 ∨ op = 0x21 then 20
  else if op = 0x22 then 64
  else if op = 0x23 ∨ op = 0x24 then 320
  else if op ≤ 0x2A then 20
  else if op = 0x2B then 16
  else if op = 0x40 ∨ op = 0x41 ∨ op = 0x42 then 24 * groups o
  else if op = 0x43 then 16
  else if op ≤ 0x62 then 32
  else if op = 0x63 then 40
  else if op = 0x64 ∨ op = 0x65 then 128
  else if op = 0x66 ∨ op = 0x67 then 20
  else if op = 0x68 ∨ op = 0x69 then 24
  else if op ≤ 0x6C then 20
  else if op ≤ 0x8A then 12
  else if op ≤ 0xA2 then 40
  else if op ≤ 0xA4 then 24
  else if op ≤ 0xB1 then 180
  else if op ≤ 0xB4 then 2200
  else if op = 0xC0 then 400 + 30 * cdiv (16 + inBytes o.addr.toNat) 8
  else if op = 0xC1 ∨ op = 0xC2 then 60
  else if op = 0xC3 then 80
  else 240

/-- The ops in a stretch of an op store: opcode and fields. A long op takes two words. -/
def opsIn (words : Nat → DWord) : Nat → Nat → List (Nat × OpWord)
  | 0, _ => []
  | n + 1, i =>
    let op := opcodeOf (words i)
    (op, opFields (words i) (if isLong op then words (i + 1) else 0)) ::
      (if isLong op then (match n with | 0 => [] | k + 1 => opsIn words k (i + 2)) else opsIn words n (i + 1))

/-! ## Operand forms -/

/-- Words of an operand buffer (R231). -/
def bufSize : Nat := 16384

/-- A word of an operand that may run past the buffer; a word past it has no stated value (notes/assumptions/20.md). -/
def Tile.wordF (fr : Nat → Word) (t : Tile) (i : Nat) : Word := if i < bufSize then t.word i else fr (i - bufSize)

/-- Writes a word of a result that may run past the buffer; a word past it is nowhere. -/
def Tile.setWordB (t : Tile) (i : Nat) (v : Word) : Tile := if i < bufSize then t.setWord i v else t

/-- Element i of a Q15 vector operand at a word index (R838). -/
def Tile.elem (fr : Nat → Word) (t : Tile) (x i : Nat) : Int :=
  let w := t.wordF fr (x + i / 2)
  sx 16 (if i % 2 = 0 then bits w 15 0 else bits w 31 16)

/-- Writes element i of a Q15 vector result, the other half of its word unchanged (R838). -/
def Tile.setElem (t : Tile) (x i : Nat) (v : Int) : Tile :=
  let j := x + i / 2
  if j < bufSize then
    let w := t.word j
    let h := (v % 65536).toNat
    t.setWord j (if i % 2 = 0 then wd (bits w 31 16 * 65536 + h) else wd (h * 65536 + bits w 15 0))
  else t

/-- Writes the elements of a Q15 vector result from element i on. -/
def Tile.setElems (x : Nat) : Nat → List Int → Tile → Tile
  | _, [], t => t
  | i, v :: l, t => Tile.setElems x (i + 1) l (t.setElem x i v)

/-- A 40-bit accumulator held sign-extended in a 64-bit operand (R838). -/
def Tile.acc (t : Tile) (x : Nat) : Int := sx 40 ((t.dword x).toNat % 2 ^ 40)

/-- Writes an accumulator, sign-extended. -/
def Tile.setAcc (t : Tile) (x : Nat) (v : Int) : Tile := t.setDword x (BitVec.ofInt 64 v)

end Sys2Proof.Machine
end

