-- ==== Sys2Proof/Machine/Flags.lean ====
section
/-!
DEFINITION. Machine/Flags.lean: the predicates of a tile (R239, R240) and the saturations of the Q15 ops (R838).
-/
namespace Sys2Proof.Machine

/-- Whether COND of an op is met (R237, R239). -/
def Tile.condMet (t : Tile) (o : OpWord) : Bool :=
  if o.cond = 1 then t.pred o.pred.toNat else if o.cond = 2 then !t.pred o.pred.toNat else true

/-- Writes the predicate that IMM names (R836). -/
def Tile.setPredImm (t : Tile) (o : OpWord) (b : Bool) : Tile := t.setPred o.imm.toNat b

/-- Saturates to Q15. -/
def satQ15 (x : Int) : Int := clampI (-32768) 32767 x

/-- A Q30 product as Q15: adds 2^14, shifts right by 15 and saturates (R364, R838). -/
def q30to15 (x : Int) : Int := satQ15 ((x + 16384) / 32768)

/-- Whether a value fits a 40-bit accumulator. -/
def fits40 (x : Int) : Bool := decide (-(2 ^ 39) ≤ x) && decide (x < 2 ^ 39)

end Sys2Proof.Machine
end

