-- ==== Sys2Proof/Machine/Alu.lean ====
section
/-!
DEFINITION. Machine/Alu.lean: the ops of the op set that act on a tile, Tarn 1, the tag store and the commit buffer (R242,
R243, R836 to R839): one definition for each op, and the choice among them by opcode.
-/
namespace Sys2Proof.Machine

/-! ## What runs an op -/

/-- Runs an op's effect on its tile. -/
def onTileOp (f : OpWord → Tile → Tile) (t : Nat) (o : OpWord) (c : Core) : Core := c.onTile t (f o)

/-- Runs an op that may meet a value the manual does not state: free values are taken from the counter on. -/
def onTileFree (f : (Nat → Word) → OpWord → Tile → Tile) (t : Nat) (o : OpWord) (c : Core) : Core :=
  { c.onTile t (f (fun i => Config.freeWord (c.free + i)) o) with free := c.free + 512 }

/-- A 32-bit result of two words. -/
def bin32 (f : Word → Word → Word) (o : OpWord) (t : Tile) : Tile :=
  t.setWord o.dst.toNat (f (t.word o.a.toNat) (t.word o.b.toNat))
/-- A 32-bit result of one word. -/
def un32 (f : Word → Word) (o : OpWord) (t : Tile) : Tile := t.setWord o.dst.toNat (f (t.word o.a.toNat))
/-- Predicate IMM from two words. -/
def cmp32 (f : Word → Word → Bool) (o : OpWord) (t : Tile) : Tile :=
  t.setPredImm o (f (t.word o.a.toNat) (t.word o.b.toNat))
/-- A 64-bit result of two 64-bit operands. -/
def bin64 (f : DWord → DWord → DWord) (o : OpWord) (t : Tile) : Tile :=
  t.setDword o.dst.toNat (f (t.dword o.a.toNat) (t.dword o.b.toNat))
/-- A 64-bit shift by the word at SRCB (R837). -/
def shift64 (f : DWord → Nat → DWord) (o : OpWord) (t : Tile) : Tile :=
  t.setDword o.dst.toNat (f (t.dword o.a.toNat) ((t.word o.b.toNat).toNat % 64))
/-- Predicate IMM from two 64-bit operands. -/
def cmp64 (f : DWord → DWord → Bool) (o : OpWord) (t : Tile) : Tile :=
  t.setPredImm o (f (t.dword o.a.toNat) (t.dword o.b.toNat))

/-! ## Division (R243) -/

/-- Signed division without traps: by zero the extreme of the dividend's sign; otherwise toward zero. -/
def divs (n : Nat) (a b : BitVec n) : BitVec n :=
  if b = 0 then (if a.toInt = 0 then 0 else if 0 < a.toInt then BitVec.ofNat n (2 ^ (n - 1) - 1) else BitVec.ofNat n (2 ^ (n - 1)))
  else BitVec.ofInt n (a.toInt.tdiv b.toInt)
/-- Unsigned division; by zero all ones. -/
def divu (n : Nat) (a b : BitVec n) : BitVec n := if b = 0 then BitVec.allOnes n else BitVec.ofNat n (a.toNat / b.toNat)
/-- Signed remainder; by zero the dividend. -/
def rems (a b : Word) : Word := if b = 0 then a else BitVec.ofInt 32 (a.toInt.tmod b.toInt)

/-! ## The ops -/

/-- NOP. -/
def aluNop : OpWord → Tile → Tile := fun _ t => t

/-- ADD: wrapping. -/
def aluAdd : OpWord → Tile → Tile := bin32 (· + ·)

/-- SUB: wrapping. -/
def aluSub : OpWord → Tile → Tile := bin32 (· - ·)

/-- MUL: low 32 bits. -/
def aluMul : OpWord → Tile → Tile := bin32 (· * ·)

/-- MULH: signed high 32 bits. -/
def aluMulh : OpWord → Tile → Tile := bin32 fun a b => wi (a.toInt * b.toInt / 2 ^ 32)

/-- DIVS (R243). -/
def aluDivs : OpWord → Tile → Tile := bin32 (divs 32)

/-- DIVU (R243). -/
def aluDivu : OpWord → Tile → Tile := bin32 (divu 32)

/-- REMS (R243). -/
def aluRems : OpWord → Tile → Tile := bin32 rems

/-- SHL: by B mod 32. -/
def aluShl : OpWord → Tile → Tile := bin32 fun a b => a <<< (b.toNat % 32)

/-- SHRS: arithmetic, by B mod 32. -/
def aluShrs : OpWord → Tile → Tile := bin32 fun a b => a.sshiftRight (b.toNat % 32)

/-- SHRU: logical, by B mod 32. -/
def aluShru : OpWord → Tile → Tile := bin32 fun a b => a >>> (b.toNat % 32)

/-- CMPEQ. -/
def aluCmpeq : OpWord → Tile → Tile := cmp32 (· == ·)

/-- CMPLT: signed. -/
def aluCmplt : OpWord → Tile → Tile := cmp32 fun a b => decide (a.toInt < b.toInt)

/-- CMPLTU: unsigned. -/
def aluCmpltu : OpWord → Tile → Tile := cmp32 fun a b => decide (a.toNat < b.toNat)

/-- MIN: signed. -/
def aluMin : OpWord → Tile → Tile := bin32 fun a b => if a.toInt ≤ b.toInt then a else b

/-- MAX: signed. -/
def aluMax : OpWord → Tile → Tile := bin32 fun a b => if a.toInt ≤ b.toInt then b else a

/-- ABS: the most negative word has no stated result (notes/assumptions/21.md). -/
def aluAbs : (Nat → Word) → OpWord → Tile → Tile := fun fr o t =>
  un32 (fun a => if a = 0x80000000 then fr 0 else if a.toInt < 0 then -a else a) o t

/-- MOV. -/
def aluMov : OpWord → Tile → Tile := un32 id

/-- LDI: DST := ADDR. -/
def aluLdi : OpWord → Tile → Tile := fun o t => t.setWord o.dst.toNat o.addr

/-- SEL: DST := PRED ? A : B. -/
def aluSel : OpWord → Tile → Tile := fun o t => t.setWord o.dst.toNat (if t.pred o.pred.toNat then t.word o.a.toNat else t.word o.b.toNat)

/-- LDX: DST := buf[A + IMM]; 0 for an index outside the buffer (R839). -/
def aluLdx : OpWord → Tile → Tile := fun o t =>
  let i := (t.word o.a.toNat + o.imm.setWidth 32).toNat
  t.setWord o.dst.toNat (if i < bufSize then t.word i else 0)

/-- STX: buf[A + IMM] := B; nothing for an index outside the buffer (R839). -/
def aluStx : OpWord → Tile → Tile := fun o t =>
  let i := (t.word o.a.toNat + o.imm.setWidth 32).toNat
  if i < bufSize then t.setWord i (t.word o.b.toNat) else t

/-- ADD64: wrapping. -/
def aluAdd64 : OpWord → Tile → Tile := bin64 (· + ·)

/-- SUB64: wrapping. -/
def aluSub64 : OpWord → Tile → Tile := bin64 (· - ·)

/-- MUL64: low 64 bits. -/
def aluMul64 : OpWord → Tile → Tile := bin64 (· * ·)

/-- DIV64S (R243). -/
def aluDiv64s : OpWord → Tile → Tile := bin64 (divs 64)

/-- DIV64U (R243). -/
def aluDiv64u : OpWord → Tile → Tile := bin64 (divu 64)

/-- SHL64: by B mod 64. -/
def aluShl64 : OpWord → Tile → Tile := shift64 (· <<< ·)

/-- SHRS64: arithmetic. -/
def aluShrs64 : OpWord → Tile → Tile := shift64 fun a n => a.sshiftRight n

/-- SHRU64: logical. -/
def aluShru64 : OpWord → Tile → Tile := shift64 (· >>> ·)

/-- CMP64EQ. -/
def aluCmp64eq : OpWord → Tile → Tile := cmp64 (· == ·)

/-- CMP64LT: signed. -/
def aluCmp64lt : OpWord → Tile → Tile := cmp64 fun a b => decide (a.toInt < b.toInt)

/-- CMP64LTU: unsigned. -/
def aluCmp64ltu : OpWord → Tile → Tile := cmp64 fun a b => decide (a.toNat < b.toNat)

/-- SEXT: a word sign-extended to 64 bits. -/
def aluSext : OpWord → Tile → Tile := fun o t => t.setDword o.dst.toNat ((t.word o.a.toNat).signExtend 64)

/-- The Q30 products of the elements of two vectors (R838). -/
def vecProds (fr : Nat → Word) (o : OpWord) (t : Tile) : List Int :=
  (List.range (o.imm.toNat + 1)).map fun i => t.elem fr o.a.toNat i * t.elem (fun k => fr (k + 128)) o.b.toNat i

/-- VMAC: acc(DST) plus the Q30 products; a sum outside 40 bits on the way has no stated result (notes/assumptions/21.md). -/
def aluVmac : (Nat → Word) → OpWord → Tile → Tile := fun fr o t =>
  let p := vecProds fr o t
  let sums := p.foldl (fun (l : List Int) x => (l.headD 0 + x) :: l) [t.acc o.dst.toNat]
  let v := if sums.all fits40 then sums.headD 0 else sx 40 (((fr 260).toNat * 2 ^ 32 + (fr 261).toNat) % 2 ^ 40)
  t.setAcc o.dst.toNat v

/-- VMUL: elementwise, each product to Q15 (R364, R838). -/
def aluVmul : (Nat → Word) → OpWord → Tile → Tile := fun fr o t => Tile.setElems o.dst.toNat 0 ((vecProds fr o t).map q30to15) t

/-- VADD: elementwise saturating sum (R838). -/
def aluVadd : (Nat → Word) → OpWord → Tile → Tile := fun fr o t =>
  Tile.setElems o.dst.toNat 0 ((List.range (o.imm.toNat + 1)).map fun i =>
    satQ15 (t.elem fr o.a.toNat i + t.elem (fun k => fr (k + 128)) o.b.toNat i)) t

/-- VSAT: acc(A) shifted right by IMM, saturated to Q15; the word sign-extended (notes/assumptions/22.md). -/
def aluVsat : OpWord → Tile → Tile := fun o t => t.setWord o.dst.toNat (wi (satQ15 (t.acc o.a.toNat / 2 ^ o.imm.toNat)))

/-- FADD. -/
def aluFadd : OpWord → Tile → Tile := bin32 f32add

/-- FSUB. -/
def aluFsub : OpWord → Tile → Tile := bin32 f32sub

/-- FMUL. -/
def aluFmul : OpWord → Tile → Tile := bin32 f32mul

/-- FMAC: DST + A × B with one rounding. -/
def aluFmac : OpWord → Tile → Tile := fun o t => t.setWord o.dst.toNat (f32mac (t.word o.dst.toNat) (t.word o.a.toNat) (t.word o.b.toNat))

/-- FDIV. -/
def aluFdiv : OpWord → Tile → Tile := bin32 f32div

/-- FSQRT. -/
def aluFsqrt : OpWord → Tile → Tile := un32 f32sqrt

/-- FCMPEQ. -/
def aluFcmpeq : OpWord → Tile → Tile := cmp32 fun a b => FP.eqv (fp32 a) (fp32 b)

/-- FCMPLT. -/
def aluFcmplt : OpWord → Tile → Tile := cmp32 fun a b => (fp32 a).lt? (fp32 b) == some true

/-- FTOI: to nearest even, saturating; a NaN gives 0. -/
def aluFtoi : OpWord → Tile → Tile := un32 fun a => (fp32 a).toInt32

/-- ITOF. -/
def aluItof : OpWord → Tile → Tile := un32 f32ofInt

/-- FMIN: minimumNumber. -/
def aluFmin : OpWord → Tile → Tile := bin32 fun a b => toF32 ((fp32 a).minNum (fp32 b))

/-- FMAX: maximumNumber. -/
def aluFmax : OpWord → Tile → Tile := bin32 fun a b => toF32 ((fp32 a).maxNum (fp32 b))

/-- FABS. -/
def aluFabs : OpWord → Tile → Tile := un32 fun a => toF32 (fp32 (a &&& 0x7FFFFFFF))

/-- AND. -/
def aluAnd : OpWord → Tile → Tile := bin32 (· &&& ·)

/-- OR. -/
def aluOr : OpWord → Tile → Tile := bin32 (· ||| ·)

/-- XOR. -/
def aluXor : OpWord → Tile → Tile := bin32 (· ^^^ ·)

/-- NOT. -/
def aluNot : OpWord → Tile → Tile := un32 (~~~ ·)

/-- BSET: bit IMM of A set. -/
def aluBset : OpWord → Tile → Tile := fun o t => un32 (· ||| (1#32 <<< o.imm.toNat)) o t

/-- BCLR: bit IMM of A cleared. -/
def aluBclr : OpWord → Tile → Tile := fun o t => un32 (· &&& ~~~ (1#32 <<< o.imm.toNat)) o t

/-- BTST: predicate PRED := bit IMM of A. -/
def aluBtst : OpWord → Tile → Tile := fun o t => t.setPred o.pred.toNat (bit (t.word o.a.toNat) o.imm.toNat)

/-- PSET: predicate IMM := A not 0. -/
def aluPset : OpWord → Tile → Tile := fun o t => t.setPredImm o (decide (t.word o.a.toNat ≠ 0))

/-- PAND. -/
def aluPand : OpWord → Tile → Tile := fun o t => t.setPredImm o (t.pred o.a.toNat && t.pred o.b.toNat)

/-- POR. -/
def aluPor : OpWord → Tile → Tile := fun o t => t.setPredImm o (t.pred o.a.toNat || t.pred o.b.toNat)

/-- PNOT. -/
def aluPnot : OpWord → Tile → Tile := fun o t => t.setPredImm o (!t.pred o.a.toNat)

/-! ### Timers and edge detectors (R242, R316; the instance's words: notes/assumptions/23.md)

Instance words: 0 and 1 the start in ns of device time, low word first; word 2 bit 0 Q, bit 1 running, bit 2 the previous
input. The input is the word at SRCB, the preset the 64-bit number at A; Q goes to predicate IMM. -/

/-- Q, running and start of a timer after it evaluates an input: kind 0 TON, 1 TOF, 2 TP. -/
def timerNext (kind : Nat) (input prev running : Bool) (start now preset : Nat) : Bool × Bool × Nat :=
  if kind = 0 then
    if !input then (false, false, start)
    else
      let st := if running then start else now
      (decide (preset ≤ now - st), true, st)
  else if kind = 1 then
    if input then (true, false, start)
    else if prev then (decide (0 < preset), decide (0 < preset), now)
    else if running && decide (now - start < preset) then (true, true, start)
    else (false, false, start)
  else
    if running then
      if now - start < preset then (true, true, start) else (false, false, start)
    else if input && !prev then (decide (0 < preset), decide (0 < preset), now)
    else (false, false, start)

/-- A timer evaluates its input at the start of the base cycle. -/
def timerOp (kind : Nat) (t : Nat) (o : OpWord) (c : Core) : Core :=
  let fr := fun i => Config.freeWord (c.free + i)
  let x := c.tile t
  let d := o.dst.toNat
  let a := o.a.toNat
  let fl := x.wordF fr (d + 2)
  let start := (x.wordF fr d).toNat + (x.wordF fr (d + 1)).toNat * 2 ^ 32
  let preset := (x.wordF fr a).toNat + (x.wordF fr (a + 1)).toNat * 2 ^ 32
  let input := decide (x.word o.b.toNat ≠ 0)
  let (q, run, st) := timerNext kind input (bit fl 2) (bit fl 1) start (c.prog.cycleStart / 65536) preset
  let x1 := ((x.setWordB d (wd st)).setWordB (d + 1) (wd (st / 2 ^ 32))).setWordB (d + 2) (wd (flg q 0 + flg run 1 + flg input 2))
  let x2 := if o.imm.toNat < 16 then x1.setPredImm o q else x1
  { c.onTile t (fun _ => x2) with free := c.free + 8 }

/-- An edge detector: the instance word holds the previous input in bit 0; the edge goes to predicate IMM. -/
def edgeOp (rising : Bool) (o : OpWord) (t : Tile) : Tile :=
  let input := decide (t.word o.a.toNat ≠ 0)
  let prev := bit (t.word o.dst.toNat) 0
  let t1 := t.setWord o.dst.toNat (wd (flg input 0))
  if o.imm.toNat < 16 then t1.setPredImm o (if rising then input && !prev else !input && prev) else t1

/-- TON. -/
def aluTon : Nat → OpWord → Core → Core := timerOp 0

/-- TOF. -/
def aluTof : Nat → OpWord → Core → Core := timerOp 1

/-- TP. -/
def aluTp : Nat → OpWord → Core → Core := timerOp 2

/-- RTRIG: a rise of the input since it was last evaluated. -/
def aluRtrig : OpWord → Tile → Tile := edgeOp true

/-- FTRIG: a fall of the input since it was last evaluated. -/
def aluFtrig : OpWord → Tile → Tile := edgeOp false

/-- TRD1: 64 bits at Tarn 1 byte address ADDR (R839). -/
def aluTrd1 : Nat → OpWord → Core → Core := fun t o c =>
  c.onTile t fun x => x.setDword o.dst.toNat (BitVec.ofNat 64 (c.t1Read o.addr.toNat 8))

/-- TWR1: 64 bits of A to Tarn 1 byte address ADDR (R839). -/
def aluTwr1 : Nat → OpWord → Core → Core := fun t o c =>
  c.t1Write o.addr.toNat ((c.tile t).dword o.a.toNat).toNat 8

/-- Whether a type is read as signed (R531). -/
def signedType (t : Nat) : Bool := t == 2 || t == 4 || t == 7 || t == 8

/-- A raw field as a number of its type. -/
def rawNum (type w raw : Nat) : Int := if signedType type then sx w raw else raw

/-- The force that acts on a tag in the present cycle (R336). -/
def Core.forceOn (c : Core) (t : Tag) : Option DWord :=
  if c.running then (c.prog.forcesNow.find? (fun f => f.tag == t)).map (·.value) else none

/-- What the program reads of a tag: the tag store value, or the force on a local point of class 4, at the width of its metadata (R335,
notes/assumptions/124.md). -/
def Core.progTag (c : Core) (t : Tag) : DWord :=
  match if tagClass t = 4 then c.forceOn t else none with
  | some v =>
    let m := (c.metaOf t).toNat
    let w := m / 2 ^ 54 % 64 + 1
    BitVec.ofInt 64 (rawNum (m / 2 ^ 60) w (v.toNat % 2 ^ w))
  | none => c.tagVal t

/-- TRDT: tag ADDR of the tag store. -/
def aluTrdt : Nat → OpWord → Core → Core := fun t o c =>
  c.onTile t fun x => x.setDword o.dst.toNat (c.progTag (o.addr.toNat % 2 ^ 25))

/-- TWRT: tag ADDR of the tag store := A. -/
def aluTwrt : Nat → OpWord → Core → Core := fun t o c =>
  c.setTag (o.addr.toNat % 2 ^ 25) ((c.tile t).dword o.a.toNat)

/-- TRDX: tag ADDR + A of the tag store. -/
def aluTrdx : Nat → OpWord → Core → Core := fun t o c =>
  c.onTile t fun x => x.setDword o.dst.toNat (c.progTag ((o.addr.toNat + (x.word o.a.toNat).toNat) % 2 ^ 25))

/-! ### Input latch (R307 to R309) -/

/-- The bytes of an input image with the forces on its input points (R335). -/
def forcePoint (pt : Nat) (v : DWord) (bytes : List Nat) : List Nat :=
  let w := bits (wd pt) 27 22 + 1
  let lsb := bits (wd pt) 15 0 * 8 + bits (wd pt) 18 16
  (number 0 bytes).map fun (i, b) =>
    (List.range 8).foldl (fun acc k =>
      let p := i * 8 + k
      if lsb ≤ p ∧ p < lsb + w then acc + flg (v.getLsbD (p - lsb)) k else acc + flg (b.testBit k) k) 0

/-- The forces acting on the input points of a module, in order, on its bytes. -/
def Core.forcedBytes (c : Core) (m : Nat) (bytes : List Nat) : List Nat :=
  c.prog.forcesNow.foldl (fun bs f =>
    if !f.output && tagClass f.tag == 0 && tagIndex f.tag / 1024 == m && c.running then
      match (c.mod m).points[tagIndex f.tag % 1024]? with
      | some pt => forcePoint pt f.value bs
      | none => bs
    else bs) bytes

/-- Values that the host has written to input points through the tag window act in the latch as a force would (R47). -/
def Core.hostBytes (c : Core) (m : Nat) (bytes : List Nat) : List Nat :=
  c.prog.tagNow.foldl (fun bs (tg, v) =>
    if tagClass tg == 0 && tagIndex tg / 1024 == m then
      match (c.mod m).points[tagIndex tg % 1024]? with
      | some pt => if bit (wd pt) 21 then bs else forcePoint pt v bs
      | none => bs
    else bs) bytes

/-- The SEQ and the AGE that a latch of a module leaves, and whether the data is FRESH (R307, R309). -/
def Core.latchMark (m : Nat) (c : Core) : Nat × Nat × Bool :=
  let x := c.mod m
  let (pseq, page) := SMap.get (65536, 255) c.prog.latched m
  let seq := if x.hasData then x.act.seq else 0
  let fresh := x.hasData && decide (seq ≠ pseq)
  (seq, if x.hasData then (if fresh then 0 else min 255 (page + 1)) else 255, fresh)

/-- The latch header of R307 as a number, word 0 least significant. -/
def Core.latchHead (m : Nat) (c : Core) : Nat :=
  let x := c.mod m
  let (seq, age, fresh) := c.latchMark m
  let tm := if x.hasData then x.act.time else 0
  let w3 := flg (decide (x.st = .operational)) 31 + flg fresh 30 + age * 65536
  secOf tm % 2 ^ 32 + nsOf tm * 2 ^ 32 + (fracOf tm * 65536 + seq) * 2 ^ 64 + w3 * 2 ^ 96

/-- The length of a module's input data: IN_BYTES of its entry in the image, or of its report where the image has no entry (R644). -/
def Core.latchLen (c : Core) (m : Nat) : Nat :=
  ((c.image.modules.find? fun d => d.port * 512 + d.slot == m).map (·.inBytes)).getD (c.mod m).inBytes

/-- The bytes that a latch copies: the active half of the module's input area, zeros where none has come, host writes and forces included
(R308, R309). -/
def Core.latchBytes (m : Nat) (c : Core) : List Nat :=
  let x := c.mod m
  let data := if x.hasData then x.act.bytes else []
  c.forcedBytes m (c.hostBytes m ((data ++ List.replicate (c.latchLen m - data.length) 0).take (c.latchLen m)))

/-- Tarn 1 after a latch: the header and the input data directly after it (R307). -/
def Core.latched (m at_ : Nat) (c : Core) : SMap Byte :=
  writeLE (writeLE c.mem.tarn1 at_ (c.latchHead m) 16) (at_ + 16) ((c.latchBytes m).foldr (fun b acc => b + 256 * acc) 0) (c.latchLen m)

/-- LATCHM: a module's latch header and input data into Tarn 1. -/
def Core.latchm (m at_ : Nat) (c : Core) : Core :=
  (c.onMem fun x => { x with tarn1 := c.latched m at_ }).onProg fun p =>
    if (c.mod m).hasData then { p with latched := SMap.set (65536, 255) p.latched m ((c.latchMark m).1, (c.latchMark m).2.1) } else p

/-- LATCHM: module ADDR into Tarn 1 at AUX. -/
def aluLatchm : Nat → OpWord → Core → Core := fun _ o c => c.latchm o.addr.toNat o.aux.toNat

/-! ### Commit ops (R244, R281) -/

/-- Places an entry in the tile's commit buffer, or in the running work item's output commit. -/
def Core.issue (t : Nat) (tg : CommitTarget) (vals : List Word) (c : Core) : Core :=
  c.onTile t fun x => match x.run with
    | some r => { x with run := some { r with entries := r.entries ++ [{ target := tg, vals := vals, item := some r.item }] } }
    | none => { x with commit := x.commit ++ [{ target := tg, vals := vals }] }

/-- CMTOUT: the output word at Tarn 3 address ADDR (R310). -/
def aluCmtout : Nat → OpWord → Core → Core := fun t o c =>
  c.issue t (.out o.addr.toNat) [(c.tile t).word o.a.toNat]

/-- CMTLP (R379). -/
def aluCmtlp : Nat → OpWord → Core → Core := fun t o c =>
  c.issue t (.loop (bits o.addr 9 0) (bits o.addr 17 16)) [(c.tile t).word o.a.toNat]

/-- CMTAX (R449): three words from A. -/
def aluCmtax : Nat → OpWord → Core → Core := fun t o c =>
  let fr := fun i => Config.freeWord (c.free + i)
  let x := c.tile t
  let a := o.a.toNat
  { c.issue t (.axis o.addr.toNat o.aux.toNat) [x.wordF fr a, x.wordF fr (a + 1), x.wordF fr (a + 2)] with free := c.free + 4 }

/-! ## The choice by opcode -/

/-- The effect of an op that is no queue operation, its COND met. -/
def aluOp (op t : Nat) (o : OpWord) (c : Core) : Core :=
  match op with
  | 0x00 => onTileOp aluNop t o c
  | 0x01 => onTileOp aluAdd t o c
  | 0x02 => onTileOp aluSub t o c
  | 0x03 => onTileOp aluMul t o c
  | 0x04 => onTileOp aluMulh t o c
  | 0x05 => onTileOp aluDivs t o c
  | 0x06 => onTileOp aluDivu t o c
  | 0x07 => onTileOp aluRems t o c
  | 0x08 => onTileOp aluShl t o c
  | 0x09 => onTileOp aluShrs t o c
  | 0x0A => onTileOp aluShru t o c
  | 0x0B => onTileOp aluCmpeq t o c
  | 0x0C => onTileOp aluCmplt t o c
  | 0x0D => onTileOp aluCmpltu t o c
  | 0x0E => onTileOp aluMin t o c
  | 0x0F => onTileOp aluMax t o c
  | 0x10 => onTileFree aluAbs t o c
  | 0x11 => onTileOp aluMov t o c
  | 0x12 => onTileOp aluLdi t o c
  | 0x13 => onTileOp aluSel t o c
  | 0x14 => onTileOp aluLdx t o c
  | 0x15 => onTileOp aluStx t o c
  | 0x20 => onTileOp aluAdd64 t o c
  | 0x21 => onTileOp aluSub64 t o c
  | 0x22 => onTileOp aluMul64 t o c
  | 0x23 => onTileOp aluDiv64s t o c
  | 0x24 => onTileOp aluDiv64u t o c
  | 0x25 => onTileOp aluShl64 t o c
  | 0x26 => onTileOp aluShrs64 t o c
  | 0x27 => onTileOp aluShru64 t o c
  | 0x28 => onTileOp aluCmp64eq t o c
  | 0x29 => onTileOp aluCmp64lt t o c
  | 0x2A => onTileOp aluCmp64ltu t o c
  | 0x2B => onTileOp aluSext t o c
  | 0x40 => onTileFree aluVmac t o c
  | 0x41 => onTileFree aluVmul t o c
  | 0x42 => onTileFree aluVadd t o c
  | 0x43 => onTileOp aluVsat t o c
  | 0x60 => onTileOp aluFadd t o c
  | 0x61 => onTileOp aluFsub t o c
  | 0x62 => onTileOp aluFmul t o c
  | 0x63 => onTileOp aluFmac t o c
  | 0x64 => onTileOp aluFdiv t o c
  | 0x65 => onTileOp aluFsqrt t o c
  | 0x66 => onTileOp aluFcmpeq t o c
  | 0x67 => onTileOp aluFcmplt t o c
  | 0x68 => onTileOp aluFtoi t o c
  | 0x69 => onTileOp aluItof t o c
  | 0x6A => onTileOp aluFmin t o c
  | 0x6B => onTileOp aluFmax t o c
  | 0x6C => onTileOp aluFabs t o c
  | 0x80 => onTileOp aluAnd t o c
  | 0x81 => onTileOp aluOr t o c
  | 0x82 => onTileOp aluXor t o c
  | 0x83 => onTileOp aluNot t o c
  | 0x84 => onTileOp aluBset t o c
  | 0x85 => onTileOp aluBclr t o c
  | 0x86 => onTileOp aluBtst t o c
  | 0x87 => onTileOp aluPset t o c
  | 0x88 => onTileOp aluPand t o c
  | 0x89 => onTileOp aluPor t o c
  | 0x8A => onTileOp aluPnot t o c
  | 0xA0 => aluTon t o c
  | 0xA1 => aluTof t o c
  | 0xA2 => aluTp t o c
  | 0xA3 => onTileOp aluRtrig t o c
  | 0xA4 => onTileOp aluFtrig t o c
  | 0xB0 => aluTrd1 t o c
  | 0xB1 => aluTwr1 t o c
  | 0xB2 => aluTrdt t o c
  | 0xB3 => aluTwrt t o c
  | 0xB4 => aluTrdx t o c
  | 0xC0 => aluLatchm t o c
  | 0xC1 => aluCmtout t o c
  | 0xC2 => aluCmtlp t o c
  | 0xC3 => aluCmtax t o c
  | _ => c

/-- Counts an op of a tile (FB_TILE_OPS, R260; notes/assumptions/24.md). -/
def Core.countOp (t : Nat) (c : Core) : Core := c.onTile t fun x => { x with ops := x.ops + 1 }

/-- Runs one op that is no queue operation: counted, and without effect where COND is not met (R239). -/
def runAlu (op t : Nat) (o : OpWord) (c : Core) : Core :=
  if (c.tile t).condMet o then aluOp op t o (c.countOp t) else c.countOp t

/-- Runs one op of the table by itself; an op word that the image check refuses is refused (R241, R836 to R840). -/
def opCmd (op : Nat) (f : Nat → OpWord → Core → Core) (t : Fin 16) (o : OpWord) (s : State) : Host.Outcome State Fault Refusal :=
  if opOk op o then
    coreCmd (fun c => if (c.tile t.val).condMet o then f t.val o (c.countOp t.val) else c.countOp t.val) s
  else .refused .illFormedOp

def execOpNop : Fin 16 → OpWord → State → Host.Outcome State Fault Refusal := opCmd 0x00 (onTileOp aluNop)
def execOpAdd : Fin 16 → OpWord → State → Host.Outcome State Fault Refusal := opCmd 0x01 (onTileOp aluAdd)
def execOpSub : Fin 16 → OpWord → State → Host.Outcome State Fault Refusal := opCmd 0x02 (onTileOp aluSub)
def execOpMul : Fin 16 → OpWord → State → Host.Outcome State Fault Refusal := opCmd 0x03 (onTileOp aluMul)
def execOpMulh : Fin 16 → OpWord → State → Host.Outcome State Fault Refusal := opCmd 0x04 (onTileOp aluMulh)
def execOpDivs : Fin 16 → OpWord → State → Host.Outcome State Fault Refusal := opCmd 0x05 (onTileOp aluDivs)
def execOpDivu : Fin 16 → OpWord → State → Host.Outcome State Fault Refusal := opCmd 0x06 (onTileOp aluDivu)
def execOpRems : Fin 16 → OpWord → State → Host.Outcome State Fault Refusal := opCmd 0x07 (onTileOp aluRems)
def execOpShl : Fin 16 → OpWord → State → Host.Outcome State Fault Refusal := opCmd 0x08 (onTileOp aluShl)
def execOpShrs : Fin 16 → OpWord → State → Host.Outcome State Fault Refusal := opCmd 0x09 (onTileOp aluShrs)
def execOpShru : Fin 16 → OpWord → State → Host.Outcome State Fault Refusal := opCmd 0x0A (onTileOp aluShru)
def execOpCmpeq : Fin 16 → OpWord → State → Host.Outcome State Fault Refusal := opCmd 0x0B (onTileOp aluCmpeq)
def execOpCmplt : Fin 16 → OpWord → State → Host.Outcome State Fault Refusal := opCmd 0x0C (onTileOp aluCmplt)
def execOpCmpltu : Fin 16 → OpWord → State → Host.Outcome State Fault Refusal := opCmd 0x0D (onTileOp aluCmpltu)
def execOpMin : Fin 16 → OpWord → State → Host.Outcome State Fault Refusal := opCmd 0x0E (onTileOp aluMin)
def execOpMax : Fin 16 → OpWord → State → Host.Outcome State Fault Refusal := opCmd 0x0F (onTileOp aluMax)
def execOpAbs : Fin 16 → OpWord → State → Host.Outcome State Fault Refusal := opCmd 0x10 (onTileFree aluAbs)
def execOpMov : Fin 16 → OpWord → State → Host.Outcome State Fault Refusal := opCmd 0x11 (onTileOp aluMov)
def execOpLdi : Fin 16 → OpWord → State → Host.Outcome State Fault Refusal := opCmd 0x12 (onTileOp aluLdi)
def execOpSel : Fin 16 → OpWord → State → Host.Outcome State Fault Refusal := opCmd 0x13 (onTileOp aluSel)
def execOpLdx : Fin 16 → OpWord → State → Host.Outcome State Fault Refusal := opCmd 0x14 (onTileOp aluLdx)
def execOpStx : Fin 16 → OpWord → State → Host.Outcome State Fault Refusal := opCmd 0x15 (onTileOp aluStx)
def execOpAdd64 : Fin 16 → OpWord → State → Host.Outcome State Fault Refusal := opCmd 0x20 (onTileOp aluAdd64)
def execOpSub64 : Fin 16 → OpWord → State → Host.Outcome State Fault Refusal := opCmd 0x21 (onTileOp aluSub64)
def execOpMul64 : Fin 16 → OpWord → State → Host.Outcome State Fault Refusal := opCmd 0x22 (onTileOp aluMul64)
def execOpDiv64s : Fin 16 → OpWord → State → Host.Outcome State Fault Refusal := opCmd 0x23 (onTileOp aluDiv64s)
def execOpDiv64u : Fin 16 → OpWord → State → Host.Outcome State Fault Refusal := opCmd 0x24 (onTileOp aluDiv64u)
def execOpShl64 : Fin 16 → OpWord → State → Host.Outcome State Fault Refusal := opCmd 0x25 (onTileOp aluShl64)
def execOpShrs64 : Fin 16 → OpWord → State → Host.Outcome State Fault Refusal := opCmd 0x26 (onTileOp aluShrs64)
def execOpShru64 : Fin 16 → OpWord → State → Host.Outcome State Fault Refusal := opCmd 0x27 (onTileOp aluShru64)
def execOpCmp64eq : Fin 16 → OpWord → State → Host.Outcome State Fault Refusal := opCmd 0x28 (onTileOp aluCmp64eq)
def execOpCmp64lt : Fin 16 → OpWord → State → Host.Outcome State Fault Refusal := opCmd 0x29 (onTileOp aluCmp64lt)
def execOpCmp64ltu : Fin 16 → OpWord → State → Host.Outcome State Fault Refusal := opCmd 0x2A (onTileOp aluCmp64ltu)
def execOpSext : Fin 16 → OpWord → State → Host.Outcome State Fault Refusal := opCmd 0x2B (onTileOp aluSext)
def execOpVmac : Fin 16 → OpWord → State → Host.Outcome State Fault Refusal := opCmd 0x40 (onTileFree aluVmac)
def execOpVmul : Fin 16 → OpWord → State → Host.Outcome State Fault Refusal := opCmd 0x41 (onTileFree aluVmul)
def execOpVadd : Fin 16 → OpWord → State → Host.Outcome State Fault Refusal := opCmd 0x42 (onTileFree aluVadd)
def execOpVsat : Fin 16 → OpWord → State → Host.Outcome State Fault Refusal := opCmd 0x43 (onTileOp aluVsat)
def execOpFadd : Fin 16 → OpWord → State → Host.Outcome State Fault Refusal := opCmd 0x60 (onTileOp aluFadd)
def execOpFsub : Fin 16 → OpWord → State → Host.Outcome State Fault Refusal := opCmd 0x61 (onTileOp aluFsub)
def execOpFmul : Fin 16 → OpWord → State → Host.Outcome State Fault Refusal := opCmd 0x62 (onTileOp aluFmul)
def execOpFmac : Fin 16 → OpWord → State → Host.Outcome State Fault Refusal := opCmd 0x63 (onTileOp aluFmac)
def execOpFdiv : Fin 16 → OpWord → State → Host.Outcome State Fault Refusal := opCmd 0x64 (onTileOp aluFdiv)
def execOpFsqrt : Fin 16 → OpWord → State → Host.Outcome State Fault Refusal := opCmd 0x65 (onTileOp aluFsqrt)
def execOpFcmpeq : Fin 16 → OpWord → State → Host.Outcome State Fault Refusal := opCmd 0x66 (onTileOp aluFcmpeq)
def execOpFcmplt : Fin 16 → OpWord → State → Host.Outcome State Fault Refusal := opCmd 0x67 (onTileOp aluFcmplt)
def execOpFtoi : Fin 16 → OpWord → State → Host.Outcome State Fault Refusal := opCmd 0x68 (onTileOp aluFtoi)
def execOpItof : Fin 16 → OpWord → State → Host.Outcome State Fault Refusal := opCmd 0x69 (onTileOp aluItof)
def execOpFmin : Fin 16 → OpWord → State → Host.Outcome State Fault Refusal := opCmd 0x6A (onTileOp aluFmin)
def execOpFmax : Fin 16 → OpWord → State → Host.Outcome State Fault Refusal := opCmd 0x6B (onTileOp aluFmax)
def execOpFabs : Fin 16 → OpWord → State → Host.Outcome State Fault Refusal := opCmd 0x6C (onTileOp aluFabs)
def execOpAnd : Fin 16 → OpWord → State → Host.Outcome State Fault Refusal := opCmd 0x80 (onTileOp aluAnd)
def execOpOr : Fin 16 → OpWord → State → Host.Outcome State Fault Refusal := opCmd 0x81 (onTileOp aluOr)
def execOpXor : Fin 16 → OpWord → State → Host.Outcome State Fault Refusal := opCmd 0x82 (onTileOp aluXor)
def execOpNot : Fin 16 → OpWord → State → Host.Outcome State Fault Refusal := opCmd 0x83 (onTileOp aluNot)
def execOpBset : Fin 16 → OpWord → State → Host.Outcome State Fault Refusal := opCmd 0x84 (onTileOp aluBset)
def execOpBclr : Fin 16 → OpWord → State → Host.Outcome State Fault Refusal := opCmd 0x85 (onTileOp aluBclr)
def execOpBtst : Fin 16 → OpWord → State → Host.Outcome State Fault Refusal := opCmd 0x86 (onTileOp aluBtst)
def execOpPset : Fin 16 → OpWord → State → Host.Outcome State Fault Refusal := opCmd 0x87 (onTileOp aluPset)
def execOpPand : Fin 16 → OpWord → State → Host.Outcome State Fault Refusal := opCmd 0x88 (onTileOp aluPand)
def execOpPor : Fin 16 → OpWord → State → Host.Outcome State Fault Refusal := opCmd 0x89 (onTileOp aluPor)
def execOpPnot : Fin 16 → OpWord → State → Host.Outcome State Fault Refusal := opCmd 0x8A (onTileOp aluPnot)
def execOpTon : Fin 16 → OpWord → State → Host.Outcome State Fault Refusal := opCmd 0xA0 aluTon
def execOpTof : Fin 16 → OpWord → State → Host.Outcome State Fault Refusal := opCmd 0xA1 aluTof
def execOpTp : Fin 16 → OpWord → State → Host.Outcome State Fault Refusal := opCmd 0xA2 aluTp
def execOpRtrig : Fin 16 → OpWord → State → Host.Outcome State Fault Refusal := opCmd 0xA3 (onTileOp aluRtrig)
def execOpFtrig : Fin 16 → OpWord → State → Host.Outcome State Fault Refusal := opCmd 0xA4 (onTileOp aluFtrig)
def execOpTrd1 : Fin 16 → OpWord → State → Host.Outcome State Fault Refusal := opCmd 0xB0 aluTrd1
def execOpTwr1 : Fin 16 → OpWord → State → Host.Outcome State Fault Refusal := opCmd 0xB1 aluTwr1
def execOpTrdt : Fin 16 → OpWord → State → Host.Outcome State Fault Refusal := opCmd 0xB2 aluTrdt
def execOpTwrt : Fin 16 → OpWord → State → Host.Outcome State Fault Refusal := opCmd 0xB3 aluTwrt
def execOpTrdx : Fin 16 → OpWord → State → Host.Outcome State Fault Refusal := opCmd 0xB4 aluTrdx
def execOpLatchm : Fin 16 → OpWord → State → Host.Outcome State Fault Refusal := opCmd 0xC0 aluLatchm
def execOpCmtout : Fin 16 → OpWord → State → Host.Outcome State Fault Refusal := opCmd 0xC1 aluCmtout
def execOpCmtlp : Fin 16 → OpWord → State → Host.Outcome State Fault Refusal := opCmd 0xC2 aluCmtlp
def execOpCmtax : Fin 16 → OpWord → State → Host.Outcome State Fault Refusal := opCmd 0xC3 aluCmtax

end Sys2Proof.Machine
end

