-- ==== Sys2Proof/Machine/PlumbOps.lean ====
section
/-!
DEFINITION. Machine/PlumbOps.lean: device time, slewing and steps, timing inputs and timed outputs (02_time_and_ticks).
-/
namespace Sys2Proof.Machine

def plumbPath : Nat := path 2 0 allOf

/-! ## Device time runs -/

/-- PB_SLEW_RATE in ns per second. -/
def Core.slewRate (c : Core) : Nat := c.regN A.PB_SLEW_RATE

/-- Elapsed Plumb time in which device time advances by `d` while a slew runs (R75, R78): longer when the device is ahead. -/
def slewElapsed (rate : Nat) (ahead : Bool) (d : Nat) : Nat :=
  if ahead then d * 1000000000 / (1000000000 - rate) else d * 1000000000 / (1000000000 + rate)

/-- Device time runs on to `t` (never backwards): elapsed time runs with it, and an outstanding correction shrinks (R78). -/
def Core.advanceTo (t : Time) (c : Core) : Core :=
  let p := c.plumb
  if t ≤ p.now then c else
  let d := t - p.now
  if p.slewRemain = 0 then { c with plumb := { p with now := t, elapsed := p.elapsed + d } }
  else
    let ahead := decide (0 < p.slewRemain)
    let e := slewElapsed c.slewRate ahead d
    let gone := min (max e d - min e d) p.slewRemain.natAbs
    { c with plumb := { p with
      now := t, elapsed := if ahead then p.elapsed + d + gone else p.elapsed + d - gone,
      slewRemain := if ahead then p.slewRemain - gone else p.slewRemain + gone } }

/-- Start of the next tick to issue: the one after the last issued, so that none is skipped (R67); after a start or a step of device
time, the first whose start has not passed (R81). -/
def Core.nextTick (c : Core) : Time :=
  match c.plumb.tickAt with
  | some t => t + tickLen
  | none => alignUp tickLen c.now

/-- Whole microsecond of the next generator step (R444): the present instant when its step has not been made. -/
def Core.nextUs (c : Core) : Time :=
  let t := c.plumb.now
  if t % us = 0 ∧ c.mot.genAt ≠ some t then t else (t / us + 1) * us

/-! ## Offsets, slews and steps (R75 to R84) -/

/-- A unit that is the standby member of a pair slews in every mode (R82). -/
def Core.neverSteps (c : Core) : Bool := c.running || c.mr.role == .standby

/-- An offset, measured or host-set, is corrected (R75 to R84): the whole offset becomes the outstanding correction; beyond
PB_STEP_LIMIT, net of what is outstanding, it is a discontinuity. `p` is the path of 0x0204. -/
def Core.takeOffset (c : Core) (off : Int) (p : Nat) : Core :=
  let net := off - c.plumb.slewRemain
  if net.natAbs ≤ ns (c.regN A.PB_STEP_LIMIT) then c.onPlumb fun b => { b with slewRemain := off }
  else if c.neverSteps then
    (c.onPlumb fun b => { b with slewRemain := off, slewing := true }).raise 0x0204 p
  else
    (c.onPlumb fun b => { b with step := some off }).raise 0x0207 plumbPath

/-- A step that is still pending where the unit no longer steps is slewed (R78, R82); what is said of an offset that was to be stepped
is the model's reading, notes/assumptions/119.md. -/
def Core.stepToSlew (c : Core) : Core :=
  match c.plumb.step with
  | some off => if c.neverSteps then c.onPlumb fun b => { b with step := none, slewRemain := off, slewing := true } else c
  | none => c

/-- SLEW_COMPLETE (R79). -/
def Core.slewComplete (c : Core) : Core :=
  if c.plumb.slewing ∧ c.plumb.slewRemain = 0 then (c.onPlumb fun b => { b with slewing := false }).raise 0x0206 plumbPath
  else c

/-- Entering Standby with SLEWING set: a remaining offset beyond PB_STEP_LIMIT is stepped (R83). -/
def Core.slewAtStandby (c : Core) : Core :=
  if c.plumb.slewing ∧ ns (c.regN A.PB_STEP_LIMIT) < c.plumb.slewRemain.natAbs ∧ c.mr.role ≠ .standby then
    (c.onPlumb fun b => { b with step := some b.slewRemain }).raise 0x0207 plumbPath
  else c

/-! ## Timed outputs (R99 to R105) -/

def toutPath (m : Nat) : Nat := path 2 3 m
/-- START, WIDTH and PERIOD of the present settings (R100, R101, R123). -/
def Core.toutSub (c : Core) (m hi lo : Nat) : Time := c.fld (A.PB_TOUT_SUB + 0x20 * m) hi lo * 4096
def Core.toutWidth (c : Core) (m : Nat) : Time := ns (c.regN (A.PB_TOUT_WIDTH_NS + 0x20 * m)) + c.toutSub m 7 4
def Core.toutPeriod (c : Core) (m : Nat) : Time := ns (c.regN (A.PB_TOUT_PERIOD_NS + 0x20 * m)) + c.toutSub m 3 0
def Core.toutStart (c : Core) (m : Nat) : Time :=
  (secOf c.now / 2 ^ 32 * 2 ^ 32 + c.regN (A.PB_TOUT_START_SEC + 0x20 * m)) * second +
    ns (c.regN (A.PB_TOUT_START_NS + 0x20 * m)) + c.toutSub m 11 8
def Core.toutPeriodic (c : Core) (m : Nat) : Bool := c.flag (A.PB_TOUT_CTL + 0x20 * m) 0
/-- Pin level of an output: active is high with POLARITY 0. -/
def Core.toutLevel (c : Core) (m : Nat) (active : Bool) : Bool := active != c.flag (A.PB_TOUT_CTL + 0x20 * m) 8

/-- The class 4 tags bound to a source take a value (R22, R23, R533). -/
def Core.produceHw (c : Core) (src : Nat) (v : DWord) (t : Time) : Core :=
  forL (c.image.tags.filter fun d => tagClass d.tag == 4 && d.binding == Config.hwPoint src) (fun d k => k.produce d.tag v t) c

/-- The output drives its pin, whose level its class 4 tags take (R22, R104). -/
def Core.toutDrive (m : Nat) (t : Time) (c : Core) : Core :=
  let level := c.toutLevel m (c.tout m).pulse.isSome
  (c.produceHw (72 + m) (if level then 1 else 0) t).emit (.pin 0 m level)

/-- The pin follows a new POLARITY: an output without a pulse takes the inactive level (R104). -/
def Core.toutShow (m : Nat) (was : Bool) (c : Core) : Core :=
  if c.toutLevel m (c.tout m).pulse.isSome = was then c else c.toutDrive m c.now

/-- Whether the settings keep the limits of R100. -/
def Core.toutOk (c : Core) (m : Nat) : Bool :=
  decide (ns 10 ≤ c.toutWidth m) &&
    (!c.toutPeriodic m || (decide (ns 40 ≤ c.toutPeriod m) && decide (c.toutWidth m + ns 10 ≤ c.toutPeriod m)))

/-- Skips the instants of the grid before `limit` as missed (R102, R103): 0x0242 once, IDLE when none remains and no pulse is in
progress. -/
def Core.toutSkip (c : Core) (m : Nat) (limit : Time) : Core :=
  let o := c.tout m
  let next := o.start + o.index * o.period
  if limit ≤ next ∨ (o.once ∧ 0 < o.index) ∨ (o.count ≠ 0 ∧ o.count ≤ o.index ∧ !o.once) then c else
  let k := if o.once ∨ o.period = 0 then 1 else cdiv (limit - next) o.period
  let left := if o.once then 1 else if o.count = 0 then k else o.count - o.index
  let n := min k left
  let done := (o.once || (decide (o.count ≠ 0) && decide (o.count ≤ o.index + n)))
  (c.onTout m fun o => { o with
    index := o.index + n, missed := min (o.missed + n) 0xFFFF, st := if done ∧ o.pulse.isNone then .idle else o.st }).raise 0x0242 (toutPath m)

/-- ARM with the present settings (R100 to R102); answers the status. -/
def Core.toutArm (c : Core) (m : Nat) : Core × Nat :=
  if (c.tout m).st ≠ .idle then (c, 0)
  else if !c.toutOk m then (c.raise 0x0243 (toutPath m), 0x08)
  else
    let c1 := c.onTout m fun o => { o with
      st := .waiting, start := c.toutStart m, width := c.toutWidth m, period := c.toutPeriod m,
      count := c.fld (A.PB_TOUT_COUNT + 0x20 * m) 15 0, once := !c.toutPeriodic m, index := 0, pulse := none }
    (c1.toutSkip m (c.now + 2 * us), 0)

/-- DISARM (R104): at once, or at the end of the pulse in progress. -/
def Core.toutDisarm (c : Core) (m : Nat) : Core :=
  match (c.tout m).st with
  | .idle => c
  | _ => c.onTout m fun o => { o with st := if o.pulse.isSome then .stopping else .idle }

/-- A pulse instant is reached (R99, R100). -/
def Core.toutPulse (c : Core) (m : Nat) : Core :=
  let o := c.tout m
  if !(o.st = .waiting ∨ o.st = .running) ∨ o.pulse.isSome then c else
  let t := o.start + o.index * o.period
  let c1 := c.advanceTo t
  (c1.onTout m fun o => { o with st := .running, pulse := some (t + o.width), index := o.index + 1 }).toutDrive m t

/-- A pulse ends (R100, R104). The level that ends it is that of the POLARITY in force at its end, also where a cold restart has
placed another one in between (R105): the model's choice, notes/assumptions/119.md. -/
def Core.toutPulseEnd (c : Core) (m : Nat) : Core :=
  let o := c.tout m
  match o.pulse with
  | none => c
  | some e =>
    let c1 := c.advanceTo e
    let done := o.st == .stopping || o.once || (decide (o.count ≠ 0) && decide (o.count ≤ o.index))
    (c1.onTout m fun o => { o with pulse := none, st := if done then .idle else .running }).toutDrive m e

/-! ## The step (R81, R103, R834) -/

/-- What a step from `d0` to `d1` leaves to be reached again or passes over (R834): port cycles, loop periods and base cycles begin
anew at the first start at or after `d1`; rows between the two ends of a forward step are not taken, and rows from `d1` onward repeat
after a backward one (R599). -/
def Core.stepPeriods (d0 d1 : Time) (c : Core) : Core :=
  let c1 := forN 8 (fun p d => d.onPort p fun x => { x with fresh := true }) c
  let c2 := forL c1.image.loops (fun n d => d.onLoop n fun l => { l with fresh := true }) c1
  let c3 := c2.onProg fun p => { p with begun := false }
  forN 64 (fun u d => d.onUnit u fun x => { x with
    cur := x.cur.map fun b => { b with flags := b.flags ||| 0x80 }
    passed := (d0, d1), rowSeen := if d1 < d0 then none else x.rowSeen, tFirst := if d1 < d0 then min x.tFirst d1 else x.tFirst }) c3

/-- A timed output at a step: a pulse in progress keeps its width, and what a forward step passed over is missed (R103). -/
def Core.toutStep (d0 d1 : Time) (m : Nat) (c : Core) : Core :=
  let c1 := c.onTout m fun o => { o with pulse := o.pulse.map fun e => d1 + (e - d0) }
  if (c1.tout m).st = .waiting ∨ (c1.tout m).st = .running then c1.toutSkip m d1 else c1

/-- TIME_STEP: at the tick boundary, after its tick, device time jumps by the pending offset (R81); streams open a segment with
TIME_STEPPED, captures in progress set their flag. A step that meets a slew ends it without 0x0206: the model's choice,
notes/assumptions/119.md. -/
def Core.timeStep (c : Core) : Core :=
  match c.plumb.step with
  | none => c
  | some off =>
    if c.neverSteps then c.stepToSlew
    else if c.now % tickLen ≠ 0 ∨ c.plumb.tickAt ≠ some c.now then c else
    let d1 := ((c.now : Int) - off).toNat
    let c1 := c.onPlumb fun b => { b with now := d1, step := none, slewRemain := 0, slewing := false, tickAt := none, stepTo := d1 }
    let c2 := forN 16 (fun k d =>
      if (d.stream k).st = .running then (d.onStream k fun s => { s with stepped := true }).openSegment k (secOf d1) else d) c1
    forN 16 (fun m d => d.toutStep c.now d1 m) (c2.stepPeriods c.now d1)

/-! ## Timing inputs (R93 to R98) -/

/-- The value of a STAMP tag (R97). -/
def stampValue (t : Time) : DWord := BitVec.ofNat 64 (secOf t % 2 ^ 18 * 2 ^ 46 + nsOf t * 2 ^ 16 + fracOf t)

/-- An edge on a timing input (R93 to R96); `raw` is the TDC time. A stamp that the delay would place before time 0 is 0: the model's
choice, notes/assumptions/119.md. -/
def Core.tinEdge (c : Core) (n : Nat) (rising : Bool) (raw : Time) : Core :=
  let sel := c.fld (A.PB_TIN_CTL + 0x10 * n) 1 0
  let c0 := c.advanceTo raw
  if !(sel == 3 || (sel == 1 && rising) || (sel == 2 && !rising)) then c0 else
  let e := c0.plumb.elapsed
  let cnt := ((c0.tin n).count + 1) % 2 ^ 32
  let near := match (c0.tin n).lastEdge with | some l => decide (e < l + ns 20) | none => false
  if near then c0.onTin n fun i => { i with count := cnt, lost := sat32 (i.lost + 1) }
  else
    let t := (((raw / 512 * 512 : Nat) : Int) - c0.sreg (A.PB_TIN_DELAY + 4 * n)).toNat
    let c1 := c0.onTin n fun i => { i with count := cnt, lastEdge := some e, lastStamp := some t }
    let c2 := forN 128 (fun x d =>
      let cfg := d.reg (A.TR_CFG + 0x40 * x)
      let dir := bits cfg 27 26
      if d.trigRuns x && bits cfg 31 28 == 1 && bits cfg 21 16 == n && (dir == 3 || (dir == 1 && rising) || (dir == 2 && !rising))
      then d.fire x t else d) c1
    let c3 := c2.produceHw n (stampValue t) t
    if (c3.tin n).fifo.length < 64 then
      c3.onTin n fun i => { i with
        fifo := i.fifo ++ [{ time := t, rising := rising, seq := cnt % 65536 }], episode := false }
    else
      let first := !(c3.tin n).episode
      (c3.onTin n fun i => { i with lost := sat32 (i.lost + 1), ovf := true, episode := true }).raiseIf first 0x0241 (path 2 2 n)

/-- The four words of the oldest FIFO entry (R98). Of an empty FIFO the manual fixes VALID = 0 alone; the model reads every other
bit as 0: its choice, notes/assumptions/119.md. -/
def Core.tinWords (c : Core) (n : Nat) : List Word :=
  match (c.tin n).fifo with
  | [] => [0, 0, 0, 0]
  | s :: _ => [wd (secOf s.time), wd (2 ^ 31 + flg s.rising 30 + nsOf s.time), wd (s.seq * 65536 + fracOf s.time),
               wd (secOf s.time / 2 ^ 32)]

/-- Removes the oldest FIFO entry. -/
def Core.tinPop (c : Core) (n : Nat) : Core := c.onTin n fun i => { i with fifo := i.fifo.drop 1 }

/-- Whether Plumb has a supply (R62, R835). -/
def Core.plumbOn (c : Core) : Bool := !c.pw.kaLost && (c.pw.vkaA || c.pw.vkaB)

/-- What a tick does in Plumb (R65, R67, R86): device time reaches the next tick start, unless a command has taken it beyond; the
class 4 tags of device time take it (R22). -/
def Core.plumbTick (c : Core) : Core :=
  let t := c.nextTick
  let c1 := (c.advanceTo t).onPlumb fun b => { b with tickAt := some t }
  let c2 := if c1.plumb.sync = .holdover then
      c1.onPlumb fun b => { b with holdAge := min ((b.elapsed - b.holdFrom) / ms) 0xFFFFFFFF } else c1
  (c2.produceHw 88 (stampValue t) t).emit (.tick (tickOf t % 64000))

end Sys2Proof.Machine
end

