-- ==== Sys2Proof/Machine/Ptp.lean ====
section
/-!
DEFINITION. Machine/Ptp.lean: the Precision Time Protocol of Plumb (R60, R61, R68 to R74, R84 to R92): messages sent and received,
delays, the best master clock algorithm of the default profiles, holdover. What IEEE 1588-2019 fixes and this manual only names is
marked in notes/assumptions/121.md.
-/
namespace Sys2Proof.Machine

/-! ## Settings of a port (R69, R72, R73, R113, R117, R118) -/

/-- logSyncInterval, logMinPdelayReqInterval and logAnnounceInterval of a port, and its announce timeout (R69, R118). -/
def Core.logSync (c : Core) (p : Nat) : Int :=
  if c.lineProfile then -6 else sx 8 (c.fld (A.PB_PORT_INTV + 0x10 * p) 31 24)
def Core.logPdelay (c : Core) (p : Nat) : Int :=
  if c.lineProfile then -3 else sx 8 (c.fld (A.PB_PORT_INTV + 0x10 * p) 23 16)
def Core.logAnnounce (c : Core) (p : Nat) : Int :=
  if c.lineProfile then 0 else sx 8 (c.fld (A.PB_PORT_INTV + 0x10 * p) 15 8)
def Core.annTimeout (c : Core) (p : Nat) : Nat :=
  if c.lineProfile then 3 else c.fld (A.PB_PORT_INTV + 0x10 * p) 7 0

/-- 2^k seconds. -/
def logSeconds (k : Int) : Time := if 0 ≤ k then second * 2 ^ k.toNat else second / 2 ^ (-k).toNat

/-- An Ashlar port that is no branch: its modules take time from it, and it is always MASTER (R71, R115). -/
def Core.modulePort (c : Core) (p : Nat) : Bool := decide (p < 8) && c.fld (A.ASH_PORT_CFG + 0x40 * p) 31 28 != 5

/-- Whether a port may be a slave: not an Ashlar port other than a branch (R71), and of the right role. -/
def Core.maySlave (c : Core) (p : Nat) : Bool :=
  !c.modulePort p && (if c.lineProfile then c.ptpRole p == 2 else c.ptpRole p != 0)

/-- Step mode and delay mechanism: fixed by the line profile but on SVC, else as PB_PORT_CTL has them (R69, R113). -/
def Core.oneStep (c : Core) (p : Nat) : Bool := (c.lineProfile && decide (p < 11)) || c.flag (A.PB_PORT_CTL + 0x10 * p) 5
def Core.peer (c : Core) (p : Nat) : Bool := (c.lineProfile && decide (p < 11)) || c.flag (A.PB_PORT_CTL + 0x10 * p) 4

/-- Whether the device is a transparent clock, and the ports on which it forwards what reaches port p (R68, R70, R71). -/
def Core.transparent (c : Core) : Bool := c.fld A.PB_TIME_CTL 17 16 == 2
def Core.passPorts (c : Core) (p : Nat) : List Nat :=
  if !c.transparent || c.modulePort p then [] else
  (List.range 12).filter fun q => q != p && !c.modulePort q && c.ptpRole q != 0 && !(c.ptpPort q).faulty

/-- Asymmetry and path latencies of a port, in 2^-16 ns: ports 0 to 10 as calibrated at test, SVC as the integrator entered them
(R72, R73, R117). -/
def Core.asym (c : Core) (p : Nat) : Int := c.sreg (A.PB_PORT_ASYM + 0x10 * p)
def Core.latWord (c : Core) (p : Nat) : Word := if p < 11 then Config.portLat p else c.reg (A.PB_PORT_LAT + 0x10 * p)
def Core.ingress (c : Core) (p : Nat) : Int := (bits (c.latWord p) 15 0 * 4096 : Nat)
def Core.egress (c : Core) (p : Nat) : Nat := bits (c.latWord p) 31 16 * 4096

/-- The two delays of a path whose mean is `mean` (R73). -/
def Core.delayFromMaster (c : Core) (p : Nat) (mean : Int) : Int := mean + c.asym p
def Core.delayToMaster (c : Core) (p : Nat) (mean : Int) : Int := mean - c.asym p

/-! ## Port states (R116) -/

/-- PORT_STATE (R69, R113, R115, R116): fixed by ROLE in the line profile; in the default profiles a port that may be a slave runs the
best master clock algorithm, and a module port is MASTER. -/
def Core.portState (c : Core) (p : Nat) : Nat :=
  if c.ptpRole p = 0 then 3
  else if (c.ptpPort p).faulty then 2
  else if c.lineProfile then (if c.ptpRole p = 1 then 6 else if c.ptpRole p = 2 then 9 else 7)
  else if c.maySlave p then (c.ptpPort p).state
  else 6

/-- Whether some port is in state SLAVE (R84). -/
def Core.anySlave (c : Core) : Bool := (List.range 12).any fun p => c.portState p == 9

/-! ## Messages on the wire (R61, R69) -/

/-- The low 48 bits of seconds that the wire carries, and a received time-stamp, zero-extended (R61). -/
def wireSecs (t : Time) : BitVec 48 := BitVec.ofNat 48 (secOf t)
def wireTime (secs : BitVec 48) (nanos : Nat) : Time := secs.toNat * second + ns nanos

/-- A time-stamp in a message: 48-bit seconds and whole nanoseconds; what lies below goes into the correctionField. -/
def PtpMsg.stamped (m : PtpMsg) (t : Time) : PtpMsg :=
  { m with secs := wireSecs t, nanos := nsOf t, correction := m.correction + (fracOf t : Nat) }

/-- Destination address (R69). -/
def Core.ptpDest (c : Core) (k : PtpKind) : Nat :=
  if c.lineProfile then 0x0180C200000E else match k with
  | .pdelayReq | .pdelayResp | .pdelayRespFollowUp => 0x0180C200000E
  | .sync | .followUp | .announce | .delayReq | .delayResp => 0x011B19000000

def Core.ptpMsg (c : Core) (k : PtpKind) : PtpMsg := { kind := k, domain := c.fld A.PB_TIME_CTL 30 24, dest := c.ptpDest k }

/-- The instant at the time-stamp point of a message that leaves now (R72). -/
def Core.leaves (c : Core) (p : Nat) : Time := c.now + c.egress p

/-- A message whose transmit time-stamp counts: at once with it, or with a follow-up (R68, R69). -/
def Core.sendTimed (p : Nat) (k follow : PtpKind) (c : Core) : Core :=
  if c.oneStep p then c.emit (.ptp p ((c.ptpMsg k).stamped (c.leaves p)))
  else (c.emit (.ptp p { c.ptpMsg k with twoStep := true })).emit (.ptp p ((c.ptpMsg follow).stamped (c.leaves p)))

/-! ## Rates (R86, R88) -/

/-- The part of a list of rates, newest first, that lies between `lo` and `hi`: the time covered, and the sum of rate times time. -/
def rateSum (lo : Time) : Time → List (Time × Int) → Nat × Int
  | _, [] => (0, 0)
  | hi, (t, r) :: l =>
    let from_ := max lo t
    let (n, s) := rateSum lo (min hi t) l
    (n + (hi - from_), s + r * ((hi - from_ : Nat) : Int))

/-- The mean rate of the last PB_HOLD_AVG seconds, of so much as is known of them (R86); whole ppb, notes/assumptions/121.md. -/
def Core.meanRate (c : Core) : Int :=
  let e := c.plumb.elapsed
  let (n, s) := rateSum (e - c.regN A.PB_HOLD_AVG * second) e c.plumb.rates
  if n = 0 then c.plumb.freq else s / (n : Int)

/-- A rate takes effect; rates that ended more than 256 s ago, the longest PB_HOLD_AVG, are forgotten. -/
def Core.setRate (r : Int) (c : Core) : Core :=
  c.onPlumb fun b =>
    let old := b.rates.takeWhile fun x => decide (b.elapsed < x.1 + 256 * second)
    { b with freq := r, rates := (b.elapsed, r) :: b.rates.take (old.length + 1) }

/-- PB_FREQ: without a master the crystal's trim, else what the servo applies (R88, R108). -/
def Core.rateNow (c : Core) : Int := if c.plumb.masterPort.isNone then c.sreg A.PB_FREQ_TRIM else c.plumb.freq

/-! ## The master (R85, R87, R106) -/

/-- A master is accepted on port p: 0x0203 when holdover ends, 0x0201 when the port changes (R87, R106). -/
def Core.acceptMaster (c : Core) (p : Nat) : Core :=
  let was := c.plumb.masterPort
  let hold := c.plumb.sync = .holdover
  let c1 := (c.onPlumb fun b => { b with masterPort := some p, sync := .acquiring, inLock := 0, lastSync := b.elapsed, lastAnnounce := b.elapsed, holdAnn := 0 }).onPtpPort p
    fun q => { q with state := 8 }
  let c2 := c1.raiseIf hold 0x0203 plumbPath
  c2.raiseIf (was != some p) 0x0201 (path 2 1 p)

/-! ## The best master clock algorithm of the default profiles (R68, R112) -/

/-- The data set that this device announces as its own. -/
def Core.ownSet (c : Core) : Announce :=
  let line := c.lineProfile
  let f (hi lo dflt : Nat) : Nat := if line then dflt else c.fld A.PB_PRIO hi lo
  { domain := c.fld A.PB_TIME_CTL 30 24, fromMaster := true, priority1 := f 31 24 128, priority2 := f 23 16 128, clockClass := f 15 8 248
    accuracy := f 7 0 0xFE, gm := Config.clockId, steps := 0, source := Config.clockId * 65536, utcOffset := (c.plumb.parent.map (·.utcOffset)).getD 0 }

/-- Comparison of grandmasters, in its order. -/
def setRank (a : Announce) : List Nat := [a.priority1, a.clockClass, a.accuracy, a.variance, a.priority2, a.gm]
def lexLt : List Nat → List Nat → Bool
  | x :: l, y :: m => decide (x < y) || (x == y && lexLt l m)
  | _, _ => false

/-- Whether `a` is better than `b`, by grandmaster, distance or sender; and whether by distance and sender alone. -/
def betterSet (a b : Announce) : Bool :=
  if a.gm = b.gm then lexLt [a.steps, a.source] [b.steps, b.source] else lexLt (setRank a) (setRank b)
def betterByPath (a b : Announce) : Bool := a.gm == b.gm && decide (b.steps ≤ a.steps + 1) && betterSet a b

/-- The best qualified foreign master of a port: heard twice within four announce intervals, not silent for the timeout. -/
def Core.portBest (c : Core) (p : Nat) : Option Announce :=
  let e := c.plumb.elapsed
  let iv := logSeconds (c.logAnnounce p)
  (((c.ptpPort p).foreign.filter fun f => decide (e < f.last + c.annTimeout p * iv) && decide (f.ann.steps < 255) && f.ann.gm != Config.clockId &&
    (match f.prev with | some t => decide (f.last ≤ t + 4 * iv) | none => false)).map (·.ann)).foldl
      (fun m a => match m with | some b => if betterSet a b then some a else some b | none => some a) none

/-- The ports that run the algorithm. -/
def Core.bmcPorts (c : Core) : List Nat :=
  (List.range 12).filter fun p => c.maySlave p && !(c.ptpPort p).faulty && (c.ptpPort p).state != 1

/-- The best foreign master of the device, with its port. -/
def Core.bestOf (c : Core) : Option (Nat × Announce) :=
  c.bmcPorts.foldl (fun m p => match c.portBest p, m with
    | some a, some b => if betterSet a b.2 then some (p, a) else some b
    | some a, none => some (p, a)
    | none, _ => m) none

/-- What the state decision recommends for a port: MASTER after so many announce intervals of PRE_MASTER, PASSIVE, SLAVE, or no change. -/
inductive Recommend where
  | master (wait : Nat) | passive | slave (a : Announce) | stay
  deriving DecidableEq, Repr

def Core.recommend (best : Option (Nat × Announce)) (p : Nat) (c : Core) : Recommend :=
  let own := c.ownSet
  match c.portBest p, best with
  | none, none => if (c.ptpPort p).state = 4 then .stay else .master 0
  | mine, some (q, b) =>
    if own.clockClass ≤ 127 then
      match mine with
      | some m => if betterSet own m then .master 0 else .passive
      | none => if (c.ptpPort p).state = 4 then .stay else .master 0
    else if betterSet own b then .master 0
    else if p = q then .slave b
    else match mine with
      | some m => if betterByPath b m then .passive else .master (b.steps + 2)
      | none => if (c.ptpPort p).state = 4 then .stay else .master (b.steps + 2)
  | some _, none => .stay

/-- The master port is given up: the device runs on its own crystal (R88). -/
def Core.loseMaster (p : Nat) (c : Core) : Core :=
  if c.plumb.masterPort = some p then c.onPlumb fun b => { b with masterPort := none, sync := .freeRun, inLock := 0 } else c

/-- The recommendation takes effect on a port. -/
def Core.follow (p : Nat) (r : Recommend) (c : Core) : Core :=
  let q := c.ptpPort p
  match r with
  | .stay => c
  | .passive => (c.loseMaster p).onPtpPort p fun q => { q with state := 7, quietFrom := c.plumb.elapsed }
  | .slave a =>
    let same := (c.plumb.parent.map (·.source)) == some a.source && c.plumb.masterPort == some p && c.plumb.sync != .holdover
    let c1 := c.onPlumb fun b => { b with parent := some a }
    if same ∧ (q.state = 8 ∨ q.state = 9) then c1 else c1.acceptMaster p
  | .master n =>
    if q.state = 5 ∨ q.state = 6 then c
    else (c.loseMaster p).onPtpPort p fun q =>
      { q with state := if n = 0 then 6 else 5, preUntil := c.plumb.elapsed + n * logSeconds (c.logAnnounce p) }

/-- The state decision on every port that runs the algorithm. -/
def Core.bmcDecide (c : Core) : Core := let best := c.bestOf; forL c.bmcPorts (fun p d => d.follow p (c.recommend best p)) c

/-- An Announce enters the foreign masters of a port. -/
def heard (e : Time) (a : Announce) (l : List Foreign) : List Foreign :=
  let old := l.find? fun f => f.ann.source == a.source
  { ann := a, last := e, prev := old.map (·.last) } :: (l.filter fun f => f.ann.source != a.source).take 4

/-- Time-driven states of a port: INITIALIZING ends, PRE_MASTER ends, and a port that hears no Announce for the timeout becomes MASTER. -/
def Core.portTime (p : Nat) (c : Core) : Core :=
  let q := c.ptpPort p
  let e := c.plumb.elapsed
  if c.lineProfile || !c.maySlave p || q.faulty then c
  else if q.state = 1 then c.onPtpPort p fun q => { q with state := 4, quietFrom := e }
  else if q.state = 5 ∧ q.preUntil ≤ e then c.onPtpPort p fun q => { q with state := 6 }
  else if (q.state = 4 ∨ q.state = 7) ∧ q.quietFrom + c.annTimeout p * logSeconds (c.logAnnounce p) ≤ e then
    c.onPtpPort p fun q => { q with state := 6 }
  else c

/-! ## Messages sent with the ticks (R69) -/

/-- Whether an interval of 2^k seconds starts at tick t. -/
def ptpDue (k : Int) (t : Time) : Bool := t % logSeconds k == 0

/-- What a port sends at a tick: Announce and Sync as a master, and the request of its delay mechanism. -/
def Core.portSend (t : Time) (p : Nat) (c : Core) : Core :=
  let st := c.portState p
  if st ≤ 3 then c else
  let master := st == 6 && (!c.transparent || c.modulePort p)
  let own := c.ownSet
  let a : Announce := match c.plumb.parent with
    | some m => if c.plumb.masterPort.isSome ∧ c.plumb.sync ≠ .holdover then { m with steps := m.steps + 1 } else own
    | none => own
  let c1 := if master && ptpDue (c.logAnnounce p) t then
      c.emit (.ptp p { c.ptpMsg .announce with ann := some { a with source := Config.clockId * 65536 + p + 1 } }) else c
  let c2 := if master && ptpDue (c.logSync p) t then c1.sendTimed p .sync .followUp else c1
  if !ptpDue (c.logPdelay p) t then c2
  else if c.peer p then c2.emit (.ptp p { c.ptpMsg .pdelayReq with correction := -(c.asym p) })
  else if st = 8 ∨ st = 9 then
    match (c.ptpPort p).delay with
    | some d => c2.emit (.ptp p { c.ptpMsg .delayReq with correction := c.delayToMaster p d - d })
    | none => c2.emit (.ptp p (c.ptpMsg .delayReq))
  else c2

/-- PTP at a tick. -/
def Core.ptpTick (t : Time) (c : Core) : Core := forN 12 (fun p d => (d.portTime p).portSend t p) c

/-! ## Messages received -/

/-- A transparent clock passes a message on, an event message with its residence time added to the correctionField (R70). -/
def Core.ptpPass (p : Nat) (m : PtpMsg) (residence : Int) (c : Core) : Core :=
  forL (c.passPorts p) (fun q d => d.emit (.ptp q { m with correction := m.correction + residence })) c

/-- Whether a port takes PTP messages of a domain. -/
def Core.ptpHears (c : Core) (p domain : Nat) : Bool :=
  c.ptpRole p != 0 && !(c.ptpPort p).faulty && domain == c.fld A.PB_TIME_CTL 30 24

/-- The offset that a Sync shows (R72, R73). -/
def Core.syncOffset (c : Core) (p : Nat) (m : SyncMsg) (mean : Int) : Int :=
  (m.stamp : Int) - c.ingress p - (wireTime m.secs m.nanos : Nat) - m.correction - c.delayFromMaster p mean

/-- A Sync steers the servo and its offset is corrected (R75 to R80, R88, R90, R91). -/
def Core.syncTake (c : Core) (p : Nat) (m : SyncMsg) : Core :=
  let q := c.ptpPort p
  if c.plumb.masterPort ≠ some p ∨ !c.maySlave p ∨ c.plumb.sync = .holdover then c
  else if 0 < q.remeas then c.onPlumb fun b => { b with lastSync := b.elapsed }
  else match q.delay with
  | none => c.onPlumb fun b => { b with lastSync := b.elapsed }
  | some dly =>
    let off := c.syncOffset p m dly
    let old := c.plumb.freq
    let lim : Int := (c.regN A.PB_FREQ_CHG_LIM * (c.plumb.elapsed - c.plumb.lastSync) / second : Nat)
    let raw := Config.servoRate c.free
    let freq := if c.plumb.elapsed < c.plumb.freqLimited then clampI (old - lim) (old + lim) raw else raw
    let n := if off.natAbs ≤ ns 100 then min (c.plumb.inLock + 1) 16 else 0
    let c1 := { c with free := c.free + 1 }
    let c2 := (c1.setRate freq).onPlumb fun b => { b with
      offset := off, inLock := n, timeValid := true, lastSync := b.elapsed,
      everLocked := true, sync := if n = 16 then .locked else .acquiring }
    (c2.onPtpPort p fun q => { q with state := 9 }).takeOffset off (path 2 1 p)

/-- PTP_SYNC: device time reaches the arrival; a transparent clock passes the Sync on. -/
def Core.ptpSync (c0 : Core) (p : Nat) (m : SyncMsg) : Core :=
  let c := c0.advanceTo m.stamp
  if !c.ptpHears p m.domain then c else
  let link : Int := if c.peer p then c.delayFromMaster p ((c.ptpPort p).delay.getD 0) else 0
  (c.ptpPass p { c.ptpMsg .sync with twoStep := m.twoStep, secs := m.secs, nanos := m.nanos, correction := m.correction }
    ((m.residence : Int) + link)).syncTake p m

/-- An Announce in the line profile: checked for identity; the second since holdover from the configured master ends it (R69, R87). -/
def Core.lineAnnounce (c : Core) (p : Nat) (a : Announce) : Core :=
  if !c.maySlave p || !a.fromMaster then c else
  let c1 := c.onPlumb fun b => { b with lastAnnounce := b.elapsed, holdAnn := b.holdAnn + 1, parent := some a }
  if c.plumb.masterPort = some p ∧ c.plumb.sync ≠ .holdover then c1
  else if c.plumb.sync ≠ .holdover ∨ 2 ≤ c1.plumb.holdAnn then c1.acceptMaster p else c1

/-- An Announce in the default profiles: it enters the foreign masters of the port, and the state decision follows (R68, R87). -/
def Core.bmcAnnounce (c : Core) (p : Nat) (a : Announce) : Core :=
  if !c.maySlave p then c else
  let c1 := c.onPtpPort p fun q => { q with foreign := heard c.plumb.elapsed a q.foreign, quietFrom := c.plumb.elapsed }
  let mine := c.plumb.masterPort == some p && c.plumb.sync != .holdover && (c.plumb.parent.map (·.source)) == some a.source
  (if mine then c1.onPlumb fun b => { b with lastAnnounce := b.elapsed, parent := some a } else c1).bmcDecide

/-- PTP_ANNOUNCE. -/
def Core.ptpAnnounce (c : Core) (p : Nat) (a : Announce) : Core :=
  if !c.ptpHears p a.domain then c else
  let c1 := c.ptpPass p { c.ptpMsg .announce with ann := some a } 0
  if c.lineProfile then c1.lineAnnounce p a else c1.bmcAnnounce p a

/-- HOLDOVER_ENTRY (R85, R86): no Announce, or no Sync, for the timeout. -/
def Core.holdoverEntry (c : Core) : Core :=
  match c.plumb.masterPort with
  | none => c
  | some p =>
    let e := c.plumb.elapsed
    let annLate := decide (c.plumb.lastAnnounce + c.annTimeout p * logSeconds (c.logAnnounce p) ≤ e)
    let syncLate := decide (c.plumb.lastSync + 4 * logSeconds (c.logSync p) ≤ e)
    if c.plumb.sync = .holdover ∨ !(annLate || syncLate) then c else
    let c1 := (c.setRate c.meanRate).onPlumb fun b => { b with
      sync := .holdover, holdAge := 0, holdFrom := e, holdAnn := 0, inLock := 0 }
    (c1.onPtpPort p fun q => { q with state := 4, quietFrom := e, foreign := [] }).raise 0x0202 plumbPath

/-- A path-delay measurement (R89 to R92). -/
def Core.delayTake (c : Core) (p : Nat) (m : Int) : Core :=
  let q := c.ptpPort p
  if 0 < q.remeas then
    let v := if q.remeas = c.regN A.PB_REMEAS then m else Config.delayFilter q.remeasSum m
    if q.remeas = 1 then
      (c.onPtpPort p fun q => { q with remeas := 0, remeasSum := 0, delay := some v }).onPlumb fun b =>
        { b with freqLimited := b.elapsed + 30 * second }
    else c.onPtpPort p fun q => { q with remeas := q.remeas - 1, remeasSum := v }
  else match q.delay with
  | none => c.onPtpPort p fun q => { q with delay := some m, cand := 0 }
  | some d =>
    if (m - d).natAbs ≤ ns (c.regN (A.PB_PORT_PTHR + 0x10 * p)) then
      c.onPtpPort p fun q => { q with delay := some (Config.delayFilter d m), cand := 0 }
    else
      let up := decide (d < m)
      let n := if 0 < q.cand ∧ q.candUp = up then q.cand + 1 else 1
      if n < 3 then c.onPtpPort p fun q => { q with cand := n, candUp := up }
      else
        let c1 := (c.onPtpPort p fun q => { q with
          cand := 0, delay := none, remeas := c.regN A.PB_REMEAS, remeasSum := 0,
          pathSteps := min (q.pathSteps + 1) 0xFFFF, asymUnverified := true }).raise 0x0205 (path 2 1 p)
        if c.plumb.masterPort = some p then c1.setRate c.meanRate else c1

/-- The mean path delay of an exchange: the device's own time-stamps are corrected by its path latencies (R68, R72). End to end, t1
and t4 are the master's; between peers, t1 and t4 are the device's. -/
def Core.meanDelay (c : Core) (p : Nat) (t1 t2 t3 t4 : Time) (corr : Int) : Int :=
  let out (t : Time) : Int := (t : Int) + (c.egress p : Nat)
  let inn (t : Time) : Int := (t : Int) - c.ingress p
  if c.peer p then ((inn t4 - out t1) - ((t3 : Int) - t2) - corr) / 2
  else ((inn t2 - (t1 : Int)) + ((t4 : Int) - out t3) - corr) / 2

/-- The request of another port is answered: Pdelay_Resp between peers, Delay_Resp as a master end to end; a transparent clock passes
an end-to-end request on (R68). -/
def Core.delayAnswer (p : Nat) (byPeer : Bool) (asker : Nat) (stamp : Time) (corr : Int) (residence : Nat) (c : Core) : Core :=
  let t2 := ((stamp : Int) - c.ingress p).toNat
  if byPeer then
    if !c.peer p then c
    else if c.oneStep p then
      c.emit (.ptp p { c.ptpMsg .pdelayResp with asker := asker, correction := corr + ((c.leaves p : Int) - t2) })
    else
      (c.emit (.ptp p { (c.ptpMsg .pdelayResp).stamped t2 with asker := asker, twoStep := true })).emit
        (.ptp p { (c.ptpMsg .pdelayRespFollowUp).stamped (c.leaves p) with asker := asker })
  else
    let c1 := c.ptpPass p { c.ptpMsg .delayReq with asker := asker, correction := corr } residence
    if c.peer p ∨ c.portState p ≠ 6 then c1
    else c1.emit (.ptp p { (c.ptpMsg .delayResp).stamped t2 with asker := asker })

/-- PTP_PDELAY. -/
def Core.ptpPdelay (c : Core) (p : Nat) (m : DelayMsg) : Core :=
  if c.ptpRole p = 0 then c else
  match m with
  | .measured t1 t2 t3 t4 corr =>
    let c1 := if (c.ptpPort p).faulty then c.onPtpPort p fun q => { q with faulty := false, state := 1 } else c
    c1.delayTake p (c.meanDelay p t1 t2 t3 t4 corr)
  | .asked byPeer asker stamp corr residence =>
    if (c.ptpPort p).faulty then c else (c.advanceTo stamp).delayAnswer p byPeer asker stamp corr residence
  | .faulty =>
    if (c.ptpPort p).faulty then c
    else ((c.onPtpPort p fun q => { q with faulty := true, state := 2 }).loseMaster p).raise 0x0244 (path 2 1 p)

/-- The host sets the time (R84); answers the status. -/
def Core.setTime (c : Core) (nsv : Word) : Core × Nat :=
  if c.anySlave then (c, 0x03)
  else if 999999999 < nsv.toNat then (c, 0x08)
  else
    let t : Time := (c.regN A.PB_SET_SEC_HI * 2 ^ 32 + c.regN A.PB_SET_SEC_LO) * second + ns nsv.toNat
    let off : Int := (c.now : Int) - (t : Int)
    (((c.onPlumb fun b => { b with timeValid := true, offset := off }).takeOffset off plumbPath), 0)

end Sys2Proof.Machine
end

