-- ==== Sys2Proof/Machine/WorkQueue.lean ====
section
/-!
DEFINITION. Machine/WorkQueue.lean: the work-item queues: states and queue operations, dispatch, outputs of an item, time
release (06_work_item_queues); and the ops WRDY, WCAN, WREL and EVT.
-/
namespace Sys2Proof.Machine

/-! ## Items and counts -/

def Core.itemDef (c : Core) (i : Nat) : Option ItemDef := c.image.items[i]?
/-- Priority of an item. -/
def Core.itemPrio (c : Core) (i : Nat) : Nat := ((c.itemDef i).map (·.priority)).getD 0
/-- The code of an item. -/
def Core.itemCode (c : Core) (i : Nat) : CodeDef :=
  ((c.itemDef i).bind fun d => c.image.codes[d.code]?).getD { tileMask := 0, opCount := 0, budget := 0 }
/-- BUDGET_NS of an item as time. -/
def Core.itemBudget (c : Core) (i : Nat) : Time := ns (c.itemCode i).budget
/-- Ready entries of a priority, oldest first. -/
def Core.readyOf (c : Core) (p : Nat) : List Nat := SMap.get [] c.wq.ready p
/-- Ready entries of all priorities. -/
def Core.readyAll (c : Core) : Nat := (List.range 8).foldl (fun n p => n + (c.readyOf p).length) 0
/-- Whether R288 admits one more entry of a priority. -/
def Core.room_ (c : Core) (p : Nat) : Bool :=
  decide (c.readyAll < 4096) && decide ((c.readyOf p).length < c.regN (A.WQ_PRIO_LIMIT + 4 * p))

/-- Raises an event of an item on its priority, with its number in WQ_PRIO_LAST_ITEM (R304). -/
def Core.itemEvent (code i : Nat) (c : Core) : Core :=
  let p := c.itemPrio i
  (c.onWq fun q => { q with prioLast := SMap.set 0 q.prioLast p i }).raise code (path 7 p 0)

/-- Puts an item at the tail of its priority. -/
def Core.enqueue (i : Nat) (c : Core) : Core :=
  let p := c.itemPrio i
  (c.onItem i fun x => { x with
    phase := .ready, rel := 0, readyAt := c.now, heldFrom := none, holdOver := false, aged := false, lateRoom := false }).onWq
    fun q => { q with ready := SMap.upd [] q.ready p (· ++ [i]) }

/-- Takes an item out of its queue. -/
def Core.dequeue (i : Nat) (c : Core) : Core :=
  c.onWq fun q => { q with ready := SMap.mapAll [] (fun _ l => l.filter (· ≠ i)) q.ready }

/-- READY refused for want of room (R288). -/
def Core.refuseReady (i : Nat) (c : Core) : Core :=
  (c.onWq fun q => { q with refused := sat32 (q.refused + 1) }).itemEvent 0x0741 i

/-- Enters the queue when there is room; answers whether it did (R288). -/
def Core.makeReady (i : Nat) (c : Core) : Core × Bool :=
  if c.room_ (c.itemPrio i) then (c.enqueue i, true) else (c.refuseReady i, false)

/-- A late release (R285, R289). -/
def Core.lateRelease (i : Nat) (c : Core) : Core :=
  (c.onWq fun q => { q with lateRel := sat32 (q.lateRel + 1) }).itemEvent 0x0702 i

/-- A release whose time has passed: READY at once, or WAITING for room (R285, R289). -/
def Core.releaseLate (i : Nat) (r : Time) (c : Core) : Core :=
  if c.room_ (c.itemPrio i) then (c.enqueue i).lateRelease i
  else c.onItem i fun x => { x with phase := .waiting, rel := r, lateRoom := true }

/-! ## Queue operations (R274) -/

/-- An operation without effect (R274, R295). -/
def Core.dupOp (c : Core) : Core := c.onWq fun q => { q with dup := sat32 (q.dup + 1) }
/-- An operation refused under R290. -/
def Core.badOp (i : Nat) (c : Core) : Core := (c.onWq fun q => { q with badOp := sat32 (q.badOp + 1) }).itemEvent 0x0742 i

/-- READY; answers a status (R274, R288). -/
def Core.qReady (i : Nat) (c : Core) : Core × Nat :=
  match (c.item i).phase with
  | .idle | .waiting => let (c1, ok) := c.makeReady i; (c1, if ok then 0 else 0x0F)
  | .ready => (c.dupOp, 0)
  | .running => (c.onItem i fun x => { x with pend := .ready }, 0)

/-- RELEASE at r; `okNs` is false for nanoseconds above 999,999,999 (R274, R285, R290). -/
def Core.qRelease (i : Nat) (r : Time) (okNs : Bool) (c : Core) : Core × Nat :=
  if !okNs then (c.badOp i, 0x0F)
  else match (c.item i).phase with
    | .idle | .waiting =>
      if r < c.now then (c.releaseLate i r, 0)
      else (c.onItem i fun x => { x with phase := .waiting, rel := r, lateRoom := false }, 0)
    | .ready => (c.badOp i, 0x0F)
    | .running => (c.onItem i fun x => { x with pend := .release r }, 0)

/-- The tiles that run an item. -/
def Core.discardRun (i : Nat) (c : Core) : Core :=
  forN 16 (fun t d => d.onTile t fun x =>
    { x with run := x.run.map fun r => if r.item = i then { r with discard := true } else r }) c

/-- A RUNNING item is cancelled after dispatch (R287, R296). -/
def Core.cancelRun (i : Nat) (c : Core) : Core :=
  (((c.discardRun i).onItem i fun x => { x with pend := .none }).onWq
    fun q => { q with prioCancel := SMap.upd 0 q.prioCancel (c.itemPrio i) fun n => sat32 (n + 1) }).itemEvent 0x0701 i

/-- CANCEL (R274, R287). -/
def Core.qCancel (i : Nat) (c : Core) : Core × Nat :=
  match (c.item i).phase with
  | .idle => (c.dupOp, 0)
  | .waiting => (c.onItem i fun x => { x with phase := .idle, rel := 0, lateRoom := false }, 0)
  | .ready => ((c.dequeue i).onItem i fun x => { x with phase := .idle, heldFrom := none, holdOver := false }, 0)
  | .running => (c.cancelRun i, 0)

/-! ## Running an item's ops (R233, R279, R281, R283) -/

/-- The four words of a release time at an operand (R286). -/
def Core.relWords (c : Core) (t : Nat) (a : Nat) : List Word :=
  let fr := fun i => Config.freeWord (c.free + i)
  (List.range 4).map fun k => (c.tile t).wordF fr (a + k)

/-- The instant that release words give, and whether their nanoseconds are in range. -/
def relTime : List Word → Time × Bool
  | [s, h, n, _] => ((s.toNat + h.toNat * 2 ^ 32) * second + ns n.toNat, decide (n.toNat ≤ 999999999))
  | _ => (0, false)

/-- A queue operation of a work item is held until it completes (R283). -/
def Core.hold (t op : Nat) (o : OpWord) (c : Core) : Core :=
  let ws := if op = 0xD2 then c.relWords t o.a.toNat else []
  { c.onTile t (fun x => { x with run := x.run.map fun r => { r with held := r.held ++ [(op, o.addr.toNat, ws)] } }) with
    free := c.free + 4 }

/-- One op of a work item. -/
def Core.itemOp (t op : Nat) (o : OpWord) (c : Core) : Core :=
  if 0xD0 ≤ op ∧ op ≤ 0xD3 then
    (if (c.tile t).condMet o then (c.countOp t).hold t op o else c.countOp t)
  else runAlu op t o c

/-- The ops of a stretch of a tile's op store. -/
def Core.storeOps (c : Core) (t first count : Nat) : List (Nat × OpWord) :=
  opsIn (fun i => SMap.get 0 (c.tile t).store i) count first

/-- Copies n words from Tarn 1 into the operand buffer. -/
def copyIn (t addr base : Nat) : Nat → Core → Core
  | 0, c => c
  | n + 1, c =>
    (copyIn t addr base n c).onTile t fun x => x.setWordB (base + n) (BitVec.ofNat 32 (c.t1Read (addr + 4 * n) 4))

/-- A tile writes a word of Tarn 1 by a copy-out: of two tiles that write it at one instant the higher-numbered one's value stands
(R232). -/
def Core.t1Copy (t a v : Nat) (c : Core) : Core :=
  let l := if c.mem.wroteAt = c.now then c.mem.wrote else []
  if l.any fun p => p.1 == a && decide (t < p.2) then c
  else (c.t1Write a v 4).onMem fun m => { m with wroteAt := c.now, wrote := (a, t) :: l.filter fun p => p.1 != a }

/-- Copies n words from the operand buffer to Tarn 1. -/
def copyOut (t addr base : Nat) : Nat → Core → Core
  | 0, c => c
  | n + 1, c => (copyOut t addr base n c).t1Copy t (addr + 4 * n) ((c.tile t).word (base + n)).toNat

/-- Starts an item on a tile and runs its code (R278, R279). -/
def Core.startItem (t i : Nat) (c : Core) : Core :=
  let d := (c.itemDef i).getD { stableId := 0, code := 0, tileMask := 0, paramAddr := 0, priority := 0 }
  let k := c.itemCode i
  let wait := (c.now - (c.item i).readyAt) / 65536
  let c1 := (c.dequeue i).onItem i fun x => { x with
    phase := .running, pend := .none, heldFrom := none, holdOver := false,
    latLast := sat32 wait, latMax := max x.latMax (sat32 wait) }
  let c2 := c1.onWq fun q => { q with
    prioRuns := SMap.upd 0 q.prioRuns d.priority fun n => (n + 1) % 2 ^ 32
    lastTile := SMap.set 0 q.lastTile d.code (t + 1) }
  let c3 := c2.onTile t fun x => { x with run := some { item := i, started := c.now }, preds := 0 }
  let c4 := copyIn t d.paramAddr k.bufBase k.inWords c3
  forL (c4.storeOps t (k.opFirst.getD t 0) k.opCount) (fun p e => e.itemOp t p.1 p.2) c4

/-! ## Dispatch (R277 to R280) -/

/-- START of the first SLACK window of a tile that is still to open, at the present instant or later, and its length: in this cycle or
the next. -/
def Core.nextSlack (c : Core) (t : Nat) : Option (Time × Time) :=
  let ws := ((c.image.schedule.tiles.getD t []).filter (·.kind == 4)).map fun w => (ns w.start, ns w.len)
  let now := if (c.tile t).slackEnd.isSome then c.now + 1 else c.now
  match ws.find? (fun w => decide (now ≤ c.prog.cycleStart + w.1)) with
  | some w => some (c.prog.cycleStart + w.1, w.2)
  | none => ws.head?.map fun w => (c.prog.cycleStart + c.baseLen + w.1, w.2)

/-- The next dispatch point of a tile and the window left there, from the BUDGET_NS of what it runs and its schedule (R280). -/
def Core.nextDispatch (c : Core) (t : Nat) : Option (Time × Time) :=
  let x := c.tile t
  match x.slackEnd, x.run with
  | some e, none => if c.now < e then some (c.now, e - c.now) else c.nextSlack t
  | some e, some r =>
    let p := r.started + c.itemBudget r.item
    if p < e then some (p, e - p) else c.nextSlack t
  | none, _ => c.nextSlack t

/-- Whether a ready entry is held for another tile when tile t considers it (R280). -/
def Core.heldFor (c : Core) (t i : Nat) : Bool :=
  let w := ns (c.regN A.WQ_AFF_WAIT)
  let d := (c.itemDef i).getD { stableId := 0, code := 0, tileMask := 0, paramAddr := 0, priority := 0 }
  let l1 := SMap.get 0 c.wq.lastTile d.code
  let x := c.item i
  let open_ := match x.heldFrom with | some f => decide (c.now < f + w) | none => true
  if w = 0 ∨ l1 = 0 ∨ l1 = t + 1 ∨ x.holdOver ∨ !open_ ∨ !d.tileMask.testBit (l1 - 1) then false
  else match c.nextDispatch (l1 - 1) with
    | some (p, left) => decide (p ≤ c.now + w) && decide (c.itemBudget i ≤ left)
    | none => false

/-- The first entry of a list that tile t may start; entries it passes over for another tile note when (R278, R280). -/
def Core.choose (t : Nat) (e : Time) : List Nat → Core → Core × Option Nat
  | [], c => (c, none)
  | i :: l, c =>
    let mask := ((c.itemDef i).map (·.tileMask)).getD 0
    if !mask.testBit t || decide (e < c.now + c.itemBudget i) then Core.choose t e l c
    else if c.heldFor t i then
      Core.choose t e l (c.onItem i fun x => { x with heldFrom := some (x.heldFrom.getD c.now) })
    else (c, some i)

/-- Starting an entry ends the holds of the other entries held for the tile (R280). -/
def Core.endHolds (t i : Nat) (c : Core) : Core :=
  c.onWq fun q => { q with items := SMap.mapAll {} (fun j x =>
    if x.heldFrom.isSome && j != i && SMap.get 0 q.lastTile (((c.itemDef j).map (·.code)).getD 0) == t + 1 then
      { x with holdOver := true } else x) q.items }

/-- Items that wait for room enter the queue at a dispatch point where there is room (R289). -/
def Core.admitLate (c : Core) : Core :=
  forL ((c.wq.items.filter fun e => e.2.phase == .waiting && e.2.lateRoom).map Prod.fst)
    (fun i d => if d.room_ (d.itemPrio i) then (d.enqueue i).lateRelease i else d) c

/-- A dispatch point on tile t (R277, R278). -/
def Core.dispatch (t : Nat) (c : Core) : Core :=
  let x := c.tile t
  match x.slackEnd, x.run with
  | some e, none =>
    if c.now < e then
      let c0 := c.admitLate
      let (c1, pick) := c0.choose t e ((List.range 8).flatMap c0.readyOf)
      match pick with
      | some i => ((c1.endHolds t i).startItem t i)
      | none => c1
    else c
  | _, _ => c

/-- Items that wait for room (R289). -/
def Core.lateCount (c : Core) : Nat := (c.wq.items.filter fun e => e.2.phase == .waiting && e.2.lateRoom).length

/-- Dispatch points on all idle tiles in open SLACK windows, in ascending order (R277), again while an item that waited for room
arrives at one of them: its arrival makes points on the other idle tiles. -/
def Core.dispatchRounds : Nat → Core → Core
  | 0, c => c
  | n + 1, c =>
    let c1 := forN 16 Core.dispatch c
    if c1.lateCount < c.lateCount then Core.dispatchRounds n c1 else c1

/-- The dispatch points that the arrival of a ready entry makes (R277). At most 16 tiles start an item. -/
def Core.dispatchAll (c : Core) : Core := Core.dispatchRounds 17 c

/-- The dispatch point of one tile, and those that an item makes that it lets in (R277, R289). -/
def Core.dispatchAt (t : Nat) (c : Core) : Core :=
  let c1 := c.dispatch t
  if c1.lateCount < c.lateCount then c1.dispatchAll else c1

/-- The dispatch points of an operation: those of a ready entry that it has brought (R277). -/
def Core.arrivals (before after : Core) : Core := if before.readyAll < after.readyAll then after.dispatchAll else after

/-- A queue operation acts on its item; answers a status (R274). -/
def Core.qApply (op i : Nat) (r : Time × Bool) (c : Core) : Core × Nat :=
  if op = 0xD0 then c.qReady i else if op = 0xD1 then c.qCancel i else c.qRelease i r.1 r.2

/-- A queue operation arrives: it acts, and a ready entry makes dispatch points (R273 to R277). -/
def Core.queueOp (op i : Nat) (r : Time × Bool) (c : Core) : Core × Nat :=
  let (c1, st) := c.qApply op i r
  (Core.arrivals c c1, st)
/-- An event of the program (R840). -/
def Core.evt (code : Nat) (c : Core) : Core := c.raise code (path 8 0 0)

/-- Applies an arriving operation: opcode, ADDR and release words. -/
def Core.applyOp (h : Nat × Nat × List Word) (c : Core) : Core :=
  if h.1 = 0xD3 then c.evt (h.2.1 % 65536) else (c.queueOp h.1 h.2.1 (relTime h.2.2)).1

/-- Applies an operation that an item held: those of one completion all act before the decisions that they lead to (R276, R283). -/
def Core.applyHeldOp (h : Nat × Nat × List Word) (c : Core) : Core :=
  if h.1 = 0xD3 then c.evt (h.2.1 % 65536) else (c.qApply h.1 h.2.1 (relTime h.2.2)).1

/-! ## Completion of an item (R255, R275, R281) -/

/-- A work item over its budget: 0x0641, its output commit discarded, its pending activation kept (R255). -/
def Core.overBudget (t : Nat) (c : Core) : Core :=
  match (c.tile t).run with
  | some r =>
    if r.ovr then c
    else (c.onTile t fun x => { x with run := some { r with ovr := true, discard := true } }).raise 0x0641 (path 6 t 0)
  | none => c

/-- After an item the predicates and the words outside the program's allocation are undefined (R279). -/
def Core.junkTile (t : Nat) (c : Core) : Core :=
  { c.onTile t (fun x => { x with
      junk := c.free + 1
      buf := SMap.drop (fun i => !x.alloc.contains i) x.buf
      preds := BitVec.ofNat 16 (Config.freeNat (c.free + 1)) }) with free := c.free + 16400 }

/-- ITEM_COMPLETE (R275): copy-out, transition, held operations; the entries wait for COMMIT_END. -/
def Core.itemComplete (t : Nat) (c : Core) : Core :=
  match (c.tile t).run with
  | none => c
  | some r0 =>
    let c0 := if r0.started + c.itemBudget r0.item < c.now then c.overBudget t else c
    let r := ((c0.tile t).run).getD r0
    let i := r.item
    let d := (c.itemDef i).getD { stableId := 0, code := 0, tileMask := 0, paramAddr := 0, priority := 0 }
    let k := c.itemCode i
    let c1 := if r.discard then c0 else copyOut t d.paramAddr k.bufBase k.outWords c0
    let c2 := (c1.onTile t fun x => { x with
      run := none, itemCommit := if r.discard then x.itemCommit else x.itemCommit ++ r.entries }).junkTile t
    let pend := (c2.item i).pend
    let c3 := c2.onItem i fun x => { x with phase := .idle, pend := .none, runs := (x.runs + 1) % 65536 }
    let c4 := match pend with
      | .none => c3
      | .ready => (c3.makeReady i).1
      | .release q => (c3.qRelease i q true).1
    let c5 := if r.discard then c4 else forL r.held Core.applyHeldOp c4
    if c2.readyAll < c5.readyAll then c5.dispatchAll else c5.dispatchAt t

/-! ## Time (R285, R280, R291) -/

/-- RELEASE_TIME_REACHED: a WAITING item becomes READY, or waits for room (R285, R289). -/
def Core.releaseReached (i : Nat) (c : Core) : Core :=
  let x := c.item i
  if x.phase ≠ .waiting ∨ x.lateRoom then c else
  let c1 := c.advanceTo x.rel
  if c1.room_ (c1.itemPrio i) then (c1.enqueue i).dispatchAll else c1.onItem i fun y => { y with lateRoom := true }

/-- AFFINITY_HOLD_END (R280). -/
def Core.holdEnd (i : Nat) (c : Core) : Core :=
  match (c.item i).phase, (c.item i).heldFrom with
  | .ready, some f =>
    if (c.item i).holdOver then c
    else (((c.advanceTo (f + ns (c.regN A.WQ_AFF_WAIT))).onItem i fun x => { x with holdOver := true }).dispatchAll)
  | _, _ => c

/-- READY_ENTRY_AGED (R291). -/
def Core.aged (i : Nat) (c : Core) : Core :=
  let x := c.item i
  let w := c.regN A.WQ_AGE_WARN
  if x.phase ≠ .ready ∨ x.aged ∨ w = 0 then c
  else ((c.advanceTo (x.readyAt + w * us)).onItem i fun y => { y with aged := true }).itemEvent 0x0703 i

/-- Counts discarded commit entries of items (R256, R292, R293, R295). -/
def Core.commitLost (n : Nat) (c : Core) : Core :=
  if n = 0 then c else (c.onWq fun q => { q with commitLost := sat32 (q.commitLost + n) }).raise 0x0704 0x07FFFFFF

/-- The device leaves Run: items to IDLE, entries left discarded (R293). -/
def Core.queuesStandby (c : Core) : Core :=
  let n := (List.range 16).foldl (fun n t => n + (c.tile t).itemCommit.length) 0
  let c1 := c.onWq fun q => { q with
    ready := [], items := SMap.mapAll {} (fun _ x =>
      { x with phase := if x.phase = .running then .running else .idle, pend := .none, rel := 0,
               heldFrom := none, holdOver := false, lateRoom := false }) q.items }
  (forN 16 (fun t d => d.onTile t fun x => { x with itemCommit := [] }) c1).commitLost n

/-- An ABORT of a priority (R296). -/
def Core.abortPrio (p : Nat) (c : Core) : Core :=
  forL ((c.wq.items.map Prod.fst).filter fun i => c.itemPrio i == p)
    (fun i d => match (d.item i).phase with
      | .idle => d
      | .running => d.cancelRun i
      | _ => (d.qCancel i).1) c

end Sys2Proof.Machine
end

