-- ==== Sys2Proof/Machine/Fabric.lean ====
section
/-!
DEFINITION. Machine/Fabric.lean: the windows of the schedule at run time (R245 to R255), and the ops that arrive at the queue
engine or raise an event from a cyclic window (R273, R840).
-/
namespace Sys2Proof.Machine

/-! ## Ops of cyclic windows -/

/-- One op of a tile: a queue operation or an event acts at its completion in a cyclic window, and is held in an item (R273). -/
def Core.tileOp (t op : Nat) (o : OpWord) (c : Core) : Core :=
  if (c.tile t).run.isSome then c.itemOp t op o
  else if 0xD0 ≤ op ∧ op ≤ 0xD3 then
    let c1 := c.countOp t
    if (c.tile t).condMet o then
      { c1.applyOp (op, o.addr.toNat, if op = 0xD2 then c1.relWords t o.a.toNat else []) with free := c1.free + 4 }
    else c1
  else runAlu op t o c

/-- WRDY (R274). -/
def aluWrdy (t : Nat) (o : OpWord) (c : Core) : Core :=
  if (c.tile t).run.isSome then c.hold t 0xD0 o else (c.queueOp 0xD0 o.addr.toNat (0, true)).1
/-- WCAN (R274). -/
def aluWcan (t : Nat) (o : OpWord) (c : Core) : Core :=
  if (c.tile t).run.isSome then c.hold t 0xD1 o else (c.queueOp 0xD1 o.addr.toNat (0, true)).1
/-- WREL (R286). -/
def aluWrel (t : Nat) (o : OpWord) (c : Core) : Core :=
  if (c.tile t).run.isSome then c.hold t 0xD2 o
  else (c.queueOp 0xD2 o.addr.toNat (relTime (c.relWords t o.a.toNat))).1
/-- EVT (R840). -/
def aluEvt (t : Nat) (o : OpWord) (c : Core) : Core :=
  if (c.tile t).run.isSome then c.hold t 0xD3 o else c.evt (bits o.addr 15 0)

def execOpWrdy : Fin 16 → OpWord → State → Host.Outcome State Fault Refusal := opCmd 0xD0 aluWrdy
def execOpWcan : Fin 16 → OpWord → State → Host.Outcome State Fault Refusal := opCmd 0xD1 aluWcan
def execOpWrel : Fin 16 → OpWord → State → Host.Outcome State Fault Refusal := opCmd 0xD2 aluWrel
def execOpEvt : Fin 16 → OpWord → State → Host.Outcome State Fault Refusal := opCmd 0xD3 aluEvt

/-! ## Windows (R245, R251, R252) -/

/-- The windows of a tile, padding left out. -/
def Core.windows (c : Core) (t : Nat) : List WinDef := (c.image.schedule.tiles.getD t []).filter (·.kind ≤ 4)

/-- Whether a SLACK window is one of the last old cycle's transfer windows, which dispatch no work (R344). -/
def Core.xferWindow (c : Core) (w : WinDef) : Bool :=
  c.prog.olc.st == .armed && c.prog.olc.cleared && !c.prog.olc.willSkip && decide (c.image.schedule.commitEnd ≤ w.start)

/-- A tile runs a window's ops, or opens a SLACK window, at the present instant. A window that opens after the COMMIT_END of its cycle
leaves no commit entries: the cycle's buffers were discarded there (R253, R312). -/
def Core.openWindow (t idx : Nat) (late : Bool) (c : Core) : Core :=
  match (c.windows t)[idx]? with
  | none => c
  | some w =>
    let start := c.prog.winBase + ns w.start
    let c1 := c.onTile t fun x => { x with win := some { idx := idx, kind := w.kind, start := start, len := w.len, late := late } }
    if w.kind = 4 then
      let e := start + ns w.len
      if e ≤ c.now then c1.onTile t fun x => { x with win := x.win.map fun v => { v with complete := true } }
      else
        let c2 := c1.onTile t fun x => { x with slackEnd := if c.xferWindow w then none else some e }
        c2.dispatchAt t
    else
      let c2 := forL (c1.storeOps t w.opFirst w.opCount) (fun p d => d.tileOp t p.1 p.2) c1
      if c.prog.ended ∨ c.prog.winBase ≠ c.prog.cycleStart then c2.onTile t fun x => { x with commit := (c.tile t).commit } else c2

/-- The tile is free for its next window. -/
def Tile.free (x : Tile) : Bool := x.run.isNone && (match x.win with | some v => v.complete | none => true)

/-- Index of the tile's next window of the cycle. -/
def Tile.nextIdx (x : Tile) : Nat :=
  match x.waitWins.getLast? with
  | some p => p.1 + 1
  | none => match x.win with | some v => if v.old then 0 else v.idx + 1 | none => 0

/-- Whether windows open: the program runs and the cycle is not a skipped one (R306, R312). -/
def Core.cycling (c : Core) : Bool :=
  c.running && c.prog.phase != .notRunning && c.prog.phase != .skipped && !c.prog.skipping

/-- WINDOW_START: the tile's next window at its START, or once a late window has completed (R245, R252). -/
def Core.windowStart (t : Nat) (c : Core) : Core :=
  if !c.cycling then c else
  let x := c.tile t
  let idx := x.nextIdx
  match (c.windows t)[idx]? with
  | none => c
  | some w =>
    let c1 := c.advanceTo (c.prog.cycleStart + ns w.start)
    if x.free && x.waitWins.isEmpty then c1.openWindow t idx false
    else c1.onTile t fun y => { y with waitWins := y.waitWins ++ [(idx, false)] }

/-- A window that was not complete at its end is late: counted, and a cycle overrun for LATCH, LOGIC and COMMIT (R252, R253). -/
def Core.lateWindow (t kind : Nat) (c : Core) : Core :=
  let c1 := c.onTile t fun x => { x with late := sat32 (x.late + 1) }
  if kind ≤ 2 ∧ !c.prog.released then c1.onProg fun p => { p with overrun := true } else c1

/-- Once the tile is free its waiting window starts (R252). -/
def Core.openWaiting (t : Nat) (c : Core) : Core :=
  let x := c.tile t
  match x.waitWins with
  | (idx, late) :: l => if x.free then (c.onTile t fun y => { y with waitWins := l }).openWindow t idx late else c
  | [] => c

/-- The use of a window that completes now, in ‰: its highest, and 0x0601 (R264, R265). -/
def Core.noteUse (t : Nat) (v : RunWin) (c : Core) : Core :=
  let use := min 65535 ((c.now - v.start) * 1000 / ns v.len)
  let c1 := c.onTile t fun x => { x with maxUse := max x.maxUse use }
  if c.regN A.FB_USE_WARN < use then c1.raiseEvery second 0x0601 (path 6 t 0) else c1

/-- A check error of a tile's op store or operand buffer: FAULT, 0x0681, and Run or Service is left for Standby (R135, R263, R265). The
window runs on: notes/assumptions/127.md. -/
def Core.tileCheck (t : Nat) (c : Core) : Core :=
  let c1 := (c.onTile t fun x => { x with fault := true }).raise 0x0681 (path 6 t 0)
  if c.running then c1.onMd fun m => { m with faults := m.faults ++ [.tileCheck] } else c1

/-- WINDOW_COMPLETE: Plumb stamps the completion; its use is recorded (R251, R264, R265). -/
def Core.windowComplete (t : Nat) (c : Core) : Core :=
  match (c.tile t).win with
  | none => c
  | some v =>
    if v.complete ∨ v.kind = 4 then c else
    let c0 := if !v.late && decide (v.start + ns v.len ≤ c.now) then c.lateWindow t v.kind else c
    let c1 := c0.onTile t fun x => { x with
      win := some { v with complete := true, late := v.late || decide (v.start + ns v.len ≤ c.now) } }
    (c1.noteUse t v).openWaiting t

/-- WINDOW_DEADLINE: at START + LEN of the tile's window, or of the first waiting one not yet judged (R252, R253, R255). -/
def Core.windowDeadline (t : Nat) (c : Core) : Core :=
  let x := c.tile t
  match x.win with
  | none => c
  | some v =>
    if v.kind = 4 ∧ !v.complete then
      let c1 := (c.advanceTo (v.start + ns v.len)).onTile t fun y =>
        { y with slackEnd := none, win := some { v with complete := true, late := y.run.isSome } }
      if x.run.isSome then ((c1.lateWindow t 4).overBudget t).openWaiting t else c1.openWaiting t
    else if !v.complete && !v.late then
      ((c.advanceTo (v.start + ns v.len)).onTile t fun y => { y with win := some { v with late := true } }).lateWindow t v.kind
    else
      match x.waitWins.findIdx? (fun p => !p.2) with
      | none => c
      | some k =>
        match (x.waitWins[k]?).bind (fun p => (c.windows t)[p.1]?) with
        | none => c
        | some w =>
          ((c.advanceTo (c.prog.winBase + ns w.start + ns w.len)).onTile t fun y => { y with
            waitWins := y.waitWins.modify k fun p => (p.1, true) }).lateWindow t w.kind

/-- An item's completion frees the tile for a window that waits (R255); a SLACK window that it made late completes with it
(R264). -/
def Core.itemCompleted (t : Nat) (c : Core) : Core :=
  let c1 := match (c.tile t).win, (c.tile t).run with
    | some v, some _ => if v.kind = 4 ∧ v.complete ∧ v.late then c.noteUse t v else c
    | _, _ => c
  (c1.itemComplete t).openWaiting t

/-- Whether every COMMIT window of a tile has been met (R254). -/
def Core.commitsMet (c : Core) (t : Nat) : Bool :=
  let x := c.tile t
  (number 0 (c.windows t)).all fun (i, w) =>
    w.kind != 2 || (match x.win with | some v => !v.old && (decide (i < v.idx) || (v.idx == i && v.complete && !v.late)) | none => false)

/-- Whether a tile is idle (R314). -/
def Tile.idle (x : Tile) : Bool := x.free && x.waitWins.isEmpty

/-- Every LOGIC window of the cycle has completed (R320). -/
def Core.logicDone (c : Core) (t : Nat) : Bool :=
  let x := c.tile t
  (number 0 (c.windows t)).all fun (i, w) =>
    w.kind != 1 || (match x.win with | some v => !v.old && (decide (i < v.idx) || (v.idx == i && v.complete)) | none => false)

/-! ## The commands -/

def execWindowStart (t : Fin 16) (s : State) : Host.Outcome State Fault Refusal := coreCmd (Core.windowStart t.val) s
def execWindowComplete (w : WinEnd) (s : State) : Host.Outcome State Fault Refusal :=
  coreCmd (fun c => (if w.check then c.tileCheck w.t.val else c).windowComplete w.t.val) s
def execWindowDeadline (t : Fin 16) (s : State) : Host.Outcome State Fault Refusal := coreCmd (Core.windowDeadline t.val) s
def execItemComplete (t : Fin 16) (s : State) : Host.Outcome State Fault Refusal := coreCmd (Core.itemCompleted t.val) s
def execReleaseTimeReached (i : Nat) (s : State) : Host.Outcome State Fault Refusal := coreCmd (Core.releaseReached i) s
def execAffinityHoldEnd (i : Nat) (s : State) : Host.Outcome State Fault Refusal := coreCmd (Core.holdEnd i) s
def execReadyEntryAged (i : Nat) (s : State) : Host.Outcome State Fault Refusal := coreCmd (Core.aged i) s

end Sys2Proof.Machine
end

