-- ==== Sys2Proof/Machine/Points.lean ====
section
/-!
DEFINITION. Machine/Points.lean: points of modules (R21, R531, R635): their place in an input image and in the output segments
of Tarn 3, and the values of class 0 tags. A Tarn 3 output address is module × 2,048 + byte offset, and the bits of a point
run from the lowest bit of its first byte up (notes/assumptions/25.md).
-/
namespace Sys2Proof.Machine

/-- Width, type, direction and first bit of a point from its descriptor (R635). -/
def ptWidth (pt : Nat) : Nat := bits (wd pt) 27 22 + 1
def ptType (pt : Nat) : Nat := bits (wd pt) 31 28
def ptOut (pt : Nat) : Bool := bit (wd pt) 21
def ptLsb (pt : Nat) : Nat := bits (wd pt) 15 0 * 8 + bits (wd pt) 18 16

/-- Bits [lsb, lsb + w) of a byte string. -/
def bytesField (bytes : List Nat) (lsb w : Nat) : Nat :=
  (bytes.foldr (fun b acc => b % 256 + 256 * acc) 0) / 2 ^ lsb % 2 ^ w

/-- Module and descriptor of a class 0 tag. -/
def Core.point (c : Core) (t : Tag) : Option (Nat × Nat) :=
  if tagClass t = 0 then ((c.mod (tagIndex t / 1024)).points[tagIndex t % 1024]?).map fun p => (tagIndex t / 1024, p)
  else none

/-- An input point's number as the active half of the input area holds it, zero before any data. -/
def Core.inNum (c : Core) (m pt : Nat) : Int :=
  rawNum (ptType pt) (ptWidth pt) (bytesField (c.mod m).act.bytes (ptLsb pt) (ptWidth pt))

/-- An input point's number with a force on it (R335). -/
def Core.inForced (c : Core) (t : Tag) (m pt : Nat) : Int :=
  match c.forceOn t with
  | some v => rawNum (ptType pt) (ptWidth pt) (v.toNat % 2 ^ ptWidth pt)
  | none => c.inNum m pt

/-! ## Output segments (R311) -/

/-- Key of an output word: module and word of its segment. -/
def outKey (m w : Nat) : Nat := m * 512 + w
/-- The output word at a Tarn 3 byte address. -/
def outAddr (a : Nat) : Nat := outKey (a / 2048) (a % 2048 / 4)

def Core.outWord (c : Core) (k : Nat) : Word := SMap.get 0 c.ash.out k

/-- ASH_CLAIM: from the image, or the pair's claim (R626). -/
def Core.claimNow (c : Core) : Nat :=
  if c.image.pair.en then max 1 c.mr.claim else max 1 (c.image.pair.claimBase)

/-- What the course frames of a port cycle are built from. -/
def Core.builtNow (start : Time) (c : Core) : Built :=
  { start := start, out := c.ash.out, before := c.ash.before, aborted := c.ash.aborted, forces := c.prog.forcesNow, mode := c.md.mode,
    runLive := c.md.runLive, committed := c.md.committed, claim := c.claimNow }

/-- Start of the port cycle whose build instant, 1,000 ns before it, device time has reached (R615). -/
def Core.buildStart (c : Core) (p : Nat) : Time := (c.now + ns 1000) / c.portLen p * c.portLen p

/-- Before anything that course frames carry changes: the frames that are built but have not left keep what they were built from
(R615 step 1). -/
def Core.freeze (c : Core) : Core :=
  forN 8 (fun p d =>
    let x := d.port p
    let t := d.buildStart p
    if x.st = .cycling ∧ (x.fresh ∨ x.cycleStart < t) ∧ x.built.map (·.start) ≠ some t then d.onPort p fun y => { y with built := some (d.builtNow t) }
    else d) c

/-- Writes a word of an output segment. -/
def Core.setOutWord (k : Nat) (v : Word) (c : Core) : Core := c.freeze.onAshSt fun a => { a with out := SMap.set 0 a.out k v }

/-- Bits [lsb, lsb + w) of a module's output segment. -/
def Core.outField (c : Core) (m lsb w : Nat) : Nat :=
  let k := lsb / 32
  let v := (c.outWord (outKey m k)).toNat + (c.outWord (outKey m (k + 1))).toNat * 2 ^ 32 + (c.outWord (outKey m (k + 2))).toNat * 2 ^ 64
  v / 2 ^ (lsb % 32) % 2 ^ w

/-- Writes bits [lsb, lsb + w) of a module's output segment; w is at most 64. -/
def Core.setOutField (m lsb w v : Nat) (c : Core) : Core :=
  let k := lsb / 32
  let s := lsb % 32
  let old := (c.outWord (outKey m k)).toNat + (c.outWord (outKey m (k + 1))).toNat * 2 ^ 32 + (c.outWord (outKey m (k + 2))).toNat * 2 ^ 64
  let new := old - old / 2 ^ s % 2 ^ w * 2 ^ s + v % 2 ^ w * 2 ^ s
  let c1 := c.setOutWord (outKey m k) (wd new)
  let c2 := if 32 < s + w then c1.setOutWord (outKey m (k + 1)) (wd (new / 2 ^ 32)) else c1
  if 64 < s + w then c2.setOutWord (outKey m (k + 2)) (wd (new / 2 ^ 64)) else c2

/-- Writes the low bits of a number to an output point. -/
def Core.outPoint (t : Tag) (v : Int) (c : Core) : Core :=
  match c.point t with
  | some (m, pt) => c.setOutField m (ptLsb pt) (ptWidth pt) (v % 2 ^ 64).toNat
  | none => c

/-- The 64-bit value of a class 0 tag: the input as last received, or the committed output (R335). -/
def Core.pointValue (c : Core) (t : Tag) : DWord :=
  match c.point t with
  | some (m, pt) =>
    if ptOut pt then BitVec.ofInt 64 (rawNum (ptType pt) (ptWidth pt) (c.outField m (ptLsb pt) (ptWidth pt)))
    else BitVec.ofInt 64 (c.inNum m pt)
  | none => 0

/-- Whether a module is in operation (R625). -/
def Core.inOperation (c : Core) (m : Nat) : Bool := (c.mod m).st == .operational
/-- Port of a module. -/
def modPort (m : Nat) : Nat := m / 512

/-- Metadata of the class 0 tags of a module, from its report (R532). -/
def Core.fillMeta (m : Nat) (c : Core) : Core :=
  forL (number 0 (c.mod m).points) (fun (i, pt) d =>
    let t := pointTag m i
    let keep := (d.metaOf t).toNat % 2 ^ 54
    d.setMeta t (BitVec.ofNat 64 (ptType pt * 2 ^ 60 + (ptWidth pt - 1) * 2 ^ 54 + keep))) c

end Sys2Proof.Machine
end

