-- ==== Sys2Proof/Machine/Chain.lean ====
section
/-!
DEFINITION. Machine/Chain.lean: the values that the chain brings: the line shaft (R666 to R668) and imported tags (R670, R671).
-/

namespace Sys2Proof.Machine

/-- LEAD_TICKS (R666). -/
def Core.leadTicks (c : Core) : Nat := c.fld A.LN_CFG 30 24
def Core.devNum (c : Core) : Nat := c.fld A.LN_CFG 9 0

/-- The publication of the highest time in a list. -/
def newestPub : List ShaftPub → Option ShaftPub
  | [] => none
  | p :: l => match newestPub l with
    | some q => if q.t < p.t then some p else some q
    | none => some p

/-- The publication whose consuming interval holds an instant, on time (R666). -/
def Core.pubFor (c : Core) (t : Time) : Option ShaftPub :=
  let n := t / tickLen
  if n < c.leadTicks then none else c.ln.shaft.find? (fun p => p.t == (n - c.leadTicks) * tickLen)

/-- A publication projected to an instant: position in 2^-32 counts, velocity and acceleration in 2^-16 (R666). -/
def ShaftPub.at_ (p : ShaftPub) (t : Time) : Int × Int × Int :=
  let dt : Int := (t : Int) - p.t
  let s : Int := (second : Nat)
  (p.p + (p.v * 65536 * dt * 2 * s + p.a * 65536 * dt * dt) / (2 * s * s), p.v + p.a * dt / s, p.a)

/-- The shaft at an instant: publication n, or the newest received (R666, R668). -/
def Core.shaftAt (c : Core) (t : Time) : Option (Int × Int × Int) :=
  ((c.pubFor t).or (newestPub c.ln.shaft)).map fun p => p.at_ t

/-- The import bound to a class 6 tag. -/
def Core.import_ (c : Core) (t : Tag) : LnImport := SMap.get {} c.ln.imports t

/-- An imported position at an instant in 48.16 counts, and whether it is stale (R407): the shaft projected, another import as
it arrived. -/
def Core.importPos (c : Core) (tag : Tag) (t : Time) : Int × Bool :=
  if c.image.shaft.head? = some tag then
    match c.shaftAt t with
    | some (p, _, _) => (p / 2 ^ 32 * 65536, c.ln.shaftState == .stale)
    | none => (0, true)
  else
    let i := c.import_ tag
    (if c.tagType tag = 7 then i.value.toInt else i.value.toInt * 65536, i.stale || !i.got)

end Sys2Proof.Machine
end

