-- ==== Sys2Proof/Machine/Planner.lean ====
section
/-!
DEFINITION. Machine/Planner.lean: jerk-limited plans of the profile generators (R445, R447, R453 to R457, R463). Inside a plan
the units are counts and generator steps of 1 µs, exact rationals; durations are whole steps, rounded up, and the peaks are
then solved so that each change of velocity and each distance comes out exactly (notes/assumptions/30.md).
-/
namespace Sys2Proof.Machine

/-! ## Units -/

/-- A position in 2^-32 counts, a velocity, an acceleration and a jerk in 2^-16, as rationals in counts and steps. -/
def rp (x : Int) : Rat := mkRat x (2 ^ 32)
def rv (x : Int) : Rat := mkRat x (65536 * 10 ^ 6)
def ra (x : Int) : Rat := mkRat x (65536 * 10 ^ 12)
def rj (x : Int) : Rat := mkRat x (65536 * 10 ^ 18)

/-- Nearest integer, halves upward. -/
def roundR (x : Rat) : Int := (x + 1 / 2).floor

def toPos (x : Rat) : Int := roundR (x * 2 ^ 32)
def toVel (x : Rat) : Int := roundR (x * (65536 * 10 ^ 6))
def toAcc (x : Rat) : Int := roundR (x * (65536 * 10 ^ 12))
def toJerk (x : Rat) : Int := roundR (x * (65536 * 10 ^ 18))

/-- Least natural number not below a rational. -/
def ceilN (x : Rat) : Nat := (-((-x).floor)).toNat
/-- Absolute value. -/
def rabs (x : Rat) : Rat := if x < 0 then -x else x

/-- Least natural n with n² ≥ q. -/
def ceilSqrt (q : Rat) : Nat :=
  let m := ceilN q
  let r := isqrt m
  if r * r = m then r else r + 1

/-- Least natural n with b + √q ≤ n, for rational b and q ≥ 0. -/
def ceilAddSqrt (b q : Rat) : Nat :=
  let n := ceilN (b + (isqrt q.floor.toNat : Nat))
  let x : Rat := (n : Rat) - b
  if 0 ≤ x ∧ q ≤ x * x then n else n + 1

/-! ## Velocity ramps -/

/-- A stretch of constant jerk: steps, acceleration at its start and at its end. -/
abbrev Piece := Nat × Rat × Rat

/-- Durations of a ramp: jerk, constant acceleration, jerk. -/
abbrev Durs := Nat × Nat × Nat

/-- The peak acceleration that makes a ramp of given durations change the velocity by `dv` from acceleration `a0`. -/
def peakOf (d : Durs) (dv a0 : Rat) : Rat :=
  let den : Rat := (d.1 : Rat) / 2 + d.2.1 + (d.2.2 : Rat) / 2
  if den = 0 then 0 else (dv - a0 * d.1 / 2) / den

/-- Lengthens the first jerk stretch until its jerk keeps the limit. -/
def fixJerk (dv a0 j : Rat) : Nat → Durs → Durs
  | 0, d => d
  | f + 1, d => if rabs (peakOf d dv a0 - a0) ≤ j * d.1 then d else fixJerk dv a0 j f (d.1 + 1, d.2)

/-- Durations of a ramp by `dv` from acceleration `a0` under the limit of its direction and a jerk limit; jerk 0 is none. -/
def rampDurs (dv a0 lim j : Rat) : Durs :=
  if j = 0 then (0, ceilN (dv / lim), 0) else
  let q := (j * dv + a0 * a0 / 2) / (j * j)
  if lim * lim ≤ q * (j * j) then
    let change1 := (lim + a0) / 2 * (rabs (lim - a0) / j)
    let hold := (dv - change1 - lim * lim / (2 * j)) / lim
    fixJerk dv a0 j 8 (ceilN (rabs (lim - a0) / j), (if 0 < hold then ceilN hold else 0), ceilN (lim / j))
  else if dv = 0 ∧ a0 = 0 then (0, 0, 0)
  else fixJerk dv a0 j 8 (max 1 (ceilAddSqrt (-(a0 / j)) q), 0, max 1 (ceilSqrt q))

/-- Direction and durations of the ramp from (v0, a0) to v1 with no acceleration; `up` and `dn` limit positive and negative
acceleration. -/
def rampOf (v0 a0 v1 up dn j : Rat) : Bool × Durs :=
  let dv := v1 - v0
  let dv0 := if j = 0 then 0 else a0 * rabs a0 / (2 * j)
  if dv0 ≤ dv then (true, rampDurs dv a0 up j) else (false, rampDurs (-dv) (-a0) dn j)

/-- The pieces of a ramp of given durations. -/
def rampPieces (d : Durs) (dv a0 : Rat) : List Piece :=
  let a := peakOf d dv a0
  [(d.1, a0, a), (d.2.1, a, a), (d.2.2, a, 0)].filter fun p => p.1 ≠ 0

/-- A ramp from (v0, a0) to v1. -/
def ramp (v0 a0 v1 up dn j : Rat) : List Piece :=
  let (_, d) := rampOf v0 a0 v1 up dn j
  rampPieces d (v1 - v0) a0

/-- Distance and velocity after pieces from velocity v. -/
def travel (v : Rat) : List Piece → Rat × Rat
  | [] => (0, v)
  | (n, a0, a1) :: l =>
    let t : Rat := (n : Rat)
    let d := v * t + a0 * t * t / 2 + (a1 - a0) * t * t / 6
    let (d2, v2) := travel (v + (a0 + a1) / 2 * t) l
    (d + d2, v2)

/-- A ramp that keeps the direction rule: acceleration that lets |v| rise is limited by `acc`, that lets it fall by `dec`. -/
def velRamp (v0 a0 v1 acc dec j : Rat) : List Piece :=
  if 0 < v0 ∨ (v0 = 0 ∧ 0 ≤ v1) then ramp v0 a0 v1 acc dec j else ramp v0 a0 v1 dec acc j

/-- A stop (R467): deceleration limit and jerk, 0 for none. -/
def stopPieces (v0 a0 dec j : Rat) : List Piece := ramp v0 a0 0 dec dec j

/-- A change to velocity v1; a reversal stops under DEC first (R456, R457). -/
def velPieces (v0 a0 v1 acc dec j : Rat) : List Piece :=
  if (0 < v0 ∧ v1 < 0) ∨ (v0 < 0 ∧ 0 < v1) then stopPieces v0 a0 dec j ++ velRamp 0 0 v1 acc dec j
  else velRamp v0 a0 v1 acc dec j

/-! ## Moves to a target -/

/-- Distance of a move with peak velocity vp from (v0, a0) to rest, all in the direction of positive v. -/
def moveDist (v0 a0 vp acc dec j : Rat) : Rat :=
  (travel v0 (velRamp v0 a0 vp acc dec j)).1 + (travel vp (ramp vp 0 0 dec dec j)).1

/-- The largest peak on the 2^-16 grid whose move is no longer than d, by bisection. -/
def findPeak (v0 a0 acc dec j d : Rat) : Nat → Nat → Nat
  | 0, r => r
  | f + 1, r =>
    let k := r + 2 ^ f
    findPeak v0 a0 acc dec j d f (if moveDist v0 a0 (rv k) acc dec j ≤ d then k else r)

/-- The pieces of a move with the durations of both ramps and of the cruise given, and its peak velocity. -/
def movePieces (d1 : Durs) (cruise : Nat) (d2 : Durs) (v0 a0 vp : Rat) : List Piece :=
  rampPieces d1 (vp - v0) a0 ++ (if cruise = 0 then [] else [(cruise, 0, 0)]) ++ rampPieces d2 (-vp) 0

/-- Durations with at least one step on either side, so that a peak can be solved. -/
def someDurs (d : Durs) : Durs := if d.1 + d.2.1 + d.2.2 = 0 then (1, 0, 1) else d

/-- A move over distance d > 0 in the direction of positive v, without passing the target (R453, R447). -/
def directMove (v0 a0 d vmax acc dec j : Rat) : List Piece :=
  let top := (vmax * (65536 * 10 ^ 6)).floor.toNat
  let k := findPeak v0 a0 acc dec j d (Nat.log2 top + 1) 0
  let vp := if top < k then rv top else rv k
  let up := if 0 < v0 ∨ v0 = 0 then rampOf v0 a0 vp acc dec j else rampOf v0 a0 vp dec acc j
  let d1 := someDurs up.2
  let d2 := someDurs (rampOf vp 0 0 dec dec j).2
  let left := d - moveDist v0 a0 vp acc dec j
  let cruise := if 0 < left ∧ 0 < vp then ceilN (left / vp) else 0
  let f0 := (travel v0 (movePieces d1 cruise d2 v0 a0 0)).1
  let f1 := (travel v0 (movePieces d1 cruise d2 v0 a0 1)).1
  let peak := if f1 = f0 then vp else (d - f0) / (f1 - f0)
  movePieces d1 cruise d2 v0 a0 peak

/-- Pieces mirrored for motion in the negative direction. -/
def mirrored (neg : Bool) (l : List Piece) : List Piece := if neg then l.map fun p => (p.1, -p.2.1, -p.2.2) else l

/-- Whether a target at signed distance d is reached without passing it (R463). -/
def reaches (v0 a0 d dec j : Rat) : Bool :=
  if v0 = 0 ∧ a0 = 0 then true
  else
    let sd := (travel v0 (stopPieces v0 a0 dec j)).1
    if 0 < v0 then decide (sd ≤ d) else if v0 < 0 then decide (d ≤ sd) else (decide (0 ≤ d) == decide (0 ≤ a0)) && decide (rabs sd ≤ rabs d)

/-- The plan from (v0, a0) to a target at signed distance d, at rest: directly, or by a stop and a way back (R453, R463). The
velocity limit may differ by direction. -/
def posPieces (v0 a0 d vmaxP vmaxN acc dec j : Rat) : List Piece :=
  if d = 0 ∧ v0 = 0 ∧ a0 = 0 then []
  else if reaches v0 a0 d dec j then
    let neg := decide (d < 0)
    if neg then mirrored true (directMove (-v0) (-a0) (-d) vmaxN acc dec j) else directMove v0 a0 d vmaxP acc dec j
  else
    let s := stopPieces v0 a0 dec j
    let d2 := d - (travel v0 s).1
    if d2 = 0 then s
    else if d2 < 0 then s ++ mirrored true (directMove 0 0 (-d2) vmaxN acc dec j)
    else s ++ directMove 0 0 d2 vmaxP acc dec j

/-! ## Plans -/

/-- The segments of pieces from a position and velocity. -/
def segsOf (p v : Rat) : List Piece → List Seg
  | [] => []
  | (n, a0, a1) :: l =>
    let t : Rat := (n : Rat)
    { steps := n, p := p, v := v, a0 := a0, a1 := a1 } ::
      segsOf (p + v * t + a0 * t * t / 2 + (a1 - a0) * t * t / 6) (v + (a0 + a1) / 2 * t) l

/-- Steps of a cruise without end. -/
def endless : Nat := 2 ^ 62

/-- Position, velocity, acceleration and jerk after k steps of a segment. -/
def Seg.at_ (s : Seg) (k : Rat) : Rat × Rat × Rat × Rat :=
  let n : Rat := (s.steps : Rat)
  let j := if s.steps = 0 then 0 else (s.a1 - s.a0) / n
  (s.p + s.v * k + s.a0 * k * k / 2 + j * k * k * k / 6, s.v + s.a0 * k + j * k * k / 2, s.a0 + j * k, j)

/-- The state of a plan `k` steps on, and what is left of it with the steps done in its first segment. -/
def runPlan : List Seg → Rat → Option (Rat × Rat × Rat × Rat)
  | [], _ => none
  | [s], k => if k ≤ s.steps then some (s.at_ k) else
      let (p, v, _, _) := s.at_ (s.steps : Rat)
      some (p + v * (k - s.steps), v, 0, 0)
  | s :: l, k => if k < s.steps then some (s.at_ k) else runPlan l (k - s.steps)

end Sys2Proof.Machine
end

