-- ==== Sys2Proof/Machine/Motion.lean ====
section
/-!
DEFINITION. Machine/Motion.lean: the profile generators (10_motion_profiles) and what an axis has beside them
(11_axis_io_limits_stall): actual position, step and direction outputs, current and stall, limit switches, homing.
-/
namespace Sys2Proof.Machine

/-! ## Registers of an axis -/

def axPath (a ch : Nat) : Nat := path 0xA a ch
def Core.ax64 (c : Core) (key a : Nat) : Nat := c.reg64 (axA key a)
def Core.axS64 (c : Core) (key a : Nat) : Int := c.sreg64 (axA key a)
def Core.axFld (c : Core) (key a hi lo : Nat) : Nat := c.fld (axA key a) hi lo
def Core.axVmax (c : Core) (a : Nat) : Rat := rv (c.ax64 A.AX_VMAX a)
def Core.axAccR (c : Core) (a : Nat) : Rat := ra (c.ax64 A.AX_ACC_LIM a)
/-- DEC in force: the value before a deferred change (R465). -/
def Core.axDecR (c : Core) (a : Nat) : Rat := ra ((c.axis a).decNow.getD (c.ax64 A.AX_DEC a))
def Core.axJerkR (c : Core) (a : Nat) : Rat := rj (c.ax64 A.AX_JERK a)
def Core.axStopR (c : Core) (a : Nat) : Rat := ra (c.ax64 A.AX_STOP_DEC a)

/-- Axes of the running image whose generators run (R470). -/
def Core.axesOn (c : Core) : List Nat := if c.md.mode = .standby ∨ c.running then c.image.axes else []

/-- Drive point i of an axis: 0 SP, 1 ACT, 2 LOAD, 3 I, 4 LIMP, 5 LIMN, 6 HOME, 7 LATCH (R525). -/
def Core.drvTag (c : Core) (a i : Nat) : Option Tag :=
  let w := c.reg (axA A.AX_DRV_SP_TAG a + 4 * i)
  if bit w 31 then none else some (bits w 24 0)

def Core.axSource (c : Core) (a : Nat) : Nat := c.axFld A.AX_IO_CFG a 31 30
def Core.axIo (c : Core) (a n : Nat) : Bool := c.flag (axA A.AX_IO_CFG a) n
def Core.axEnc (c : Core) (a : Nat) : Bool := c.axSource a == 1 && c.axIo a 20
def Core.axDrive (c : Core) (a : Nat) : Bool := c.axSource a == 2

/-! ## Local output pins (R490, R495) -/

/-- Axes whose local pins are driven: those of local axes in Standby, Run and Service, but for the standby member of a pair (R490). -/
def Core.pinsDriven (c : Core) : List Nat :=
  if (c.md.mode = .standby ∨ c.running) ∧ !c.md.held ∧ !(c.image.pair.en ∧ c.mr.role = .standby) then
    c.image.axes.filter fun a => c.axSource a == 1 else []

/-- PINSET of an axis (R488). -/
def Core.pinSet (c : Core) (a : Nat) : Nat := c.axFld A.AX_IO_CFG a 28 24

/-- STEP, DIR, EN and IREF of axes take their inactive levels. -/
def Core.pinsOff (l : List Nat) (c : Core) : Core :=
  forL l (fun a d =>
    let k := d.pinSet a
    { d with out := d.out ++ [.axPin 1 k (d.axIo a 15) d.now, .axPin 2 k (d.axIo a 14) d.now, .axPin 3 k (d.axIo a 13) d.now, .iref k 0] }) c

/-- DIR takes the level of its direction, EN its active level, and IREF its PWM signal. -/
def Core.pinsOn (l : List Nat) (c : Core) : Core :=
  forL l (fun a d =>
    let k := d.pinSet a
    { d with out := d.out ++ [.axPin 2 k ((d.axis a).dirPos != d.axIo a 14) d.now, .axPin 3 k (!d.axIo a 13) d.now,
      .iref k (if d.axIo a 12 then (d.axis a).iref else 0)] }) c

/-- The local pins follow the mode, the role and the image. -/
def Core.drivePins (c : Core) : Core :=
  let l := c.pinsDriven
  if c.mr.pinsLive = l then c else
  ((c.pinsOff (c.mr.pinsLive.filter fun a => !l.contains a)).pinsOn (l.filter fun a => !c.mr.pinsLive.contains a)).onMr fun m =>
    { m with pinsLive := l }

/-- Active time of IREF for a coil current (R495). -/
def irefTime (i : Nat) : Nat := min 1000 ((i * 1000 + 16384) / 32768)

/-- The IREF period that begins at a generator step takes the current of the sample before it (R495). -/
def Core.axIref (a : Nat) (c : Core) : Core :=
  let n := irefTime (c.axis a).current
  if !c.axIo a 12 ∨ n = (c.axis a).iref then c
  else
    let c1 := c.onAxis a fun x => { x with iref := n }
    if c.pinsDriven.contains a then c1.emit (.iref (c.pinSet a) n) else c1

/-- The axis has an actual position of its own (R498). -/
def Core.hasActual (c : Core) (a : Nat) : Bool := c.axEnc a || (c.axDrive a && (c.drvTag a 1).isSome)

/-! ## Positions (R446) -/

def Core.axModulo (c : Core) (a : Nat) : Bool := c.flag (axA A.AX_CFG a) 0
/-- M in 2^-32 counts. -/
def Core.axM (c : Core) (a : Nat) : Int := (c.ax64 A.AX_MODULUS a : Int) * 2 ^ 32

/-- A position in its range: [0, M), or two's complement at ±2^63 counts. -/
def Core.wrapPos (c : Core) (a : Nat) (p : Int) : Int :=
  if c.axModulo a then p % c.axM a else sx 96 (p % 2 ^ 96).toNat

/-- x − y, into (−M/2, M/2] on a modulo axis. -/
def Core.diffPos (c : Core) (a : Nat) (x y : Int) : Int :=
  if c.axModulo a then
    let d := (x - y) % c.axM a
    if c.axM a < 2 * d then d - c.axM a else d
  else x - y

/-! ## States -/

/-- An entry, a target or a command is refused or ignored (R450). -/
def Core.axRefuse (a : Nat) (c : Core) : Core :=
  (c.onAxis a fun x => { x with refused := sat32 (x.refused + 1) }).raiseEvery second 0x0A41 (axPath a 0)

/-- A flying restart is complete once no axis is PENDING (R149). -/
def Core.flyDone (c : Core) : Core :=
  if !c.md.flying ∨ (c.md.fly.any fun e => e.2 == .pending) then c
  else (c.onMd fun m => { m with flying := false }).raise (if c.md.fly.any fun e => e.2 == .failed then 0x0042 else 0x0003) 0

/-- A PENDING axis of a flying restart counts as FAILED (R150). -/
def Core.flyFail (a : Nat) (c : Core) : Core :=
  if SMap.get .none c.md.fly a = .pending then (c.onMd fun m => { m with fly := SMap.set .none m.fly a .failed }).flyDone else c

/-- A deferred DEC applies at standstill (R465). -/
def Core.applyDec (a : Nat) (c : Core) : Core :=
  if (c.axis a).decDeferred then (c.onAxis a fun x => { x with decNow := none, decDeferred := false }).raise 0x0A02 (axPath a 0) else c

/-- The axis stands in a state. -/
def Core.still (a : Nat) (st : AxState) (c : Core) : Core :=
  let c1 := c.onAxis a fun x => { x with
    st := st, vel := 0, acc := 0, jerk := 0, plan := [], planStep := 0, excess := [], excessStep := 0, excessVel := 0,
    stopRank := 0, replan := false, jogDir := 0,
    stillFrom := if x.st = .standstill ∨ x.st = .qstopped then x.stillFrom else some c.now }
  let c2 := if (c.axis a).swStop then (c1.onAxis a fun x => { x with swStop := false, swLimit := true }).raise 0x0A04 (axPath a 0)
    else c1
  c2.applyDec a

/-- A new plan from the present command state. -/
def Core.setPlan (a : Nat) (l : List Piece) (c : Core) : Core :=
  c.onAxis a fun x => { x with plan := segsOf (rp x.pos) (rv x.vel) l, planStep := 0 }

/-- Homing ends with a result (R522, R523). -/
def Core.homeEnd (a res : Nat) (c : Core) : Core :=
  (c.onAxis a fun x => { x with homeSt := .idle, homeResult := res }).raise (if res = 1 then 0x0A15 else 0x0A43) (axPath a 2)

/-- A stop function of a rank (R467) takes over from the present command state, unless a higher one runs. `res` is the RESULT
of a homing that it ends. Every stop leaves the mode and discards the target. -/
def Core.axStop (a rank : Nat) (dec j : Rat) (res : Nat) (c : Core) : Core :=
  let x := c.axis a
  if x.st = .disabled ∨ x.st = .qstopped ∨ (x.stopRank ≠ 0 ∧ x.stopRank ≤ rank) then c else
  let c0 := (if x.st = .homing then c.homeEnd a res else c).flyFail a
  let c1 := c0.onAxis a fun y => { y with
    mode := .none, hasTgt := false, sPrev := none, sCur := none, sPrev2 := none, sNext := none,
    excess := [], replan := false, swStop := false, followExtrap := false, missing := 0, jogDir := 0 }
  let st : AxState := if rank = 1 then .qstopped else .standstill
  if x.vel = 0 ∧ x.acc = 0 then c1.still a st
  else (c1.setPlan a (stopPieces (rv x.vel) (ra x.acc) dec j)).onAxis a fun y => { y with
    st := if rank = 1 then .qstopping else .stopping, stopRank := rank, stillFrom := none }

/-- QSTOP (rank 1). -/
def Core.qstop (a : Nat) (c : Core) : Core :=
  c.axStop a 1 (ra (c.ax64 A.AX_QSTOP_DEC a)) (rj (c.ax64 A.AX_QSTOP_JERK a)) 5
/-- STOP (rank 3). -/
def Core.stop3 (a res : Nat) (c : Core) : Core := c.axStop a 3 (c.axStopR a) (c.axJerkR a) res

/-! ## Limits in the way (R462, R513) -/

def Core.limActP (c : Core) (a : Nat) : Bool := (c.axis a).limp.acting || (c.axis a).limSrcStale
def Core.limActN (c : Core) (a : Nat) : Bool := (c.axis a).limn.acting || (c.axis a).limSrcStale

/-- Whether motion in a direction (its sign) is refused. -/
def Core.blocked (c : Core) (a : Nat) (d : Int) : Bool :=
  let x := c.axis a
  (decide (0 < d) && c.limActP a) || (decide (d < 0) && c.limActN a) ||
  (x.swLimit && c.axFld A.AX_CFG a 4 4 == 1 && !c.axModulo a && x.vel == 0 &&
    ((decide (0 < d) && x.swHigh) || (decide (d < 0) && !x.swHigh)))

/-- Travel of a POSITION target (R454). -/
def Core.distTo (c : Core) (a : Nat) (tgt : Int) : Int :=
  let x := c.axis a
  if c.axModulo a then
    match c.axFld A.AX_CFG a 3 2 with
    | 1 => (tgt - x.pos) % c.axM a
    | 2 => -((x.pos - tgt) % c.axM a)
    | _ => c.diffPos a tgt x.pos
  else tgt - x.pos

/-- The plan to a POSITION target under a DEC. -/
def Core.planPos (c : Core) (a : Nat) (d : Int) (dec : Rat) : List Piece :=
  let x := c.axis a
  posPieces (rv x.vel) (ra x.acc) (rp d) (c.axVmax a) (c.axVmax a) (c.axAccR a) dec (c.axJerkR a)

/-- A velocity target within VMAX (R456). -/
def Core.clampV (c : Core) (a : Nat) (v : Int) : Int := clampI (-(c.ax64 A.AX_VMAX a)) (c.ax64 A.AX_VMAX a) v

/-- Plans a velocity, cruising on at it. -/
def Core.planVel (a : Nat) (v : Int) (c : Core) : Core :=
  let x := c.axis a
  let l := velPieces (rv x.vel) (ra x.acc) (rv v) (c.axAccR a) (c.axDecR a) (c.axJerkR a)
  c.setPlan a (if v = 0 then l else l ++ [(endless, 0, 0)])

/-- The software limits bound a POSITION target (R462). -/
def Core.swBound (c : Core) (a : Nat) (tgt : Int) : Int × Option Bool :=
  if c.axFld A.AX_CFG a 4 4 = 1 ∧ !c.axModulo a then
    let lo := c.axS64 A.AX_SW_MIN a * 2 ^ 32
    let hi := c.axS64 A.AX_SW_MAX a * 2 ^ 32
    if hi < tgt then (hi, some true) else if tgt < lo then (lo, some false) else (tgt, none)
  else (tgt, none)

/-! ## What arrives (R451) -/

/-- Puts an input before the next step. -/
def Core.axInput (a : Nat) (i : AxInput) (c : Core) : Core := c.onAxis a fun x => { x with inbox := x.inbox ++ [i] }

/-- A COMMAND (R467 to R469). -/
def Core.axCommand (a op : Nat) (host : Bool) (c : Core) : Core :=
  let x := c.axis a
  match op with
  | 1 => c.stop3 a 5
  | 2 => c.qstop a
  | 3 =>
    if x.aborted ∧ !host then c.axRefuse a
    else if x.st = .qstopped then
      (c.onAxis a fun y => { y with aborted := false, trackFault := false, stalled := false, holding := y.holding && !y.stalled, spFrozen := none, stallFrom := none }).still
        a .standstill
    else if x.aborted then c.onAxis a fun y => { y with aborted := false, resumeReq := true }
    else c.axRefuse a
  | _ => c.axRefuse a

/-- The present profile is planned again after a limit change (R464). -/
def Core.axReplan (a : Nat) (c : Core) : Core :=
  let x := c.axis a
  match x.st, x.mode with
  | .moving, .position => c.setPlan a (c.planPos a (c.distTo a x.tgt) (c.axDecR a))
  | .moving, .velocity => (c.planVel a (c.clampV a x.tgtVel)).onAxis a fun y => { y with tgtClamped := decide (c.clampV a x.tgtVel ≠ x.tgtVel) }
  | .jogging, _ => c.planVel a (c.clampV a (if x.jogDir = 1 then x.jogVel else if x.jogDir = 2 then -x.jogVel else 0))
  | _, _ => c

/-- The register's DEC is in force; a deferred one applies with its event (R465). -/
def Core.decInForce (a : Nat) (c : Core) : Core := (c.applyDec a).onAxis a fun y => { y with decNow := none }

/-- A limit change (R464, R465); the register holds the new value already. -/
def Core.axLimit (a sel v : Nat) (c : Core) : Core :=
  let x := c.axis a
  if v = 0 ∨ 3 < sel then c.axRefuse a
  else if sel = 2 then
    if x.st = .moving ∧ x.mode = .position then
      if reaches (rv x.vel) (ra x.acc) (rp (c.distTo a x.tgt)) (ra (c.ax64 A.AX_DEC a)) (c.axJerkR a) then
        (c.decInForce a).axReplan a
      else (c.onAxis a fun y => { y with decDeferred := true }).raise 0x0A01 (axPath a 0)
    else (c.decInForce a).axReplan a
  else if sel = 3 then
    if x.st = .stopping ∧ x.stopRank = 3 ∧ !x.swStop then c.setPlan a (stopPieces (rv x.vel) (ra x.acc) (c.axStopR a) (c.axJerkR a)) else c
  else c.axReplan a

/-- A target (R453 to R459, R468, R500, R513). -/
def Core.axTarget (a kind : Nat) (v : Int) (c : Core) : Core :=
  let x := c.axis a
  let refusing := x.st = .disabled ∨ x.st = .stopping ∨ x.st = .qstopping ∨ x.st = .qstopped ∨ x.st = .jogging ∨
    x.st = .homing ∨ x.st = .brakeTest ∨ !c.running
  if refusing then c.axRefuse a
  else if kind = 0 then
    if !x.posValid ∨ (c.axModulo a ∧ (v < 0 ∨ c.axM a ≤ v)) then c.axRefuse a else
    let (tgt, clamp) := c.swBound a v
    let d := c.distTo a tgt
    if c.blocked a d then c.axRefuse a else
    let newDec := ra (c.ax64 A.AX_DEC a)
    let c0 := if x.decDeferred ∧ reaches (rv x.vel) (ra x.acc) (rp d) newDec (c.axJerkR a) then c.applyDec a else c
    let c1 := c0.onAxis a fun y => { y with
      mode := .position, tgt := tgt, hasTgt := true, tgtClamped := clamp.isSome, sPrev := none, sCur := none, sPrev2 := none,
      sNext := none, excess := [], replan := false }
    let c2 := match clamp with
      | some hi => (c1.onAxis a fun y => { y with swLimit := true, swHigh := hi }).raise 0x0A04 (axPath a 0)
      | none => if d ≠ 0 then c1.onAxis a fun y => { y with swLimit := false } else c1
    if d = 0 ∧ x.vel = 0 ∧ x.acc = 0 then (c2.still a .standstill).onAxis a fun y => { y with atTarget := true }
    else (c2.setPlan a (c2.planPos a d (c2.axDecR a))).onAxis a fun y => { y with st := .moving, stillFrom := none }
  else if kind = 1 then
    if c.blocked a v then c.axRefuse a else
    let w := c.clampV a v
    let c1 := c.onAxis a fun y => { y with
      mode := .velocity, tgtVel := v, hasTgt := true, tgtClamped := decide (w ≠ v), sPrev := none, sCur := none, sPrev2 := none,
      sNext := none, excess := [], replan := false, swLimit := if v ≠ 0 then false else y.swLimit }
    if w = 0 ∧ x.vel = 0 ∧ x.acc = 0 then c1.still a .standstill
    else (c1.planVel a w).onAxis a fun y => { y with st := .moving, stillFrom := none }
  else
    if !x.posValid then c.axRefuse a else
    let s := c.wrapPos a v
    if x.mode ≠ .follow ∧ c.blocked a (c.diffPos a s x.pos) then c.axRefuse a else
    c.onAxis a fun y =>
      if y.mode = .follow then
        { y with sNext := some s, hasTgt := true, tgtClamped := false,
                 st := if y.sCur.isSome ∧ y.st ≠ .following then .syncing else y.st
                 replan := if y.sCur.isSome ∧ y.st ≠ .following ∧ y.st ≠ .syncing then false else y.replan
                 stillFrom := if y.sCur.isSome then none else y.stillFrom }
      else { y with mode := .follow, hasTgt := true, tgtClamped := false, sPrev := none, sCur := none, sPrev2 := none, sNext := some s,
                    excess := [], replan := false, missing := 0, swLimit := y.swLimit && c.diffPos a s y.pos == 0 }

/-- A jog (R471): 0 ends it. -/
def Core.axJog (a dir : Nat) (c : Core) : Core :=
  let x := c.axis a
  if dir = 0 then
    if x.st = .jogging then (c.onAxis a fun y => { y with jogDir := 0 }).planVel a 0 else c
  else if x.st ≠ .standstill ∧ x.st ≠ .jogging then c
  else
    let jv := if x.st = .jogging then x.jogVel else c.ax64 A.AX_JOG_VEL a
    let v : Int := if dir = 1 then jv else -jv
    if c.blocked a v then c.axRefuse a
    else ((c.onAxis a fun y => { y with
      st := .jogging, jogDir := dir, jogVel := jv, mode := .none, hasTgt := false, stillFrom := none, swLimit := false }).planVel a
        (c.clampV a v))

/-- Applies what arrived before a step, in the order of R451. -/
def Core.axArrivals (a : Nat) (c : Core) : Core :=
  let l := (c.axis a).inbox
  let c0 := c.onAxis a fun x => { x with inbox := [] }
  let c1 := forL l (fun i d => match i with | .command op h => d.axCommand a op h | _ => d) c0
  let c2 := forL l (fun i d => match i with | .limit s v => d.axLimit a s v | _ => d) c1
  let c3 := forL l (fun i d => match i with | .jog dir => d.axJog a dir | _ => d) c2
  match (l.filterMap fun i => match i with | .target k v => some (k, v) | _ => none).getLast? with
  | some (k, v) => c3.axTarget a k v
  | none => c3

/-! ## The reference of FOLLOW (R458, R460, R461) -/

/-- Position, velocity and acceleration of the reference at an instant, in counts and steps. -/
def Core.refAt (c : Core) (a : Nat) (t : Time) : Option (Rat × Rat × Rat) :=
  let x := c.axis a
  match x.sPrev, x.sCur with
  | some s0, some s1 =>
    let len := c.baseLen
    let steps : Rat := mkRat len us
    let u : Rat := mkRat ((t : Int) - c.prog.cycleStart) len
    let d := rp (c.diffPos a s1 s0)
    if c.axFld A.AX_CFG a 5 5 = 1 then
      let d0 := match x.sPrev2 with | some s => rp (c.diffPos a s0 s) | none => d
      some (rp s0 - d0 * (1 - u) * (1 - u) / 2 + d * u * u / 2, (d * u + d0 * (1 - u)) / steps, (d - d0) / (steps * steps))
    else some (rp s0 + d * u, d / steps, 0)
  | _, _ => none

/-- Plans the catch-up in the frame of the reference (R459). -/
def Core.planExcess (a : Nat) (t : Time) (c : Core) : Core :=
  match c.refAt a t with
  | none => c
  | some (p, v, _) =>
    let x := c.axis a
    let x0 := rp (c.diffPos a x.pos (toPos p))
    let dv := rv x.vel - v
    let sv := rv (c.ax64 A.AX_SYNC_VEL a)
    let vm := c.axVmax a
    let acc := ra (c.ax64 A.AX_SYNC_ACC a)
    let lim (w : Rat) : Rat := if w < sv then (if w < 0 then 0 else w) else sv
    let l := posPieces dv (ra x.acc) (-x0) (lim (vm - v)) (lim (vm + v)) acc acc (c.axJerkR a)
    c.onAxis a fun y => { y with excess := segsOf x0 dv l, excessStep := 0, replan := false, plan := [], planStep := 0 }

/-- The base-cycle start of an axis in FOLLOW: samples move on, missing ones are extrapolated, the catch-up is planned anew. -/
def Core.axCycle (a : Nat) (c : Core) : Core :=
  let x := c.axis a
  if x.mode ≠ .follow then c.onAxis a fun y => { y with sNext := none, followLimited := false } else
  let moving := x.st = .following ∨ x.st = .syncing
  let v0 : Int := match x.sPrev, x.sCur with | some s0, some s1 => c.diffPos a s1 s0 | _, _ => 0
  let hold := c.axFld A.AX_FOLLOW_CTL a 7 0
  if moving ∧ x.sNext.isNone ∧ hold < x.missing + 1 then (c.stop3 a 5).raise 0x0A42 (axPath a 0) else
  let miss := moving ∧ x.sNext.isNone
  let next : Option Int := match x.sNext with
    | some s => some s
    | none => if moving then x.sCur.map fun s => c.wrapPos a (s + v0) else none
  let c1 := match next with
    | some s => c.onAxis a fun y => { y with
        sPrev2 := y.sPrev, sPrev := y.sCur, sCur := some s, sNext := none,
        followExtrap := decide miss, missing := if miss then y.missing + 1 else 0 }
    | none => c
  let c2 := if miss ∧ x.missing = 0 then c1.raise 0x0A05 (axPath a 0) else c1
  let v1 : Int := match (c2.axis a).sPrev, (c2.axis a).sCur with | some s0, some s1 => c2.diffPos a s1 s0 | _, _ => 0
  let steps : Rat := mkRat c.baseLen us
  let vel := rp v1 / steps
  let dvel := rabs (rp v1 - rp v0) / steps
  let big := if c.axAccR a < c.axDecR a then c.axDecR a else c.axAccR a
  let before : Bool := x.sPrev.isSome && x.sCur.isSome
  let lim : Bool := decide (moving ∧ (c.axVmax a < rabs vel ∨ (before ∧ big * steps < dvel)))
  let c3 := c2.onAxis a fun y => { y with
    followLimited := lim, refVel := toVel vel,
    replan := y.st = .syncing }
  if lim then c3.raiseEvery second 0x0A06 (axPath a 0) else c3

/-! ## Actual position (R498, R499) -/

/-- Actual position at an instant in 2^-32 counts, with its velocity in 48.16 and whether its source is stale. -/
def Core.actualAt (c : Core) (a : Nat) (t : Time) : Int × Int × Bool :=
  let x := c.axis a
  if c.axEnc a then
    let p := c.wrapPos a (x.encBase + x.enc * c.sreg (axA A.AX_ENC_SCALE a) * 65536)
    (p, c.diffPos a p x.actual * 10 ^ 6 / 65536, false)
  else if c.hasActual a then
    match c.drvTag a 1 with
    | none => (x.pos, x.vel, false)
    | some tag =>
      let m := tagIndex tag / 1024
      let two := 2 * c.portLen (modPort m)
      match x.rep with
      | [] => (x.pos, x.vel, true)
      | [(v, s)] => (c.wrapPos a (x.actBase + v * 2 ^ 32), 0, !c.inOperation m || decide (s + two < t))
      | (v1, s1) :: (v0, s0) :: _ =>
        let dv := c.diffPos a (v1 * 2 ^ 32) (v0 * 2 ^ 32)
        let dt := min (t - s1) two
        (c.wrapPos a (x.actBase + v1 * 2 ^ 32 + dv * dt / ((s1 : Int) - s0)),
          dv * (second : Nat) / 65536 / ((s1 : Int) - s0), !c.inOperation m || decide (s1 + two < t))
  else (x.pos, x.vel, false)

/-- Takes the actual position at a step, and completes the switch edges since the step before with it (R514, R521). -/
def Core.axActual (a : Nat) (t : Time) (c : Core) : Core :=
  let x := c.axis a
  let (p, v, stale) := c.actualAt a t
  let prev := x.actual
  let put (st : Time) : Int :=
    c.wrapPos a (prev + c.diffPos a p prev * ((st : Int) - ((t : Int) - us)) / us)
  let upd (s : Switch) (act : Bool) (st : Time) : Switch :=
    if act then { s with firstActive := some (s.firstActive.getD (st, put st)), lastActive := some (st, put st) }
    else { s with lastInactive := some (st, put st) }
  let c1 := c.onAxis a fun y =>
    let y1 := { y with actual := p, actVel := v, edges := [] }
    y.edges.foldl (fun z (sw, act, st) =>
      match sw with
      | 0 => { z with limp := upd z.limp act st }
      | 1 => { z with limn := upd z.limn act st }
      | 2 => { z with home := upd z.home act st }
      | _ => { z with encz := upd z.encz act st, encZ := if act then put st else z.encZ }) y1
  if stale ∧ !x.actStale then (c1.onAxis a fun y => { y with actStale := true }).raise 0x0A45 (axPath a 1)
  else c1.onAxis a fun y => { y with actStale := stale }

/-! ## Step and direction (R491 to R494) -/

/-- Due instants of the steps of one generator step: the integers that the interpolated command crosses, in order. -/
def dueSteps (p0 p1 : Int) (t0 : Time) : List (Bool × Time) :=
  let k0 := p0 / 2 ^ 32
  let k1 := p1 / 2 ^ 32
  let n := (k1 - k0).natAbs
  (List.range n).map fun (i : Nat) =>
    let up := decide (k0 < k1)
    let edge : Int := if up then (k0 + 1 + (i : Int)) * 2 ^ 32 else (k0 - (i : Int)) * 2 ^ 32
    let f : Int := if p1 = p0 then 0 else roundR (mkRat ((edge - p0).natAbs * 1000 : Nat) (p1 - p0).natAbs)
    (up, t0 + ns f.toNat)

/-- DIR takes the level of a direction at an instant (R492). -/
def Core.turnDir (a : Nat) (dir : Bool) (t : Time) (c : Core) : Core :=
  (c.onAxis a fun y => { y with dirPos := dir, dirSince := t, dirCross := none }).emit (.axPin 2 (c.pinSet a) (dir != c.axIo a 14) t)

/-- Emits waiting steps up to an instant, each with both edges of its pulse, under the timing rules of R491 and R492. -/
def Core.emitSteps (a : Nat) (upTo : Time) : Nat → Core → Core
  | 0, c => c
  | f + 1, c =>
    let x := c.axis a
    let w := ns (c.axFld A.AX_STEP_TIMING a 31 16)
    let per := max (w + ns 50) (ns 250)
    match x.stepQ with
    | [] => c
    | (dir, due) :: q =>
      let turn := dir ≠ x.dirPos
      let at_ := max (x.dirCross.getD due) (match x.lastStep with | some l => l + w | none => 0)
      let since := if turn then at_ else x.dirSince
      let e := max (max due (match x.lastStep with | some l => l + per | none => 0)) (since + ns (c.axFld A.AX_STEP_TIMING a 15 0))
      if upTo < e then
        if turn ∧ at_ ≤ upTo then
          c.turnDir a dir at_
        else c
      else
        let c1 := if turn then c.turnDir a dir at_ else c
        let k := c.pinSet a
        Core.emitSteps a upTo f (((c1.onAxis a fun y => { y with
          stepQ := q, lastStep := some e, stepPos := sx 64 ((y.stepPos + (if dir then 1 else -1)) % 2 ^ 64).toNat }).emit
            (.axPin 1 k (!c.axIo a 15) e)).emit (.axPin 1 k (c.axIo a 15) (e + w)))

/-- The step outputs over one generator step from the command at its start; a lag beyond its limit quick-stops (R493). -/
def Core.axSteps (a : Nat) (p0 v0 : Int) (t : Time) (c : Core) : Core :=
  if c.axSource a ≠ 1 ∨ (c.image.pair.en ∧ c.mr.role = .standby) then c else
  let x := c.axis a
  let t0 := t - us
  let p1 := p0 + (if c.axModulo a then c.diffPos a x.pos p0 else sx 96 ((x.pos - p0) % 2 ^ 96).toNat)
  let v1 := x.vel
  let dir := if v1 ≠ 0 then some (decide (0 < v1)) else if p1 ≠ p0 then some (decide (p0 < p1)) else none
  let cross : Option Time := match dir with
    | some d => if d ≠ x.dirPos ∧ x.dirCross.isNone then
        some (if (v0 < 0 ∧ 0 < v1) ∨ (0 < v0 ∧ v1 < 0) then
          t0 + ns (roundR (mkRat (1000 * v0.natAbs : Nat) (v0.natAbs + v1.natAbs))).toNat else t0)
      else x.dirCross
    | none => x.dirCross
  let c1 := (c.onAxis a fun y => { y with stepQ := y.stepQ ++ dueSteps p0 p1 t0, dirCross := cross }).emitSteps a t 24
  let y := c1.axis a
  let c2 := match dir, y.dirCross with
    | some d, some tc => if y.stepQ = [] ∧ d ≠ y.dirPos ∧ tc ≤ t then
        c1.turnDir a d tc else c1
    | _, _ => c1
  let lag := (c2.axis a).stepQ.length
  let c3 := c2.onAxis a fun z => { z with lagMax := max z.lagMax (min lag 65535) }
  if c.axFld A.AX_STEP_LAG_MAX a 15 0 < lag then
    ((c3.qstop a).onAxis a fun z => { z with stepQ := [], trackFault := true }).raise 0x0A82 (axPath a 1)
  else c3

/-! ## Current and stall (R503 to R509) -/

/-- L (R503). -/
def Core.axL (c : Core) (a : Nat) : Nat :=
  match c.axFld A.AX_LOAD_CFG a 31 30 with
  | 1 => match (c.drvTag a 2).bind c.point with
    | some (m, pt) => min 32767 (c.inNum m pt).natAbs
    | none => 0
  | 2 => min 32767 (((c.axis a).trackErr.natAbs / 2 ^ 32) * c.axFld A.AX_LOAD_CFG a 15 0 / 256)
  | _ => 0

/-- A stall (R508, R509). -/
def Core.axStall (a : Nat) (c : Core) : Core :=
  let x := c.axis a
  let own := c.hasActual a
  let hold := c.axFld A.AX_CURRENT a 15 0
  let frozen : Option Int := ((c.drvTag a 0).bind c.point).map fun (m, pt) => (c.outField m (ptLsb pt) (ptWidth pt) : Int)
  let c0 := (if x.st = .homing then c.homeEnd a 6 else c).flyFail a
  let c1 := c0.onAxis a fun y => { y with
    pos := if own then y.actual else if c.axSource a = 1 then c.wrapPos a (y.pos - c.diffPos a y.pos (y.pos / 2 ^ 32 * 2 ^ 32) - (if y.stepQ = [] then 0 else ((y.stepQ.foldl (fun n s => n + (if s.1 then 1 else -1)) (0 : Int)) * 2 ^ 32))) else y.pos
    stepQ := [], mode := .none, hasTgt := false, current := hold, holding := true, stalled := true, swStop := false,
    spFrozen := if c.axDrive a then frozen else none, sPrev := none, sCur := none, sNext := none,
    stalls := min 255 (y.stalls + 1), posValid := y.posValid && own, stallFrom := none }
  (c1.still a .qstopped).raise 0x0A12 (axPath a 3)

/-- The boosted value of I for a load, before BOOST_MAX (R505). -/
def Core.axBoosted (c : Core) (a l : Nat) : Nat :=
  c.axFld A.AX_CURRENT a 31 16 + (c.axFld A.AX_BOOST a 31 16 * (l - c.axFld A.AX_BOOST a 15 0)) / 4096

/-- The command of a holding axis moves: I leaves HOLD_I for the boosted value (R505). -/
def Core.axUnhold (a : Nat) (moved : Bool) (c : Core) : Core :=
  let x := c.axis a
  if !moved ∨ !x.holding ∨ x.stalled ∨ x.st = .brakeTest then c
  else c.onAxis a fun y => { y with holding := false, current := min (c.axFld A.AX_BOOST_LIM a 15 0) (c.axBoosted a x.load) }

/-- I in BRAKE_TEST: TEST_I from 50 ms on; its course up to there is free (R752). -/
def Core.brakeCurrent (a : Nat) (c : Core) : Core :=
  let x := c.axis a
  let set (i : Nat) (d : Core) : Core := d.onAxis a fun y => { y with current := i, load := c.axL a, stallFrom := none }
  if x.testFrom + 50 * ms ≤ c.now then set x.testI c
  else let (v, c1) := c.freeNat; set (v % (x.testI + 1)) c1

/-- A sample of L at a time (R504 to R508): the current, and the detection of a stall. -/
def Core.axSample (a : Nat) (ts : Time) (c : Core) : Core :=
  let x := c.axis a
  if x.st = .brakeTest then c.brakeCurrent a else
  let l := c.axL a
  let boost := c.axBoosted a l
  let top := c.axFld A.AX_BOOST_LIM a 15 0
  let held : Bool := match x.stillFrom with
    | some f => decide ((x.st = .standstill ∨ x.st = .qstopped) ∧ f + c.axFld A.AX_BOOST_LIM a 31 16 * ms ≤ c.now)
    | none => false
  let hold : Bool := x.stalled || x.holding || held
  let atMax := !hold && decide (top < boost)
  let c1 := c.onAxis a fun y => { y with
    load := l, holding := hold, boostAtMax := atMax,
    current := if hold then c.axFld A.AX_CURRENT a 15 0 else min top boost }
  let c2 := if atMax then c1.raiseEvery second 0x0A17 (axPath a 3) else c1
  let time := c.regN (axA A.AX_STALL_TIME a)
  let active := time ≠ 0 ∧ c.axFld A.AX_LOAD_CFG a 31 30 ≠ 0 ∧ c.ax64 A.AX_STALL_VMIN a ≤ x.vel.natAbs ∧
    (x.st = .moving ∨ x.st = .syncing ∨ x.st = .following ∨ x.st = .stopping ∨ x.st = .jogging ∨ x.st = .homing)
  if active ∧ c.axFld A.AX_STALL a 15 0 ≤ l then
    let from_ := x.stallFrom.getD ts
    if from_ + time * us ≤ ts then c2.axStall a else c2.onAxis a fun y => { y with stallFrom := some from_ }
  else c2.onAxis a fun y => { y with stallFrom := none }

/-! ## Homing (R517 to R523) -/

/-- Whether a method searches in the positive direction. -/
def homeUp (m : Nat) : Bool := m == 1 || m == 3 || m == 5 || m == 7
def Core.homeMethod (c : Core) (a : Nat) : Nat := c.axFld A.AX_HOME_CFG a 3 0
/-- The reference switch of the method: 0 LIMP, 1 LIMN, 2 HOME, 3 ENCZ. -/
def homeSwitch (m : Nat) : Nat := if m ≤ 4 then 2 else if m = 5 then 0 else if m = 6 then 1 else 3
def Axis.sw (x : Axis) (n : Nat) : Switch := if n = 0 then x.limp else if n = 1 then x.limn else if n = 2 then x.home else x.encz

/-- Moves at a velocity within homing. -/
def Core.homeMove (a : Nat) (st : HomeState) (up : Bool) (v : Nat) (c : Core) : Core :=
  (c.planVel a (if up then v else -v)).onAxis a fun x => { x with homeSt := st }
def Core.homeVel (c : Core) (a : Nat) : Nat := c.ax64 A.AX_HOME_VEL a
def Core.homeSlow (c : Core) (a : Nat) : Nat := c.ax64 A.AX_HOME_SLOW a

/-- Stops under HOME_DEC, with what follows. -/
def Core.homeHalt (a next : Nat) (c : Core) : Core :=
  let x := c.axis a
  (c.setPlan a (stopPieces (rv x.vel) (ra x.acc) (ra (c.ax64 A.AX_HOME_DEC a)) (c.axJerkR a))).onAxis a fun y =>
    { y with homeSt := .stopping, homeNext := next }

/-- Begins the search of the method. -/
def Core.homeSearch (a : Nat) (c : Core) : Core :=
  let m := c.homeMethod a
  c.homeMove a .search (homeUp m) (if m ≤ 4 then c.homeVel a else c.homeSlow a)

/-- The reference is taken: Δ shifts the coordinates (R522). -/
def Core.homeTake (a : Nat) (latched : Int) (c : Core) : Core :=
  let delta := c.axS64 A.AX_HOME_OFFSET a * 2 ^ 32 - latched
  let sh (p : Int) : Int := c.wrapPos a (p + delta)
  c.onAxis a fun x => { x with
    pos := sh x.pos, tgt := sh x.tgt, actual := sh x.actual, sPrev := x.sPrev.map sh, sCur := x.sCur.map sh,
    sPrev2 := x.sPrev2.map sh, sNext := x.sNext.map sh, encBase := x.encBase + delta, actBase := x.actBase + delta,
    limp := { x.limp with release := sh x.limp.release }, limn := { x.limn with release := sh x.limn.release },
    plan := x.plan.map fun s => { s with p := s.p + rp delta }
    posValid := true, homed := true, homeLatch := c.wrapPos a latched, homeDone := true }

/-- Homing ends well, at standstill. -/
def Core.homeFinish (a : Nat) (c : Core) : Core :=
  ((c.still a .standstill).onAxis a fun x => { x with encErr := false }).homeEnd a 1

/-- The reference input is found: take it and stop (R521, R522). -/
def Core.homeFound (a sw : Nat) (c : Core) : Core :=
  let x := c.axis a
  let s := x.sw sw
  let own := match if sw = 3 then s.firstActive else if c.axFld A.AX_HOME_CFG a 5 5 = 0 then s.firstActive else s.lastActive with
    | some (_, p) => p
    | none => x.actual
  let latched := if c.axDrive a then
      match (c.drvTag a 7).bind c.point with
      | some (m, pt) => if c.inOperation m then x.actBase + c.inNum m pt * 2 ^ 32 else own
      | none => own
    else own
  (c.homeTake a latched).homeHalt a 3

/-- A start that R517 accepts. -/
def Core.homeBegin (a : Nat) (c : Core) : Core :=
  let m := c.homeMethod a
  let x := c.axis a
  let c1 := (c.onAxis a fun y => { y with
    st := .homing, mode := .none, hasTgt := false, homeReversed := false, homeDone := false, homeStart := y.pos, homeTravel := 0,
    homeSeenActive := false, homeIndex := false, homeResult := 0, stillFrom := none,
    encz := { y.encz with firstActive := none } }).raise 0x0A14 (axPath a 2)
  if m = 8 then (c1.homeTake a x.pos).homeFinish a
  else if m ≤ 6 ∧ (x.sw (homeSwitch m)).deb then c1.homeMove a .moveOff (!homeUp m) (c.homeSlow a)
  else c1.homeSearch a

/-- Status of a START (R517). -/
def Core.homeStatus (c : Core) (a : Nat) : Nat :=
  let m := c.homeMethod a
  let sw := homeSwitch m
  let has := if m = 8 then true
    else if c.axSource a = 1 then true
    else if c.axDrive a then (c.drvTag a (if sw = 0 then 4 else if sw = 1 then 5 else 6)).isSome
    else false
  let index := m = 3 ∨ m = 4 ∨ m = 7
  if !c.running then 0x09
  else if (c.axis a).st ≠ .standstill then 0x03
  else if m = 0 ∨ 8 < m ∨ !has ∨ (index ∧ !c.axEnc a) then 0x08
  else 0

/-- A debounced change of a switch acts on homing (R518 to R521). -/
def Core.homeSwitchAct (a sw : Nat) (active : Bool) (c : Core) : Core :=
  let x := c.axis a
  let m := c.homeMethod a
  let ref := homeSwitch m
  if x.st ≠ .homing ∨ x.homeDone ∨ sw ≠ ref ∨ m = 7 then c else
  match x.homeSt with
  | .moveOff => if active then c else c.homeHalt a 0
  | .search | .approach =>
    if !active then c
    else if m = 3 ∨ m = 4 then
      if x.homeIndex then c
      else (c.onAxis a fun y => { y with homeIndex := true, encz := { y.encz with firstActive := none } }).homeMove a .approach (homeUp m) (c.homeSlow a)
    else c.homeFound a sw
  | .reverseSearch =>
    if active then c.onAxis a fun y => { y with homeSeenActive := true }
    else if x.homeSeenActive then c.homeHalt a 2 else c
  | _ => c

/-- The index pulse as a reference, at the step after its edge (R518, R521). -/
def Core.homeEncz (a : Nat) (c : Core) : Core :=
  let x := c.axis a
  let m := c.homeMethod a
  if x.st = .homing ∧ !x.homeDone ∧ x.encz.firstActive.isSome ∧
      ((m = 7 ∧ x.homeSt = .search) ∨ ((m = 3 ∨ m = 4) ∧ x.homeIndex)) then c.homeFound a 3
  else c

/-! ## Limits (R511 to R516) -/

/-- The limit stop (R512). -/
def Core.limitStop (a : Nat) (c : Core) : Core :=
  let x := c.axis a
  let hard := c.axFld A.AX_LIM_CFG a 28 28 = 0
  let c0 := c.onAxis a fun y => { y with limStops := min 4095 (y.limStops + 1) }
  if hard then
    if x.stopRank = 1 then c0
    else
      let c1 := (c0.axStop a 2 (ra (c.ax64 A.AX_LIMIT_DEC a)) 0 2)
      c1.still a .standstill
  else c0.axStop a 2 (ra (c.ax64 A.AX_LIMIT_DEC a)) (rj (c.ax64 A.AX_LIMIT_JERK a)) 2

/-- A limit met while homing (R518, R520, R523): the search reverses once, or homing fails. -/
def Core.homeLimit (a : Nat) (high : Bool) (c : Core) : Core :=
  let x := c.axis a
  let m := c.homeMethod a
  let c0 := c.onAxis a fun y => { y with limStops := min 4095 (y.limStops + 1) }
  if m ≤ 4 ∧ !x.homeReversed ∧ !x.homeDone ∧ (x.homeSt = .search ∨ x.homeSt = .approach) ∧ high = homeUp m then
    let c1 := (c0.onAxis a fun y => { y with homeReversed := true, homeIndex := false, homeSeenActive := y.home.deb }).raise 0x0A16 (axPath a 2)
    let hard := c.axFld A.AX_LIM_CFG a 28 28 = 0
    if hard then
      (c1.onAxis a fun y => { y with vel := 0, acc := 0, plan := [] }).homeMove a .reverseSearch (!homeUp m) (c.homeVel a)
    else
      (c1.setPlan a (stopPieces (rv x.vel) (ra x.acc) (ra (c.ax64 A.AX_LIMIT_DEC a)) (rj (c.ax64 A.AX_LIMIT_JERK a)))).onAxis a fun y =>
        { y with homeSt := .stopping, homeNext := 1 }
  else
    let res := if (m = 5 ∨ m = 6) then 3 else 2
    (c.homeEnd a res).onAxis a (fun y => { y with st := .moving }) |>.limitStop a

/-- A limit starts to act (R512, R513). -/
def Core.limitActs (a : Nat) (high : Bool) (c : Core) : Core :=
  let x := c.axis a
  let c1 := (c.onAxis a fun y => if high then { y with limp := { y.limp with acting := true } }
    else { y with limn := { y.limn with acting := true } }).raise 0x0A10 (axPath a 1)
  let both := (c1.axis a).limp.acting && (c1.axis a).limn.acting
  let c2 := if both then c1.raise 0x0A13 (axPath a 1) else c1
  let m := c.homeMethod a
  let opposite : Bool := x.st == .homing && (m == 5 && !high || m == 6 && high)
  let into := (if high then decide (0 < x.vel) else decide (x.vel < 0)) || opposite
  let ref := x.st = .homing ∧ homeSwitch m = (if high then 0 else 1)
  if !into ∨ ref then c2
  else if x.st = .homing then c2.homeLimit a high
  else if x.stopRank = 1 ∨ x.stopRank = 2 then c2
  else c2.limitStop a

/-- A limit stops acting: its release position and ignore window (R514, R515). -/
def Core.limitReleased (a : Nat) (high : Bool) (c : Core) : Core :=
  let dist := c.regN (axA A.AX_REL_DIST a)
  let upd (s : Switch) (act : Int) : Switch :=
    { s with acting := false, ignore := decide (dist ≠ 0), release := match s.lastInactive with | some (_, p) => p | none => act }
  (c.onAxis a fun y => if high then { y with limp := upd y.limp y.actual } else { y with limn := upd y.limn y.actual }).raise 0x0A11
    (axPath a 1)

/-- The debounced state of a switch changes (R511). -/
def Core.debounced (a sw : Nat) (active : Bool) (c : Core) : Core :=
  let set (s : Switch) : Switch := { s with deb := active, edge := none, firstActive := if active then s.firstActive else none }
  let c1 := c.onAxis a fun y => match sw with
    | 0 => { y with limp := set y.limp } | 1 => { y with limn := set y.limn } | _ => { y with home := set y.home }
  let x := c1.axis a
  let c2 := if sw = 2 then c1
    else if active then
      (if (x.sw sw).ignore ∨ (x.sw sw).acting then c1 else c1.limitActs a (sw == 0))
    else if (x.sw sw).acting then c1.limitReleased a (sw == 0) else c1
  c2.homeSwitchAct a sw active

/-- End of the ignore windows at a step (R515). -/
def Core.ignoreEnds (a : Nat) (c : Core) : Core :=
  let x := c.axis a
  let dist : Int := (c.regN (axA A.AX_REL_DIST a) : Int) * 2 ^ 32
  let c1 := if x.limp.ignore ∧ (dist ≤ c.diffPos a x.limp.release x.actual ∨ 0 < x.vel) then
      let d := c.onAxis a fun y => { y with limp := { y.limp with ignore := false } }
      if x.limp.deb then d.limitActs a true else d
    else c
  if x.limn.ignore ∧ (dist ≤ c.diffPos a x.actual x.limn.release ∨ x.vel < 0) then
    let d := c1.onAxis a fun y => { y with limn := { y.limn with ignore := false } }
    if x.limn.deb then d.limitActs a false else d
  else c1

/-- Staleness of remote switches (R516). -/
def Core.limStale (a : Nat) (t : Time) (c : Core) : Core :=
  if !c.axDrive a then c else
  let x := c.axis a
  let bad (i : Nat) : Bool := match c.drvTag a i with
    | some tag =>
      let m := tagIndex tag / 1024
      !c.inOperation m || decide ((c.mod m).act.time + 2 * c.portLen (modPort m) < t)
    | none => false
  let stale := bad 4 || bad 5
  if stale ∧ !x.limSrcStale then
    let c1 := (c.onAxis a fun y => { y with limSrcStale := true }).raise 0x0A45 (axPath a 1)
    if x.vel ≠ 0 ∧ x.st ≠ .homing ∧ x.stopRank ≠ 1 ∧ x.stopRank ≠ 2 then c1.limitStop a else c1
  else c.onAxis a fun y => { y with limSrcStale := stale }

/-! ## The generator step (R444) -/

/-- One step of the running plan. -/
def Axis.stepPlan (x : Axis) : Axis :=
  match x.plan with
  | [] => x
  | s :: l =>
    let k := x.planStep + 1
    let (p, v, a, j) := s.at_ (k : Rat)
    { x with pos := toPos p, vel := toVel v, acc := toAcc a, jerk := toJerk j,
             plan := if s.steps ≤ k then l else x.plan, planStep := if s.steps ≤ k then 0 else k }

/-- The command of the step: the plan, the reference, or the reference with the excess (R453 to R459). -/
def Core.axCommandStep (a : Nat) (t : Time) (c : Core) : Core :=
  let x := c.axis a
  match x.st, c.refAt a t with
  | .following, some (p, v, acc) =>
    c.onAxis a fun y => { y with pos := c.wrapPos a (toPos p), vel := toVel v, acc := toAcc acc, jerk := 0, excessVel := 0, ref := c.wrapPos a (toPos p) }
  | .syncing, some (p, v, _) =>
    if x.replan then
      let c1 := if x.plan = [] then c.onAxis a fun y => { y with pos := c.wrapPos a (toPos (rp y.pos + rv y.vel + ra y.acc / 2)), vel := toVel (rv y.vel + ra y.acc) }
        else c.onAxis a fun y => let z := y.stepPlan; { z with pos := c.wrapPos a z.pos }
      (c1.planExcess a t).onAxis a fun y => { y with ref := c.wrapPos a (toPos p), excessVel := y.vel - toVel v }
    else match x.excess with
      | [] => c.onAxis a fun y => let z := y.stepPlan; { z with pos := c.wrapPos a z.pos }
      | s :: l =>
        let k := x.excessStep + 1
        let (e, ev, ea, ej) := s.at_ (k : Rat)
        let done := s.steps ≤ k
        c.onAxis a fun y => { y with
          pos := c.wrapPos a (toPos (p + e)), vel := toVel (v + ev), acc := toAcc ea, jerk := toJerk ej, excessVel := toVel ev,
          ref := c.wrapPos a (toPos p), excess := if done then l else y.excess, excessStep := if done then 0 else k }
  | _, _ => c.onAxis a fun y => let z := y.stepPlan; { z with pos := c.wrapPos a z.pos }

/-- A plan has ended: what state follows. -/
def Core.axPlanEnd (a : Nat) (c : Core) : Core :=
  let x := c.axis a
  if x.plan ≠ [] then c else
  match x.st with
  | .moving =>
    if x.mode = .position then
      (((c.onAxis a fun y => { y with pos := y.tgt }).still a .standstill).onAxis a fun y => { y with atTarget := true })
    else if x.mode = .velocity ∨ x.mode = .none then c.still a .standstill else c
  | .jogging => if x.jogDir = 0 then c.still a .standstill else c
  | .stopping => c.still a .standstill
  | .qstopping =>
    let c1 := c.still a .qstopped
    if x.resumeReq then
      ((c1.still a .standstill).onAxis a fun y => { y with resumeReq := false, trackFault := false, stalled := false, holding := y.holding && !y.stalled, spFrozen := none })
    else c1
  | .syncing =>
    if x.excess = [] ∧ !x.replan ∧ (c.refAt a c.now).isSome ∧ x.pos = x.ref then
      (c.onAxis a fun y => { y with st := .following, excessVel := 0 }).raise 0x0A03 (axPath a 0)
    else c
  | .homing =>
    match x.homeSt with
    | .stopping =>
      let m := c.homeMethod a
      match x.homeNext with
      | 0 => c.homeSearch a
      | 1 => c.homeMove a .reverseSearch (!homeUp m) (c.homeVel a)
      | 2 => c.homeMove a .approach (homeUp m) (c.homeSlow a)
      | _ =>
        if c.axFld A.AX_HOME_CFG a 6 6 = 1 then
          let (park, _) := c.swBound a (c.wrapPos a (c.axS64 A.AX_HOME_PARK a * 2 ^ 32))
          let d := c.distTo a park
          if d = 0 then c.homeFinish a
          else (c.setPlan a (c.planPos a d (c.axDecR a))).onAxis a fun y => { y with homeSt := .parking, tgt := park }
        else c.homeFinish a
    | .parking => (c.onAxis a fun y => { y with pos := y.tgt }).homeFinish a
    | _ => c
  | _ => c

/-- The software limits in VELOCITY, FOLLOW and jogging (R462). -/
def Core.swCheck (a : Nat) (c : Core) : Core :=
  let x := c.axis a
  let dec := if x.mode = .follow then c.axStopR a else c.axDecR a
  let free := (x.st = .moving ∧ (x.mode = .velocity ∨ x.mode = .follow)) ∨ x.st = .jogging ∨ x.st = .following ∨ x.st = .syncing
  if !free ∨ x.vel = 0 ∨ c.axModulo a ∨ c.axFld A.AX_CFG a 4 4 = 0 then c else
  let up := decide (0 < x.vel)
  let left := if up then rp (c.axS64 A.AX_SW_MAX a * 2 ^ 32 - x.pos) else rp (x.pos - c.axS64 A.AX_SW_MIN a * 2 ^ 32)
  let v := rabs (rv x.vel)
  let acc := if up then ra x.acc else -(ra x.acc)
  let s := stopPieces v acc dec (c.axJerkR a)
  if (travel v s).1 < left then c else
  let l := if left ≤ 0 then s else directMove v acc left v (c.axAccR a) dec (c.axJerkR a)
  ((c.flyFail a).setPlan a (mirrored (!up) l)).onAxis a fun y => { y with
    st := .stopping, stopRank := 3, mode := .none, hasTgt := false, swStop := true, swHigh := up, sPrev := none, sCur := none,
    sNext := none, excess := [], replan := false, jogDir := 0 }

/-- Whether the acceleration that begins a plan leads into an acting limit. -/
def Core.planInto (c : Core) (a : Nat) (high : Bool) : Bool :=
  match (c.axis a).plan.head? with
  | some s => if high then decide (0 < s.a0 + s.a1) && c.limActP a else decide (s.a0 + s.a1 < 0) && c.limActN a
  | none => false

/-- A motion that would turn into an acting limit ends where its velocity reaches zero; in homing it meets the limit (R512, R520). -/
def Core.turnCheck (a : Nat) (v0 : Int) (c : Core) : Core :=
  let x := c.axis a
  let plan : Bool := x.vel == 0 && (decide (v0 ≤ 0) && c.planInto a true || decide (0 ≤ v0) && c.planInto a false)
  let turned : Bool := decide (v0 ≤ 0 ∧ 0 < x.vel) && c.limActP a || decide (0 ≤ v0 ∧ x.vel < 0) && c.limActN a
  if (plan && (x.st == .moving || x.st == .jogging)) || (turned && (x.st == .following || x.st == .syncing)) then
    ((c.flyFail a).onAxis a fun y => { y with mode := .none, hasTgt := false }).still a .standstill
  else if plan && x.st == .homing && x.homeSt != .stopping then
    let high := c.planInto a true
    if homeSwitch (c.homeMethod a) = (if high then 0 else 1) then c else c.homeLimit a high
  else c

/-- The errors and flags of the step (R455, R456, R472, R473). -/
def Core.axErrors (a : Nat) (moved : Bool) (c : Core) : Core :=
  let x := c.axis a
  let te := c.diffPos a x.pos x.actual
  let fe := if x.st = .syncing ∨ x.st = .following then c.diffPos a x.ref x.actual else te
  let win : Int := (c.regN (axA A.AX_FE_WINDOW a) : Int) * 2 ^ 32
  let c1 := c.onAxis a fun y => { y with
    trackErr := te, followErr := fe, inWindow := decide (fe.natAbs ≤ win),
    atTarget := if y.mode = .position ∧ y.hasTgt ∧ y.vel = 0 ∧ y.pos = y.tgt then true else if moved then false else y.atTarget
    atSpeed := decide (y.mode = .velocity ∧ y.hasTgt ∧ y.vel = c.clampV a y.tgtVel) }
  let lim := c.regN (axA A.AX_TRACK_LIMIT a)
  if lim ≠ 0 ∧ x.st ≠ .brakeTest ∧ !x.actStale ∧ (lim : Int) * 2 ^ 32 < te.natAbs ∧ !x.trackFault then
    ((c1.qstop a).onAxis a fun y => { y with trackFault := true }).raise 0x0A81 (axPath a 0)
  else c1

/-- Homing's own bounds (R523). -/
def Core.homeChecks (a : Nat) (moved : Nat) (c : Core) : Core :=
  let x := c.axis a
  if x.st ≠ .homing then c else
  let tr := x.homeTravel + moved
  let c1 := c.onAxis a fun y => { y with homeTravel := tr }
  let max_ := c.ax64 A.AX_HOME_MAXDIST a
  if max_ ≠ 0 ∧ (max_ : Int) * 2 ^ 32 < tr then c1.stop3 a 4
  else if x.actStale ∨ x.limSrcStale then c1.stop3 a 7
  else c1

/-- One generator step of one axis. -/
def Core.axStep (t : Time) (a : Nat) (c : Core) : Core :=
  let x := c.axis a
  if x.st = .disabled then c else
  let c1 := ((c.axIref a).axCommandStep a t).axArrivals a
  let y := c1.axis a
  let wrapped := !c.axModulo a && decide (2 ^ 95 < (y.pos - x.pos).natAbs)
  let c2 := if wrapped then c1.onAxis a fun z => { z with posWrapped := true } else c1
  let c3 := ((c2.axActual a t).axSteps a x.pos x.vel t).axPlanEnd a
  let c4 := (((c3.turnCheck a x.vel).swCheck a).ignoreEnds a).limStale a t
  let moved := (c.diffPos a (c4.axis a).pos x.pos).natAbs
  let c5 := (c4.axErrors a (moved ≠ 0)).homeChecks a moved
  let c6 := (c5.homeEncz a).axUnhold a (moved ≠ 0)
  if c.axDrive a then c6 else c6.axSample a t

/-- GENERATOR_STEP: the next whole microsecond, for every configured axis. -/
def Core.generatorStep (c : Core) : Core :=
  let t := c.nextUs
  let c0 := c.advanceTo t
  let c1 := { c0 with mot := { c0.mot with genAt := some t } }
  forL c1.axesOn (fun a d => d.axStep t a) c1

/-! ## Signals (R478, R524) -/

/-- AX_STATUS (R483). -/
def Axis.status (x : Axis) : Word :=
  let m := match x.mode with | .none => 0 | .position => 1 | .velocity => 2 | .follow => 3
  let s := match x.st with
    | .disabled => 0 | .standstill => 1 | .moving => 2 | .syncing => 3 | .following => 4 | .stopping => 5 | .qstopping => 6
    | .qstopped => 7 | .jogging => 8 | .homing => 9 | .brakeTest => 10
  wd (m * 2 ^ 28 + s * 2 ^ 24 + flg x.aborted 15 + flg x.trackFault 14 + flg x.decDeferred 13 + flg x.followExtrap 12 +
    flg x.followLimited 11 + flg x.swLimit 10 + flg x.tgtClamped 9 + flg x.posWrapped 8 + flg x.inWindow 7 + flg x.atTarget 6 +
    flg x.atSpeed 5)

/-- AX_IO_STATUS (R527). -/
def Axis.ioStatus (x : Axis) : Word :=
  wd (flg x.posValid 31 + flg x.homed 30 + flg x.stalled 29 + flg x.encErr 28 + flg x.actStale 27 + flg x.limSrcStale 26 +
    flg x.boostAtMax 25 + flg x.holding 24 + flg x.limp.ignore 15 + flg x.limn.ignore 14 +
    flg (x.limp.acting || x.limSrcStale) 13 + flg (x.limn.acting || x.limSrcStale) 12 + flg x.home.deb 11 + flg x.limp.deb 10 +
    flg x.limn.deb 9 + flg x.encz.raw 3 + flg x.home.raw 2 + flg x.limn.raw 1 + flg x.limp.raw 0)

/-- AX_HOME_STATUS (R528). -/
def Axis.homeStatusWord (x : Axis) (method : Nat) : Word :=
  let s := match x.homeSt with
    | .idle => 0 | .moveOff => 1 | .search => 2 | .reverseSearch => 3 | .approach => 4 | .stopping => 5 | .parking => 6
  wd (s * 2 ^ 28 + x.homeResult * 2 ^ 24 + flg x.homeReversed 16 + method)

/-- Class 2 signal n of an axis. -/
def Core.axisSig (c : Core) (a n : Nat) : DWord :=
  let x := c.axis a
  let i (v : Int) : DWord := BitVec.ofInt 64 v
  match n with
  | 0 => i (x.pos / 2 ^ 32) | 1 => i (x.pos % 2 ^ 32) | 2 => i x.vel | 3 => i x.acc | 4 => i x.jerk
  | 5 => i (if x.mode = .position ∧ x.hasTgt then x.tgt / 2 ^ 32 else 0) | 6 => i (x.actual / 2 ^ 32) | 7 => i x.actVel
  | 8 => i (x.followErr / 65536) | 9 => i (x.trackErr / 65536) | 10 => i (x.ref / 2 ^ 32) | 11 => i x.refVel
  | 12 => x.status.setWidth 64 | 13 => i (if x.mode = .velocity ∧ x.hasTgt then c.clampV a x.tgtVel else 0)
  | 14 => i ((x.sNext.getD (x.sCur.getD 0)) / 2 ^ 32) | 15 => i x.excessVel | 16 => i x.stepPos | 17 => i (sx 32 (x.enc % 2 ^ 32).toNat)
  | 18 => i x.load | 19 => i x.current | 20 => x.ioStatus.setWidth 64
  | 21 => (x.homeStatusWord (c.homeMethod a)).setWidth 64 | 22 => i (x.homeLatch / 2 ^ 32) | 23 => i (x.homeLatch % 2 ^ 32)
  | 24 => i (x.encZ / 2 ^ 32)
  | 25 => i ((flg x.limp.raw 0 + flg x.limn.raw 1 + flg x.home.raw 2 + flg x.encz.raw 3 + flg x.limp.deb 8 + flg x.limn.deb 9 +
      flg x.home.deb 10 : Nat))
  | 26 => i (min x.stepQ.length 65535 : Nat) | 27 => i (x.actual % 2 ^ 32)
  | _ => 0

/-! ## Setpoint ahead (R501) -/

/-- The command position and velocity at an instant not before now: the plan or the reference run on. -/
def Core.cmdAt (c : Core) (a : Nat) (t : Time) : Int × Int :=
  let x := c.axis a
  let dt : Rat := mkRat ((t : Int) - c.now) us
  match x.st with
  | .following | .syncing =>
    let base := match c.refAt a t with | some (p, v, _) => some (p, v) | none => none
    match base with
    | some (p, v) =>
      match runPlan x.excess (dt + (x.excessStep : Rat)) with
      | some (e, ev, _, _) => (c.wrapPos a (toPos (p + e)), toVel (v + ev))
      | none => (c.wrapPos a (toPos p), toVel v)
    | none => (x.pos, x.vel)
  | _ =>
    match runPlan x.plan (dt + (x.planStep : Rat)) with
    | some (p, v, _, _) => (c.wrapPos a (toPos p), toVel v)
    | none => (x.pos, x.vel)

/-! ## Switches, encoder and the rest -/

/-- A raw switch edge at its stamp, after polarity (R511, R497). -/
def Core.rawEdge (a sw : Nat) (active : Bool) (t : Time) (c : Core) : Core :=
  let set (s : Switch) : Switch := { s with raw := active, edge := some t }
  c.onAxis a fun y =>
    let z := match sw with
      | 0 => { y with limp := set y.limp } | 1 => { y with limn := set y.limn } | 2 => { y with home := set y.home }
      | _ => { y with encz := set y.encz }
    { z with edges := z.edges ++ [(sw, active, t)] }

/-- SWITCH_EDGE on a local pin; a level that does not change is no edge. -/
def Core.switchEdge (a sw : Nat) (level : Bool) (t : Time) (c : Core) : Core :=
  let active := if sw = 0 then level != c.axIo a 18 else if sw = 1 then level != c.axIo a 17 else if sw = 2 then level != c.axIo a 16 else level
  if c.axSource a ≠ 1 ∨ !c.image.axes.contains a ∨ ((c.axis a).sw sw).raw = active then c
  else (c.advanceTo t).rawEdge a sw active t

/-- Debounce time of a switch (R511). -/
def Core.debTime (c : Core) (a sw : Nat) : Time :=
  (if sw = 2 then c.axFld A.AX_LIM_CFG a 25 16 else c.axFld A.AX_LIM_CFG a 9 0) * (10 * us)

/-- DEBOUNCE_COMPLETE: at the first generator step at or after the last raw edge plus the debounce time (R511). -/
def Core.debounceComplete (a sw : Nat) (c : Core) : Core :=
  let s := (c.axis a).sw sw
  match s.edge with
  | none => c
  | some e =>
    if 3 ≤ sw then c else
    let c1 := c.advanceTo (cdiv (e + c.debTime a sw) us * us)
    if s.raw = s.deb then c1.onAxis a fun y => match sw with
      | 0 => { y with limp := { y.limp with edge := none } } | 1 => { y with limn := { y.limn with edge := none } }
      | _ => { y with home := { y.home with edge := none } }
    else (if (c.axis a).edges.isEmpty then c1 else c1.axActual a c1.now).debounced a sw s.raw

/-- A quadrature edge (R496): levels of A and B after it, and its instant. -/
def Core.encoderEdge (a : Nat) (la lb : Bool) (t : Time) (c : Core) : Core :=
  let x := c.axis a
  let (pa, pb) := x.encLevels
  let both : Bool := decide (la ≠ pa) && decide (lb ≠ pb)
  let quick : Bool := match x.lastEnc with | some l => decide (t < l + ns 40) | none => false
  if la = pa ∧ lb = pb then c
  else
    let c0 := c.advanceTo t
    if both ∨ quick then
      (c0.onAxis a fun y => { y with
        encLevels := (la, lb), lastEnc := some t, encErr := true, posValid := false, encErrs := min 4095 (y.encErrs + 1) }).raise
          0x0A44 (axPath a 1)
    else
      let up := if la ≠ pa then la ≠ lb else la = lb
      c0.onAxis a fun y => { y with
        encLevels := (la, lb), lastEnc := some t, enc := sx 64 ((y.enc + (if up then 1 else -1)) % 2 ^ 64).toNat }

/-- HOLD_DELAY_EXPIRY (R505). -/
def Core.holdDelay (a : Nat) (c : Core) : Core :=
  let x := c.axis a
  match x.stillFrom with
  | some f => if x.st = .standstill ∨ x.st = .qstopped then
      (c.advanceTo (f + c.axFld A.AX_BOOST_LIM a 31 16 * ms)).onAxis a fun y =>
        { y with holding := true, boostAtMax := false, current := c.axFld A.AX_CURRENT a 15 0 }
    else c
  | none => c

/-- JOG_TIMEOUT (R471). -/
def Core.jogTimeout (a : Nat) (c : Core) : Core :=
  let x := c.axis a
  if x.st = .jogging ∧ x.jogDir ≠ 0 then (c.advanceTo (x.jogLast + 500 * ms)).axJog a 0 else c

/-- An ABORT of an axis (R469). -/
def Core.axAbort (a : Nat) (c : Core) : Core :=
  if c.image.axes.contains a then (c.qstop a).onAxis a fun x => { x with aborted := true } else c

/-- What a fresh frame of a drive's module tells its axis (R502): position, switches and a sample of L. -/
def Core.axReport (m : Nat) (t : Time) (fresh : Bool) (a : Nat) (c : Core) : Core :=
  if !c.axDrive a then c else
  let on (i : Nat) : Option (Nat × Nat) := (c.drvTag a i).bind fun tag => if tagIndex tag / 1024 = m then c.point tag else none
  let c1 := match on 1 with
    | some (_, pt) => if fresh then c.onAxis a fun x => { x with
        rep := ((c.inNum m pt, t) :: x.rep).take 2, posValid := x.posValid || c.axIo a 11 } else c
    | none => c
  let sw (n i : Nat) (d : Core) : Core := match on i with
    | some (_, pt) =>
      let act := decide (d.inNum m pt ≠ 0)
      if ((d.axis a).sw n).raw = act then d else d.rawEdge a n act t
    | none => d
  let c2 := sw 2 6 (sw 1 5 (sw 0 4 c1))
  if fresh ∧ ((on 1).isSome ∨ (on 2).isSome) then c2.axSample a t else c2

/-- The plan of a unit that has taken over, or of an axis restored from a record: as for a target that has just arrived (R474). -/
def Core.axResume (a : Nat) (c : Core) : Core :=
  let x := c.axis a
  match x.st with
  | .moving => if x.mode = .velocity then c.planVel a (c.clampV a x.tgtVel)
    else if x.mode = .position then c.setPlan a (c.planPos a (c.distTo a x.tgt) (c.axDecR a)) else c
  | .stopping => c.setPlan a (stopPieces (rv x.vel) (ra x.acc) (c.axStopR a) (c.axJerkR a))
  | .qstopping => c.setPlan a (stopPieces (rv x.vel) (ra x.acc) (ra (c.ax64 A.AX_QSTOP_DEC a)) (rj (c.ax64 A.AX_QSTOP_JERK a)))
  | .syncing => c.onAxis a fun y => { y with replan := true }
  | _ => c

/-! ## Commands -/

def execGeneratorStep (s : State) : Host.Outcome State Fault Refusal := coreCmd Core.generatorStep s
def execHoldDelayExpiry (a : Nat) (s : State) : Host.Outcome State Fault Refusal := coreCmd (Core.holdDelay a) s
def execJogTimeout (a : Nat) (s : State) : Host.Outcome State Fault Refusal := coreCmd (Core.jogTimeout a) s
def execEncoderEdge (a : Nat) (la lb : Bool) (t : Time) (s : State) : Host.Outcome State Fault Refusal :=
  coreCmd (Core.encoderEdge a la lb t) s
def execSwitchEdge (a sw : Nat) (level : Bool) (t : Time) (s : State) : Host.Outcome State Fault Refusal :=
  coreCmd (Core.switchEdge a sw level t) s
def execDebounceComplete (a sw : Nat) (s : State) : Host.Outcome State Fault Refusal := coreCmd (Core.debounceComplete a sw) s

end Sys2Proof.Machine
end

