-- ==== Sys2Proof/Machine/Learn.lean ====
section
/-!
DEFINITION. Machine/Learn.lean: the repetitive controller of a loop (R405 to R423) and test injection (R424 to R431).
-/

namespace Sys2Proof.Machine

/-- Path of channel ch of a loop (R404, R443). -/
def lpPath (n ch : Nat) : Nat := path 9 n ch

/-- A field of a loop's window. -/
def Core.lpFld (c : Core) (key n hi lo : Nat) : Nat := c.fld (lpA key n) hi lo
/-- A field read as signed Q15. -/
def Core.lpQ15 (c : Core) (key n lo : Nat) : Int := sx 16 (c.fld (lpA key n) (lo + 15) lo)

def Core.onLrn (n : Nat) (f : Learn → Learn) (c : Core) : Core := c.onLoop n fun l => { l with lrn := f l.lrn }
def Core.onInj (n : Nat) (f : Inject → Inject) (c : Core) : Core := c.onLoop n fun l => { l with inj := f l.inj }

/-! ## Phase (R406, R407) -/

def Core.rcN (c : Core) (n : Nat) : Nat := c.lpFld A.RC_CFG n 12 0
def Core.rcSrc (c : Core) (n : Nat) : Nat := c.lpFld A.RC_CFG n 31 30
/-- PERIOD in 48.16. -/
def Core.rcPeriod (c : Core) (n : Nat) : Nat := c.reg64 (lpA A.RC_PERIOD_LO n)

/-- Reads the source at a period start: its value in 48.16, and whether it is stale or invalid (R407). -/
def Core.rcSource (n : Nat) (t : Time) (c : Core) : Core × Int × Bool :=
  if c.rcSrc n = 1 then (c, ((tickOf t * 65536 : Nat) : Int), false)
  else
    let tag := c.lpFld A.RC_SRC_TAG n 24 0
    match tagClass tag with
    | 0 => match c.point tag with
      | none => (c, 0, true)
      | some (m, pt) =>
        let l := (c.loop n).lrn
        let same := l.srcSeq == some (c.mod m).act.seq
        let age := if same then min 255 (l.srcAge + 1) else 0
        let lim := c.lpFld A.LP_STALE_CTL n 23 16
        (c.onLrn n fun x => { x with srcSeq := some (c.mod m).act.seq, srcAge := age },
          c.inForced tag m pt * 65536, !c.inOperation m || (decide (lim ≠ 0) && decide (lim ≤ age)))
    | 2 =>
      let a := tagIndex tag / 16384
      (c, (c.axisSig a (tagIndex tag % 16384)).toInt * 65536, !(c.axis a).posValid)
    | _ => let (p, st) := c.importPos tag t; (c, p, st)

/-- φ in 48.16 and the bin index (R406). -/
def Core.rcPhase (c : Core) (n : Nat) (p : Int) : Nat × Nat :=
  let per := c.rcPeriod n
  let phi := ((p - c.sreg64 (lpA A.RC_ORIGIN_LO n) * 65536) % (per : Int)).toNat
  (phi, phi * c.rcN n / per)

/-! ## Bins (R410 to R414) -/

/-- A bin, taken around. -/
def Core.bin (c : Core) (n : Nat) (j : Int) : Int := SMap.get 0 (c.loop n).lrn.bins (j % (c.rcN n : Int)).toNat

/-- S(r)[j] (R414). -/
def Core.smooth (c : Core) (n : Nat) (j : Int) : Int :=
  let r := c.bin n
  match c.lpFld A.RC_CFG n 29 28 with
  | 1 => (r (j - 1) + 2 * r j + r (j + 1) + 2) / 4
  | 2 => (r (j - 3) + 2 * r (j - 2) + 3 * r (j - 1) + 4 * r j + 3 * r (j + 1) + 2 * r (j + 2) + r (j + 3) + 8) / 16
  | _ => r j

/-- BIN_UPDATE (R412): bin j takes a mean error. -/
def Core.binUpdate (n : Nat) (j ebar : Int) (c : Core) : Core :=
  let k := (j % (c.rcN n : Int)).toNat
  let l : Int := c.lpFld A.RC_LQ n 15 0
  let q : Int := c.lpFld A.RC_LQ n 31 16
  let t := satQ15 (c.smooth n j + (l * ebar + 16384) / 32768)
  c.onLrn n fun x => { x with
    bins := SMap.set 0 x.bins k (satQ15 ((q * t + 16384) / 32768)), ebar := ebar, target := k, lastLearned := true }

def Core.passLearned (n : Nat) (c : Core) : Core :=
  (c.onLrn n fun x => { x with learned := (x.learned + 1) % 2 ^ 64 }).bump (lpA A.RC_PASS_LEARNED n)
def Core.passPaused (n : Nat) (c : Core) : Core :=
  (c.onLrn n fun x => { x with paused := (x.paused + 1) % 2 ^ 64 }).bump (lpA A.RC_PASS_PAUSED n)
def Core.passSkipped (n k : Nat) (c : Core) : Core :=
  (c.onLrn n fun x => { x with skipped := (x.skipped + k) % 2 ^ 64 }).bump (lpA A.RC_PASS_SKIPPED n) k

/-- Σ d and Σ elapsed of the last 16 updates; reversals give 0 (R415). -/
def Learn.speed (l : Learn) : Nat × Nat :=
  if l.hist.any (fun p => decide (p.1 < 0)) then (0, 1)
  else (l.hist.foldl (fun s p => s + p.1.toNat) 0, l.hist.foldl (fun s p => s + p.2) 0)

/-- LEAD + round(DLY_US × v_b), at most 63 (R415). -/
def Core.leadNow (c : Core) (n : Nat) : Nat :=
  let (d, e) := (c.loop n).lrn.speed
  let x := if e = 0 then 0 else (2 * c.lpFld A.RC_DLY_FADE n 31 16 * d * us + e) / (2 * e)
  min 63 (c.lpFld A.RC_CFG n 21 16 + x)

/-- The mean error of a dwell, rounded half upward (R410). -/
def Dwell.mean (d : Dwell) : Int := if d.count = 0 then 0 else (2 * d.sum + d.count) / (2 * d.count)

/-- This update's error joins the open dwell; the count saturates (R409). -/
def Dwell.add (e : Int) (d : Dwell) : Dwell := if d.count < 65535 then { d with sum := d.sum + e, count := d.count + 1 } else d

/-- Closes the dwell of bin k with a forward advance of d (R410, R411). -/
def Core.closeDwell (n : Nat) (w : Dwell) (d e : Int) (paused : Bool) (c : Core) : Core :=
  let c0 := c.onLrn n fun x => { x with leadEff := c.leadNow n }
  let lead : Int := (c0.loop n).lrn.leadEff
  let c1 := if w.bad then c0.passPaused n else (c0.binUpdate n (w.k - lead) w.mean).passLearned n
  let c2 := if d = 2 then
      if w.bad || paused then c1.passPaused n
      else (c1.binUpdate n (w.k + 1 - lead) ((w.mean + e + 1) / 2)).passLearned n
    else c1
  if 3 ≤ d then
    ((c2.passSkipped n (d - 1).toNat).onLrn n fun x => { x with overspeed := true }).raiseEvery second 0x0911 (lpPath n 1)
  else c2

/-- Takes a bin difference into (−N/2, N/2]. -/
def wrapBin (d : Int) (n : Nat) : Int := let m := d % (n : Int); if (n : Int) < 2 * m then m - n else m

/-- The part of R409 with a usable source: k_now, the error of this update, and the pauses of R413 known before it. -/
def Core.rcMove (n : Nat) (kNow : Nat) (e : Int) (el : Time) (pause : Bool) (c : Core) : Core :=
  let l := (c.loop n).lrn
  let push (d : Int) (x : Learn) : Learn := { x with hist := ((d, el) :: x.hist).take 16 }
  match l.dwell with
  | none => c.onLrn n fun x => push 0 { x with dwell := some { k := kNow, bad := true } }
  | some w =>
    let d := wrapBin ((kNow : Int) - w.k) (c.rcN n)
    let c1 := c.onLrn n (push d)
    if d = 0 then c1.onLrn n fun x => { x with dwell := some (Dwell.add e w) }
    else if d < 0 ∨ (c.rcN n : Int) < 4 * d then
      let c2 := (c1.passPaused n).onLrn n fun x => { x with dwell := some { k := kNow, bad := true }, reverse := true }
      if 0 < d then
        (c2.bump (lpA A.RC_DISCONT n)).raise 0x0912 (lpPath n 1)
      else c2
    else (c1.closeDwell n w d e pause).onLrn n fun x => { x with dwell := some (Dwell.add e { k := kNow }) }

/-- FADE of w (R417). -/
def Core.fadeW (n : Nat) (c : Core) : Core :=
  let f := c.lpFld A.RC_DLY_FADE n 15 0
  let s := if f = 0 then 32768 else cdiv 32768 f
  c.onLrn n fun x => { x with w := if c.flag (lpA A.RC_CTL n) 1 then min 32768 (x.w + s) else x.w - s }

/-- The repetitive step of an update (R409, R413, R417): `e` is its error, `t` its period start, `closed` and `bad` say whether
the loop is CLOSED and its feedback stale or frozen. Answers C in Q15. -/
def Core.rcStep (n : Nat) (t : Time) (el : Time) (e : Int) (closed bad : Bool) (c : Core) : Core × Int :=
  let c0 := (c.onLrn n fun x => { x with overspeed := false, reverse := false, lastLearned := false }).fadeW n
  if c.rcSrc n = 0 then (c0.onLrn n fun x => { x with srcStale := false, limitPause := false, lastPaused := true }, 0)
  else
    let l := c0.loop n
    let limit := c0.flag (lpA A.RC_CFG n) 27 && (l.limHi || l.limLo)
    let pause0 := !(c0.flag (lpA A.RC_CTL n) 0) || l.lrn.abtFrozen || !closed || bad || limit || l.inj.running
    let (c1, p, stale) := c0.rcSource n t
    let was := l.lrn.srcStale
    let c2 := c1.onLrn n fun x => { x with srcStale := stale, limitPause := limit }
    let c3 := if stale then
        c2.onLrn n fun x => { x with dwell := x.dwell.map fun d => { d with bad := true }, hist := ((0, el) :: x.hist).take 16 }
      else
        let (phi, k) := c2.rcPhase n p
        (c2.onLrn n fun x => { x with phi := phi }).rcMove n k e el pause0
    let paused := pause0 || stale || (c3.loop n).lrn.reverse
    let c4 := c3.onLrn n fun x => { x with
      lastPaused := paused, dwell := if paused then x.dwell.map fun d => { d with bad := true } else x.dwell }
    let c5 := if stale && !was then c4.raise 0x0913 (lpPath n 1)
      else if !stale && was then c4.raise 0x0914 (lpPath n 1) else c4
    match (c5.loop n).lrn.dwell with
    | some d =>
      let r := c5.bin n d.k
      (c5.onLrn n fun x => { x with rk := r }, (r * (c5.loop n).lrn.w + 16384) / 32768)
    | none =>
      let (j, c6) := c5.freeNat
      (c6, (c6.bin n j * (c6.loop n).lrn.w + 16384) / 32768)

/-- The open dwell closes as bad: it updates nothing and counts as paused, and the next update opens another (R409, R410, R419,
R420; notes/assumptions/52.md). -/
def Core.dwellBad (n : Nat) (c : Core) : Core :=
  if (c.loop n).lrn.dwell.isNone then c else (c.passPaused n).onLrn n fun x => { x with dwell := none }

/-- The bins and the open dwell at a CLEAR, or at a change of N or SOURCE (R419, R420). -/
def Core.rcWipe (n : Nat) (c : Core) : Core := (c.dwellBad n).onLrn n fun x => { x with bins := [] }

/-- Requests to learning that act at a period start (R419 to R422); `old` holds the coefficient words that changed. -/
def Core.rcRequests (n : Nat) (old : List (Nat × Word)) (c : Core) : Core :=
  let cfg := old.find? (fun p => p.1 == 0xE0)
  let moved := match cfg with
    | some (_, w) => bits w 12 0 != c.rcN n || bits w 31 30 != c.rcSrc n
    | none => false
  let c1 := if old.any (fun p => 0xE0 ≤ p.1) then c.dwellBad n else c
  let c2 := if moved then c1.rcWipe n else c1
  let c3 := if (c2.loop n).lrn.clearReq then ((c2.rcWipe n).onLrn n fun x => { x with clearReq := false }).raise 0x0910 (lpPath n 1)
    else c2
  let c4 := if (c3.loop n).lrn.abortReq then
      (c3.onLrn n fun x => { x with abortReq := false, abtFrozen := true }).raiseIf (!(c3.loop n).lrn.abtFrozen) 0x0917 (lpPath n 1)
    else c3
  c4.onLrn n fun x => { x with
    bins := x.binReq.foldl (fun m p => if p.1 < c4.rcN n then SMap.set 0 m p.1 p.2 else m) x.bins, binReq := [] }

/-- RC_STATUS (R435). -/
def LoopSt.rcStatus (l : LoopSt) : Word :=
  wd (l.lrn.w * 65536 + flg l.lrn.overspeed 8 + flg l.lrn.reverse 7 + flg l.lrn.srcStale 6 + flg l.lrn.limitPause 5 +
    flg l.inj.running 4 + flg l.lrn.abtFrozen 3 + flg l.lrn.lastPaused 2 + flg (decide (0 < l.lrn.w)) 1 + flg l.lrn.lastLearned 0)

/-! ## Injection (R424 to R431) -/

def Core.injField (c : Core) (n hi lo : Nat) : Nat := c.fld (lpA A.INJ_CFG n) hi lo
def Core.injPoint (c : Core) (n : Nat) : Nat := c.injField n 31 30
def Core.injDur (c : Core) (n : Nat) : Nat := c.regN (lpA A.INJ_DUR n)
def Core.injHold (c : Core) (n : Nat) : Nat := max 1 (c.fld (lpA A.INJ_HOLD n) 8 0)

/-- INJ_STATUS (R439). -/
def LoopSt.injStatus (l : LoopSt) : Word := wd (flg l.inj.running 24 + l.inj.endReason * 2 ^ 20 + l.inj.refuse * 2 ^ 16)

/-- The loop state that R425 requires. -/
def injState (point : Nat) (m : LoopMode) : Bool := m == .closed || (point == 3 && m == .manual)

/-- An injection ends with a reason (R431). -/
def Core.injEnd (n reason : Nat) (c : Core) : Core :=
  let i := (c.loop n).inj
  if !i.running && !i.waiting then c else
  (c.onInj n fun i => { i with running := false, waiting := false, x := 0, endReason := reason }).raise
    (if reason ≤ 2 then 0x0916 else 0x0943) (lpPath n 2)

/-- sin(2π θ / 2^32) in Q15, rounded, from its series with 60 fraction bits. -/
def sineQ15 (theta : Nat) : Int :=
  let q := theta / 2 ^ 30 % 4
  let z : Nat := if q % 2 = 1 then 2 ^ 30 - theta % 2 ^ 30 else theta % 2 ^ 30
  let a : Int := z * 1686629713
  let sq := a * a / 2 ^ 60
  let sum := ([1, 2, 3, 4, 5, 6, 7, 8].foldl (fun (p : Int × Int) (k : Int) =>
    let t := -(p.1 * sq / 2 ^ 60) / (2 * k * (2 * k + 1))
    (t, p.2 + t)) (a, a)).2
  let s := (sum * 32768 + 2 ^ 59) / 2 ^ 60
  if 2 ≤ q then -s else s

/-- The taps of R427. -/
def prbsTaps : Nat → List Nat
  | 7 => [1] | 8 => [2, 3, 4] | 9 => [4] | 10 => [3] | 11 => [2] | 12 => [1, 2, 8] | 13 => [1, 2, 5] | 14 => [1, 2, 12] | 15 => [1]
  | _ => []

/-- The next bit of a PRBS, from its bits so far, newest first (R427). -/
def prbsNext (order : Nat) (l : List Bool) : Bool :=
  if l.length < order then true
  else (prbsTaps order).foldl (fun b k => b != (l[k - 1]?).getD false) ((l[order - 1]?).getD false)

/-- Chirp phase increment of update j: f_j × T_p × 2^32 rounded half upward (R426). -/
def Core.chirpStep (c : Core) (n j : Nat) : Int :=
  let f0 : Int := c.regN (lpA A.INJ_F0 n)
  let f1 : Int := c.regN (lpA A.INJ_F1 n)
  let dur : Int := c.injDur n
  let num := (f0 * dur + (f1 - f0) * j) * (c.loopTicks n : Int) * 2 ^ 32
  let den := 64000000 * dur
  if den = 0 then 0 else (2 * num + den) / (2 * den)

/-- A sample of a multisine table (R428). -/
def Core.msSample (c : Core) (t i : Nat) : Int := SMap.get 0 c.lp.ms (t * 4096 + i)

/-- x of the next update of an injection, and the injection after it (R426). The sine may be off by up to two. -/
def Core.injNext (n : Nat) (c : Core) : Core × Int :=
  let i := (c.loop n).inj
  let amp := sx 16 (c.fld (lpA A.INJ_AMP n) 15 0)
  let hold := c.injHold n
  match c.injField n 29 28 with
  | 0 => (c.onInj n fun i => { i with j := i.j + 1, x := amp }, amp)
  | 1 =>
    let bits_ := if i.j % hold = 0 then (prbsNext (c.injField n 27 24) i.prbs :: i.prbs).take 16 else i.prbs
    let x := satQ15 (if bits_.head?.getD true then amp else -amp)
    (c.onInj n fun i => { i with j := i.j + 1, x := x, prbs := bits_ }, x)
  | 2 =>
    let (r, c1) := c.freeNat
    let x := satQ15 ((amp * (sineQ15 i.theta + ((r % 5 : Nat) : Int) - 2) + 16384) / 32768)
    (c1.onInj n fun i => { i with j := i.j + 1, x := x, theta := (((i.theta : Int) + c.chirpStep n i.j) % 2 ^ 32).toNat }, x)
  | _ =>
    let t := c.injField n 23 21
    let len := SMap.get 0 c.lp.msLen t
    let x := satQ15 ((c.msSample t (i.j / hold % max 1 len) * amp + 16384) / 32768)
    (c.onInj n fun i => { i with j := i.j + 1, x := x }, x)

/-- The firing of CAP_EN at update 0 (R430, R598): a unit that could not be armed is logged as missed. -/
def Core.injFire (n : Nat) (t : Time) (c : Core) : Core :=
  if c.injField n 20 20 = 0 then c else
  let u := c.injField n 19 14
  let (i, c1) := c.logFiring 0xFFFF 0xFFFF t 4
  let (c2, tk, _) := c1.offerUnit u 0xFFFF t i 0x200
  c2.markLog i u tk (!tk)

/-- The reason for which an injection ends now, if any (R431). -/
def Core.injReason (c : Core) (n : Nat) : Option Nat :=
  let l := c.loop n
  if l.inj.running ∧ c.injDur n ≤ l.inj.j then some 1
  else if c.md.mode = .run ∨ (c.running ∧ c.host.svcOwner.isNone) then some 4
  else if !injState (c.injPoint n) l.mode then some 5
  else if l.stale || l.frozen then some 6
  else if !c.running then some 7
  else none

/-- Ends the injection of a loop when a reason holds. -/
def Core.injCheck (n : Nat) (c : Core) : Core :=
  let i := (c.loop n).inj
  if i.running || i.waiting then (match c.injReason n with | some r => c.injEnd n r | none => c) else c

/-- The injection at a computed update: starts at update 0, ends, or gives x (R425, R426, R429). -/
def Core.injUpdate (n : Nat) (t : Time) (c : Core) : Core × Int :=
  let c1 := c.injCheck n
  let i := (c1.loop n).inj
  if i.waiting then
    ((c1.onInj n fun i => { i with waiting := false, running := true, j := 0, theta := 0, prbs := [] }).injFire n t).injNext n
  else if i.running then c1.injNext n
  else (c1.onInj n fun i => { i with x := 0 }, 0)

/-- The refusal of a START and its status (R429). -/
def Core.injRefusal (c : Core) (n : Nat) : Option (Nat × Nat) :=
  let l := c.loop n
  let sig := c.injField n 29 28
  let half := 32000000 / c.loopTicks n
  let order := c.injField n 27 24
  let u := c.injField n 19 14
  if c.injPoint n = 0 then some (1, 0x08)
  else if !injState (c.injPoint n) l.mode then some (2, 0x03)
  else if l.inj.running || l.inj.waiting then some (3, 0x0F)
  else if c.injDur n = 0 ∨ (sig = 1 ∧ (order < 7 ∨ 15 < order)) ∨
      (sig = 2 ∧ (half < c.regN (lpA A.INJ_F0 n) ∨ half < c.regN (lpA A.INJ_F1 n))) then some (4, 0x08)
  else if sig = 3 ∧ SMap.get 0 c.lp.msLen (c.injField n 23 21) = 0 then some (5, 0x08)
  else if c.injField n 20 20 = 1 ∧ (!c.unitDeclared u || (c.unit u).st != .idle) then some (6, 0x0F)
  else if l.aborted then some (7, 0x0F)
  else none

/-- INJ_START accepted by the access tests; answers the status (R429, R598). -/
def Core.injStart (n : Nat) (c : Core) : Core × Nat :=
  match c.injRefusal n with
  | some (r, st) => ((c.onInj n fun i => { i with refuse := r }).raise 0x0942 (lpPath n 2), st)
  | none =>
    let c1 := c.onInj n fun i => { i with waiting := true, endReason := 0, refuse := 0, j := 0, x := 0 }
    let c2 := if c.injField n 20 20 = 1 then (c1.arm (c.injField n 19 14) c.now).1 else c1
    (c2.raise 0x0915 (lpPath n 2), 0)

/-- INJECTION_END (R431): the injection of a loop ends when its reason has come. -/
def execInjectionEnd (n : Nat) (s : State) : Host.Outcome State Fault Refusal := coreCmd (Core.injCheck n) s

end Sys2Proof.Machine
end

