-- ==== Sys2Proof/Machine/Loops.lean ====
section
/-!
DEFINITION. Machine/Loops.lean: the loop engine: requests, feedback, the loop law, output and states (R359 to R391).
-/

namespace Sys2Proof.Machine

/-! ## Arithmetic (R363 to R369) -/

/-- A sum or product in a 40-bit accumulator: it saturates (R363). -/
def sat40 (x : Int) : Int := clampI (-(2 ^ 39)) (2 ^ 39 - 1) x

/-- A gain term (R365): MANT × x, shifted left. -/
def Core.gain (c : Core) (key n : Nat) (x : Int) : Int := sat40 (c.lpQ15 key n 0 * x * 2 ^ c.lpFld key n 19 16)

/-- A gain-table node of a loop (R367). -/
def Core.node (c : Core) (n j : Nat) : Int := ((SMap.get 0 (c.loop n).nodes j : Nat) : Int)

/-- e_g (R366 step 3, R367). -/
def Core.tableGain (c : Core) (n : Nat) (e : Int) : Int :=
  let g (a w : Nat) : Int :=
    let j := a / w
    c.node n j + ((c.node n (j + 1) - c.node n j) * ((a % w : Nat) : Int)) / w
  match c.lpFld A.LP_CFG n 9 8 with
  | 1 => q30to15 (e * g e.natAbs 512)
  | 2 => q30to15 (e * g (e + 32768).toNat 1024)
  | _ => e

/-- y from the raw value (R368). -/
def Core.convertIn (c : Core) (n : Nat) (raw : Int) : Int :=
  satQ15 ((raw - c.sreg (lpA A.LP_FB_OFFSET n)) * c.lpQ15 A.LP_FB_SCALE n 0 / 2 ^ c.lpFld A.LP_FB_SCALE n 20 16)

/-- The output word (R368), saturated to the point. -/
def Core.convertOut (c : Core) (n : Nat) (u : Int) : Int :=
  let x := c.sreg (lpA A.LP_OUT_OFFSET n) + u * c.lpQ15 A.LP_OUT_SCALE n 0 * 2 ^ c.lpFld A.LP_OUT_SCALE n 20 16 / 32768
  match c.point (c.lpFld A.LP_OUT_TAG n 24 0) with
  | some (_, pt) =>
    let w := ptWidth pt
    if signedType (ptType pt) then clampI (-(2 ^ (w - 1))) (2 ^ (w - 1) - 1) x else clampI 0 (2 ^ w - 1) x
  | none => x

/-- r moves toward SP by at most SP_RAMP (R366 step 1). -/
def Core.ramp (c : Core) (n : Nat) (r sp : Int) : Int :=
  let s : Int := c.lpFld A.LP_SP_RAMP n 15 0
  if s = 0 then sp else r + clampI (-s) s (sp - r)

/-- A step from u_prev under RATE_UP and RATE_DN, 0 meaning no limit. -/
def Core.rateLimit (c : Core) (n : Nat) (prev target : Int) : Int :=
  let up : Int := c.lpFld A.LP_RATE n 31 16
  let dn : Int := c.lpFld A.LP_RATE n 15 0
  let d := target - prev
  prev + (if up ≠ 0 ∧ up < d then up else if dn ≠ 0 ∧ d < -dn then -dn else d)

/-- The output last written, or MAN_OUT (R372, R387). -/
def LoopSt.prev (l : LoopSt) : Int := if l.wrote then l.u else l.man

/-- Step 7 from v: u with the flags of the limits (R366, R369), written to the output point (R361). -/
def Core.writeOut (n : Nat) (v : Int) (c : Core) : Core :=
  let l := c.loop n
  let lo := c.lpQ15 A.LP_OUT_LIM n 0
  let hi := c.lpQ15 A.LP_OUT_LIM n 16
  let u1 := clampI lo hi v
  let u := c.rateLimit n l.prev u1
  let word := c.convertOut n u
  let high := decide (hi < v) || decide (u < u1)
  let low := decide (v < lo) || decide (u1 < u)
  let c1 := c.onLoop n fun l => { l with
    u := u, out := word, wrote := true, limHi := high, limLo := low, rateLim := decide (u ≠ u1),
    clampHi := decide (u = hi), clampLo := decide (u = lo) }
  (if high || low then c1.bump (lpA A.LP_LIMITED n) else c1).outPoint (c.lpFld A.LP_OUT_TAG n 24 0) word

/-! ## Requests at the period start (R371 to R380) -/

/-- A mode request is applied (R372, R373). -/
def Core.setLoopMode (n : Nat) (m : LoopMode) (c : Core) : Core := c.onLoop n fun l =>
  match m with
  | .closed => if l.mode = .closed then l else { l with mode := .closed, reclose := true, preClip := false }
  | .manual => { l with mode := .manual, man := if l.mode = .closed then l.prev else l.man, reclose := false }
  | .open => { l with mode := .open, reclose := false, limHi := false, limLo := false, rateLim := false }

/-- An ABORT of the loop law takes effect (R375). -/
def Core.loopAbortNow (n : Nat) (c : Core) : Core := c.onLoop n fun l => { l with
  man := l.prev, mode := .manual, aborted := true, abortReq := false, ignoredRaised := false, reclose := false }

/-- An ABORT of channel 0 arrives: at the next period start, or at once while the loop is not computed (R375). -/
def Core.loopAbort (n : Nat) (c : Core) : Core :=
  if c.running then c.onLoop n fun l => { l with abortReq := true, modeReq := none } else c.loopAbortNow n

/-- A program mode request while ABORTED is ignored (R375). -/
def Core.loopIgnore (n : Nat) (c : Core) : Core :=
  let first := !(c.loop n).ignoredRaised
  (c.onLoop n fun l => { l with ignored := min 255 (l.ignored + 1), ignoredRaised := true }).raiseIf first 0x0905 (lpPath n 0)

/-- A released CMTLP of a kind arrives (R379, R380). -/
def Core.loopRelease (n kind : Nat) (v : Word) (c : Core) : Core :=
  match kind with
  | 0 => c.onLoop n fun l => { l with spReq := some (sx 16 (bits v 15 0)) }
  | 1 => c.onLoop n fun l => { l with manReq := some (sx 16 (bits v 15 0)) }
  | _ =>
    let m := bits v 1 0
    if m = 0 then c
    else if (c.loop n).aborted || (c.loop n).abortReq then c.loopIgnore n
    else c.onLoop n fun l => { l with modeReq := some (if m = 1 then .open else if m = 2 then .manual else .closed, false) }

/-- A host write to LP_CTL.MODE_REQ (R371, R375). -/
def Core.loopModeReq (n m : Nat) (c : Core) : Core :=
  if m = 0 then c else c.onLoop n fun l => { l with
    aborted := false, modeReq := some (if m = 1 then .open else if m = 2 then .manual else .closed, true) }

/-- What arrived before a period start takes effect: coefficients, then values, then the mode (R377 to R380). -/
def Core.loopRequests (n : Nat) (c : Core) : Core :=
  let l0 := c.loop n
  let c1 := (c.onLoop n fun l => { l with
    coefOld := [], nodeReq := [], nodes := l.nodeReq.foldl (fun m p => SMap.set 0 m p.1 p.2) l.nodes,
    sp := l.spReq.getD l.sp, man := l.manReq.getD l.man, spReq := none, manReq := none }).rcRequests n l0.coefOld
  let c2 := if (c1.loop n).abortReq then
      let d := c1.loopAbortNow n
      match l0.modeReq with
      | some (_, true) => d.onLoop n fun l => { l with aborted := false }
      | _ => d
    else c1
  match (c2.loop n).modeReq with
  | some (m, _) => (c2.setLoopMode n m).onLoop n fun l => { l with modeReq := none }
  | none => c2

/-! ## Feedback (R381 to R385) -/

/-- Reads the feedback point, judges it and raises its events. -/
def Core.loopFeedback (n : Nat) (c : Core) : Core :=
  let tag := c.lpFld A.LP_FB_TAG n 24 0
  match c.point tag with
  | none => c.onLoop n fun l => { l with stale := true }
  | some (m, pt) =>
    let l := c.loop n
    let seq := (c.mod m).act.seq
    let raw := c.inForced tag m pt
    let fresh := (c.mod m).hasData && l.lastSeq != some seq
    let age := if fresh then 0 else min 255 (l.age + 1)
    let sn := c.lpFld A.LP_STALE_CTL n 23 16
    let stale := (decide (sn ≠ 0) && decide (sn ≤ age)) || !c.inOperation m
    let fz := c.lpFld A.LP_FROZEN n 7 0
    let idle := decide (fz = 0) || (c.forceOn tag).isSome
    let same := if idle then 0 else if !fresh then l.sameRun else if l.sameRun ≠ 0 ∧ raw = l.sameRaw then min 255 (l.sameRun + 1) else 1
    let frozen := !idle && decide (fz ≤ same)
    let was := l.stale || l.frozen
    let begS := stale && !l.stale
    let begF := frozen && !l.frozen
    let ovr := was && !(stale || frozen)
    let c1 := c.onLoop n fun l => { l with
      raw := raw, lastSeq := if (c.mod m).hasData then some seq else l.lastSeq, age := age, stale := stale, frozen := frozen
      sameRun := same, sameRaw := raw, y := c.convertIn n raw
      staleEp := if begS then min 4095 (l.staleEp + 1) else l.staleEp
      frozenEp := if begF then min 4095 (l.frozenEp + 1) else l.frozenEp
      reclose := l.reclose || (ovr && l.mode == .closed && decide (c.lpFld A.LP_STALE_CTL n 31 30 ≠ 0)) }
    ((c1.raiseIf begS 0x0901 (lpPath n 0)).raiseIf begF 0x0903 (lpPath n 0)).raiseIf ovr 0x0902 (lpPath n 0)

/-! ## The law -/

/-- The first y sets r and yf (R387). -/
def Core.loopFirst (n : Nat) (c : Core) : Core :=
  if (c.loop n).started then c else c.onLoop n fun l => { l with r := l.y, yf := l.y, started := true }

/-- Steps 1, 2 and 4c: ramp, error and filter; answers r and e as used, and yf − yf_prev (R366, R425). -/
def Core.loopTrack (n : Nat) (x : Int) (c : Core) : Core × Int × Int × Int :=
  let l := c.loop n
  let pt := c.injPoint n
  let r0 := c.ramp n l.r l.sp
  let r := if pt = 1 then satQ15 (r0 + x) else r0
  let e := satQ15 (r - l.y + (if pt = 2 then x else 0))
  let yf := satQ15 (l.yf + (c.lpFld A.LP_DFILT n 16 0 * (l.y - l.yf) + 16384) / 32768)
  (c.onLoop n fun l => { l with r := r0, e := e, yf := yf }, r, e, yf - l.yf)

/-- The full law of a CLOSED period (R366, R369, R372). -/
def Core.loopClosed (n : Nat) (x r e dyf cq : Int) (c : Core) : Core :=
  let l := c.loop n
  let eg := c.tableGain n e
  let p := c.gain A.LP_KP n eg
  let d := -(c.gain A.LP_KD n dyf)
  let f := sat40 (c.gain A.LP_KFF n r + c.lpQ15 A.LP_BIAS n 0 * 32768)
  let cc := cq * 32768
  let lim : Int := c.lpFld A.LP_ILIM n 15 0 * 32768
  let pre := l.prev * 32768 - sat40 (sat40 (sat40 (p + d) + f) + cc)
  let inc := c.gain A.LP_KI n eg
  let held := (decide (0 < inc) && l.limHi) || (decide (inc < 0) && l.limLo)
  let i := if l.reclose then clampI (-lim) lim pre else if held then clampI (-lim) lim l.i else clampI (-lim) lim (sat40 (l.i + inc))
  let clip := l.reclose && decide (i ≠ pre)
  let sum := sat40 (sat40 (sat40 (sat40 (p + i) + d) + f) + cc)
  let v := q30to15 (sat40 (sum + (if c.injPoint n = 3 then x * 32768 else 0)))
  let c1 := (c.onLoop n fun l => { l with
    eg := eg, p := q30to15 p, d := q30to15 d, f := q30to15 f, c := cq, i := i, v := v, reclose := false,
    preClip := if l.reclose then clip else l.preClip }).raiseIf clip 0x0904 (lpPath n 0)
  c1.writeOut n v

/-- A CLOSED period with stale or frozen feedback under HOLD or RAMP_TO (R384). -/
def Core.loopHeld (n policy : Nat) (c : Core) : Core :=
  let l := c.loop n
  let u := if policy = 1 then l.prev else c.rateLimit n l.prev (c.lpQ15 A.LP_STALE_CTL n 0)
  let word := c.convertOut n u
  let lim := decide (policy ≠ 1) && decide (u ≠ c.lpQ15 A.LP_STALE_CTL n 0)
  let c1 := c.onLoop n fun l => { l with
    u := u, out := word, wrote := true, limHi := lim && decide (l.prev < u), limLo := lim && decide (u < l.prev), rateLim := lim,
    clampHi := decide (u = c.lpQ15 A.LP_OUT_LIM n 16), clampLo := decide (u = c.lpQ15 A.LP_OUT_LIM n 0)
    r := if policy = 1 then l.r else c.ramp n l.r l.sp }
  (if lim then c1.bump (lpA A.LP_LIMITED n) else c1).outPoint (c.lpFld A.LP_OUT_TAG n 24 0) word

/-- Status word of a loop (R394). -/
def LoopSt.status (l : LoopSt) : Word :=
  wd (l.age * 2 ^ 24 + flg l.preClip 8 + flg l.aborted 7 + flg l.rateLim 6 + flg l.clampLo 5 + flg l.clampHi 4 + flg l.frozen 3 +
    flg l.stale 2 + (match l.mode with | .open => 1 | .manual => 2 | .closed => 3))

/-- r as the law stores it, an injection at the setpoint included. -/
def Core.loopR (c : Core) (n : Nat) : Int :=
  if c.injPoint n = 1 then satQ15 ((c.loop n).r + (c.loop n).inj.x) else (c.loop n).r

/-- Class 3 signal of a loop (R391, R432). -/
def Core.loopSig (c : Core) (n k : Nat) : DWord :=
  let l := c.loop n
  let i (v : Int) : DWord := BitVec.ofInt 64 v
  let u (v : Nat) : DWord := BitVec.ofNat 64 v
  match k with
  | 0 => i l.sp | 1 => i (c.loopR n) | 2 => i l.y | 3 => i l.e | 4 => i l.eg | 5 => i l.p | 6 => i l.i | 7 => i l.d | 8 => i l.f
  | 9 => i l.c | 10 => i l.v | 11 => i l.u | 12 => i l.yf | 13 => u (l.status.toNat % 512 + l.age * 65536) | 14 => i l.raw
  | 15 => i l.out | 16 => u ((l.lrn.dwell.map Dwell.k).getD 0) | 17 => u l.lrn.phi | 18 => u l.lrn.leadEff | 19 => i l.lrn.rk
  | 20 => u l.lrn.w | 21 => i l.lrn.ebar | 22 => u l.lrn.target | 23 => u (l.rcStatus.toNat % 512) | 24 => i l.inj.x
  | 25 => u (l.injStatus.toNat / 65536)
  | 26 => let (d, e) := l.lrn.speed; u (if e = 0 then 0 else d * second / e)
  | 27 => u l.lrn.learned | 28 => u l.lrn.skipped | 29 => u l.lrn.paused
  | _ => 0

/-- Whether anything watches a tag: a stream entry, a capture unit or a condition (R535). -/
def Core.watched (c : Core) (t : Tag) : Bool :=
  c.spr.entries.any (fun e => e.tag == t) || c.image.units.any (fun p => p.2.contains t) ||
    (List.range 128).any (fun x => c.trigRuns x && c.regN (A.TR_TAG + 0x40 * x) == t)

/-- The class 3 observations of an update, at its period start (R535). -/
def Core.loopObserve (n : Nat) (t : Time) (c : Core) : Core :=
  forN 30 (fun k d => if d.watched (loopTag n k) then d.observe (loopTag n k) (d.loopSig n k) t (d.loop n).stale else d) c

/-- One computed update (R366, R370). -/
def Core.loopCompute (n : Nat) (t : Time) (c : Core) : Core :=
  let el := t - ((c.loop n).lastUpd.getD t)
  let c0 := ((c.loopRequests n).loopFeedback n).loopFirst n
  let (c1, x) := c0.injUpdate n t
  let l := c1.loop n
  let bad := l.stale || l.frozen
  let policy := c1.lpFld A.LP_STALE_CTL n 31 30
  let hold := l.mode = .closed ∧ bad = true ∧ policy ≠ 0
  let c2 := if hold then (c1.rcStep n t el l.e true true).1.loopHeld n policy
    else
      let (d, r, e, dyf) := c1.loopTrack n x
      let (d1, cq) := d.rcStep n t el e (l.mode == .closed) bad
      match l.mode with
      | .closed => d1.loopClosed n x r e dyf cq
      | .manual => (d1.onLoop n fun l => { l with c := cq }).writeOut n (satQ15 (l.man + (if c1.injPoint n = 3 then x else 0)))
      | .open => d1.onLoop n fun l => { l with c := cq }
  (c2.onLoop n fun l => { l with lastStart := some t, lastUpd := some t, fresh := false }).loopObserve n t

/-- Whether the device is outside the contract corner (R234, R236): throttle, VCORE, temperature. -/
def Core.outsideCorner (c : Core) : Bool :=
  decide (250 < c.fab.throttle) || decide (c.pw.vcore < 680) || c.pw.temps.any (fun t => decide (1680 < t))

/-- Highest lane load in ‰: loops due at a tick on a lane at 60 ns each (R360, R403). -/
def Core.laneLoad (c : Core) (t : Time) : Nat :=
  (List.range 8).foldl (fun m k =>
    max m ((c.image.loops.filter fun n => n % 8 == k && decide (tickOf t % c.loopTicks n = 0)).length * 60 * 1000 / 15625)) 0

/-- LOOP_UPDATE: the loop's update at the period start that device time has reached (R359, R362, R374). -/
def Core.loopUpdate (n : Nat) (c : Core) : Core :=
  let t := c.now / tickLen * tickLen
  let l := c.loop n
  let due := c.running && c.image.loops.contains n && decide (tickOf t % c.loopTicks n = 0) &&
    decide (c.plumb.stepTo ≤ t) && (match l.lastStart with | some s => l.fresh || decide (s < t) | none => true)
  if !due then c else
  let c0 := { c with lp := { c.lp with loadMax := max c.lp.loadMax (c.laneLoad t) } }
  let late := match l.busyUntil with | some b => decide (t ≤ b) | none => false
  if late then
    let c1 := c0.onLoop n fun l => { l with busyUntil := none, lastStart := some t, fresh := false }
    ((c1.bump (lpA A.LP_LATE n)).bump A.LE_LATE_TOTAL).raiseEvery second 0x0941 (lpPath n 0)
  else if c0.outsideCorner then
    let (b, c1) := c0.freeBit
    (c1.onLoop n fun l => { l with busyUntil := if b then some (t + c.loopTicks n * tickLen) else none }).loopCompute n t
  else c0.loopCompute n t

/-! ## Start and modes (R374, R387, R388) -/

/-- A loop starts: INIT_MODE, r and yf at the first y, u_prev at MAN_OUT; `keep` is the integrator of a warm restart. -/
def Core.loopStart (n : Nat) (keep : Option Int) (c : Core) : Core :=
  let mode : LoopMode := match c.lpFld A.LP_CFG n 6 5 with | 2 => .manual | 3 => .closed | _ => .open
  c.onLoop n fun _ => {
    mode := mode
    sp := c.lpQ15 A.LP_SP n 0
    man := c.lpQ15 A.LP_MAN_OUT n 0
    u := c.lpQ15 A.LP_MAN_OUT n 0
    i := keep.getD 0
    reclose := decide (mode = .closed) && keep.isNone
    nodes := (c.image.nodes.filter fun p => p.1 == n).foldl (fun m p => SMap.set 0 m p.2.1 p.2.2) [] }

/-- Return to Run: CLOSED loops reclose with u_ref equal to their last output (R374). -/
def Core.loopsRun (c : Core) : Core :=
  forL c.image.loops (fun n d => d.onLoop n fun l =>
    { l with reclose := l.reclose || (l.mode == .closed && l.wrote) }) c

/-- Loops now stale or frozen (R403), and injecting (R442). -/
def Core.loopsStale (c : Core) : Nat := (c.image.loops.filter fun n => (c.loop n).stale || (c.loop n).frozen).length
def Core.loopsInj (c : Core) : Nat := (c.image.loops.filter fun n => (c.loop n).inj.running).length

def execLoopUpdate (n : Nat) (s : State) : Host.Outcome State Fault Refusal := coreCmd (Core.loopUpdate n) s

end Sys2Proof.Machine
end

