-- ==== Sys2Proof/Machine/Ashlar.lean ====
section
/-!
DEFINITION. Machine/Ashlar.lean: the Ashlar engine (14_ashlar_line_ports): schedule, enumeration, port cycles with their course
frames, stone frames, recovery rounds and safety containers.
-/

namespace Sys2Proof.Machine

/-! ## Ports and modules -/

def prtPath (p : Nat) : Nat := path 3 p allOf
/-- Path of a module: its slot on its port (R651). -/
def modPath (m : Nat) : Nat := path 3 (m / 512) (m % 512)
/-- Address of a port's register from port 0's. -/
def ashA (key p : Nat) : Nat := key + 0x40 * p
def Core.ashRole (c : Core) (p : Nat) : Nat := c.fld (ashA A.ASH_PORT_CFG p) 31 28
/-- Whether the line has two ends (R613, R631). -/
def Core.dual (c : Core) (p : Nat) : Bool := c.ashRole p == 2 || c.ashRole p == 4
/-- Byte time in 0.1 ns (R616). -/
def Core.byteTime (c : Core) (p : Nat) : Nat := if c.flag (ashA A.ASH_PORT_CFG p) 27 then 32 else 80
/-- Port cycle in ns. -/
def Core.portNs (c : Core) (p : Nat) : Nat := c.portLen p / 65536
/-- The image's entry of a module. -/
def Core.modDef (c : Core) (m : Nat) : Option ModuleDef :=
  c.image.modules.find? fun d => d.port * 512 + d.slot == m
/-- Module numbers of the port's entries, in slot order. -/
def Core.portMods (c : Core) (p : Nat) : List Nat :=
  (List.range 512).filterMap fun s => if (c.modDef (p * 512 + s)).isSome then some (p * 512 + s) else none
/-- Whether a module has been matched and configured. -/
def Core.matched (c : Core) (m : Nat) : Bool :=
  let s := (c.mod m).st
  s == .found || s == .operational || s == .lost

/-! ## The schedule (R616 to R618) -/

/-- What the schedule takes of a position: whether it has a slot, its bytes, its times in ns. -/
structure PosTime where
  slotted : Bool
  mod : Nat
  inB : Nat
  outB : Nat
  /-- Payload of its safety container; 0 none. -/
  safe : Nat
  fwd : Nat
  lat : Nat
  linkA : Nat
  linkB : Nat
  /-- MS_SAMPLE_NS. -/
  sample : Nat
  deriving DecidableEq, Repr

/-- The schedule of a port, times in ns; per slotted position: module, SLOT_A, SLOT_B, SAMPLE, D_A, D_B. -/
structure PortSched where
  up : Nat
  apply : Nat
  /-- End of the last window and downstream wire time, in 0.1 ns. -/
  upEnd : Nat
  down : Nat
  ok : Bool
  rows : List (Nat × Nat × Nat × Nat × Nat × Nat)
  deriving DecidableEq, Repr

/-- Wire time of a frame in 0.1 ns. -/
def wire (tb payload : Nat) : Nat := (max payload 46 + 38) * tb

/-- W of a module's window. -/
def PosTime.window (tb : Nat) (x : PosTime) : Nat := wire tb (36 + x.inB) + (if x.safe = 0 then 0 else wire tb x.safe)

/-- A_m − A_0 in ns of each position in order, and the end of the last window in 0.1 ns. -/
def offsets (tb guard : Nat) : Nat → Nat → List PosTime → List Nat × Nat
  | _, e, [] => ([], e)
  | a, e, x :: l =>
    if x.slotted then
      let w := x.window tb
      let (r, e1) := offsets tb guard (cdiv (10 * a + w + 10 * guard) 10) (10 * a + w) l
      (a :: r, e1)
    else let (r, e1) := offsets tb guard a e l; (a :: r, e1)

/-- D of each position from one end: links and forwarding between it and the ball. -/
def delays (link : PosTime → Nat) : Nat → List PosTime → List Nat
  | _, [] => []
  | d, x :: l => (d + link x) :: delays link (d + link x + x.fwd) l

/-- Segments packed into course frames in slot order, none split: up to 1,500 payload bytes a frame (R622). A segment is a module and
its OUT_BYTES. -/
def packSegs : Nat → List (Nat × Nat) → List (Nat × Nat) → List (List (Nat × Nat))
  | _, cur, [] => [cur]
  | n, cur, s :: l =>
    let g := 4 + (s.2 + 3) / 4 * 4
    if s.2 = 0 then packSegs n cur l
    else if 1484 < n + g then cur :: packSegs g [s] l
    else packSegs (n + g) (cur ++ [s]) l

/-- Bytes after the header of a course frame. -/
def segBytes (l : List (Nat × Nat)) : Nat := l.foldl (fun n s => n + 4 + (s.2 + 3) / 4 * 4) 0

/-- Payloads of the course frames of a port cycle. -/
def coursePayloads (l : List (Nat × Nat)) : List Nat := (packSegs 0 [] l).map fun f => 16 + segBytes f

/-- Positions with their values of two tables. -/
def zip3 {α β γ : Type} : List α → List β → List γ → List (α × β × γ)
  | a :: as, b :: bs, g :: gs => (a, b, g) :: zip3 as bs gs
  | _, _, _ => []

/-- The schedule of a port over its positions. -/
def Core.schedule (c : Core) (p : Nat) (ps : List PosTime) : PortSched :=
  let tb := c.byteTime p
  let guard := c.regN (ashA A.ASH_GUARD_NS p)
  let dual := c.dual p
  let (offA, endA) := offsets tb guard 0 0 ps
  let (offBr, endB) := offsets tb guard 0 0 ps.reverse
  let dA := delays PosTime.linkA 0 ps
  let dBr := delays PosTime.linkB 0 ps.reverse
  let need (l : List PosTime) (d o : List Nat) : Nat :=
    (zip3 l d o).foldl (fun m (x, d, o) => if x.slotted then max m (d + x.lat - o) else m) 0
  let up := max (c.regN (ashA A.ASH_UP_START p)) (max (need ps dA offA) (if dual then need ps.reverse dBr offBr else 0))
  let course := ((coursePayloads (ps.map fun x => (x.mod, if x.slotted then x.outB else 0))).map (wire tb)).foldl (· + ·) 0
  let safes := (ps.map fun x => if x.slotted ∧ x.safe ≠ 0 then wire tb x.safe else 0).foldl (· + ·) 0
  let down := course + safes + (84 + 128) * tb
  let top (d : List Nat) : Nat := d.foldl max 0
  let dmax := if dual then max (top dA) (top dBr) else top dA
  let apply := max (c.regN (ashA A.ASH_APPLY_NS p)) (cdiv (10 * dmax + course + safes + 10000) 10)
  let upEnd := 10 * up + (if dual then max endA endB else endA)
  let dB := dBr.reverse
  let offB := offBr.reverse
  { up := up, apply := apply, upEnd := upEnd, down := down,
    ok := decide (upEnd + 10000 ≤ 10 * c.portNs p) && decide (down + 10000 ≤ 10 * c.portNs p) && decide (apply < c.portNs p),
    rows := (zip3 ps (dA.zip offA) (dB.zip offB)).filterMap fun (x, (da, oa), (db, ob)) =>
      if x.slotted then
        let sa := up + oa - da
        let bound := sa - x.lat
        some (x.mod, sa, if dual then up + ob - db else 0xFFFFFFFF,
          if x.sample ≠ 0 ∧ x.sample ≤ bound then x.sample else bound, da, db)
      else none }

/-- Bytes of a safety payload with its padding and SCRC: SAFE_LEN (R641, R757). -/
def safeLen (len : Nat) : Nat := 4 + (len + 3) / 4 * 4 + 4

/-- Payload of a safety container of a connection (R641, R757): the block's data length, or the longest. -/
def Core.safePayload (c : Core) (id : Nat) : Nat :=
  if id = 0 then 0 else
  let len := match ((c.up.safeA.toList ++ c.up.safeB.toList).find? fun b => b.hash == c.image.safetyRef).bind fun b => b.conns.find? (fun k => k.safeId == id) with
    | some k => k.dataLen
    | none => 24
  30 + safeLen len

/-- The positions of a port as the image check takes them (R618). -/
def Core.planPositions (c : Core) (p : Nat) : List PosTime :=
  let ms := c.portMods p
  let n := ms.foldl (fun n m => max n (m % 512 + 1)) 0
  let link := c.regN (ashA A.ASH_LINK_MAX_NS p)
  (List.range n).map fun s =>
    match c.modDef (p * 512 + s) with
    | some d => { slotted := true, mod := p * 512 + s, inB := d.inBytes, outB := d.outBytes, safe := c.safePayload d.safeId,
                  fwd := 400, lat := 0, linkA := link, linkB := link, sample := c.regN (msA A.MS_SAMPLE_NS (p * 512 + s)) }
    | none => { slotted := false, mod := p * 512 + s, inB := 0, outB := 0, safe := 0, fwd := 400, lat := 0, linkA := link,
                linkB := link, sample := 0 }

/-- The positions of a port as enumerated. -/
def Core.foundPositions (c : Core) (p : Nat) : List PosTime :=
  (List.range (c.port p).found).map fun s =>
    let m := p * 512 + s
    let x := c.mod m
    { slotted := c.matched m, mod := m, inB := x.inBytes, outB := x.outBytes,
      safe := c.safePayload (((c.modDef m).map (·.safeId)).getD 0), fwd := x.fwd, lat := x.sendLat, linkA := x.linkA,
      linkB := x.linkB, sample := c.regN (msA A.MS_SAMPLE_NS m) }

/-! ## Enumeration (R633 to R638) -/

/-- FLAGS of a downstream frame (R620). -/
def Core.downFlags (c : Core) (running : Bool) : Nat := flg c.mr.unitB 0 + flg (!running) 1

/-- The header of a frame that a port sends (R619, R620). -/
def Core.ashHdr (c : Core) (p type length : Nat) : AshHdr :=
  { port := p, etype := (c.port p).etype, type := type, length := length, claim := if type = 6 ∨ type = 7 then c.claimNow else 0,
    cycle := (c.port p).cycle, flags := c.downFlags c.running }

/-- A downstream frame leaves a port: from both ports of a ring (R631). -/
def Core.sendAsh (p type length : Nat) (ws : List Nat) (c : Core) : Core :=
  let c1 := if (c.port p).linkUp then c.emit (.ash (c.ashHdr p type length) ws) else c
  if c.ashRole p = 2 ∧ (c.port (p + 1)).linkUp then c1.emit (.ash { c.ashHdr p type length with port := p + 1 } ws) else c1

/-- The slot of a position as this unit counts it, and back: the second end of a pair's line counts from its own end (R613). -/
def Core.posSlot (c : Core) (p n : Nat) : Nat := if c.ashRole p = 4 ∧ c.mr.unitB then (c.port p).found - 1 - n else n

/-- What a report says of a module. -/
def Mod.ofReport (r : ModReport) (x : Mod) : Mod := { x with
  vendor := r.vendor, product := r.product, revision := r.revision, serial := r.serial, inBytes := r.inBytes,
  outBytes := r.outBytes, fwd := r.fwd, sendLat := r.sendLat, caps := r.caps, linkA := r.linkA, linkB := r.linkB }

/-- A found position is matched against its entry (R637). -/
def Core.matchPos (p s : Nat) (c : Core) : Core :=
  let m := p * 512 + s
  let rs := (c.port p).got.filter fun r => c.posSlot p r.slot == s
  let pts := rs.flatMap (·.points)
  match c.modDef m, rs.find? (fun r => r.part == 0) with
  | none, _ =>
    (c.onPort p fun x => { x with unexpected := min 1023 (x.unexpected + 1) }).raise 0x0342 (modPath m)
  | some _, none => (c.onMod m fun x => { x with st := .mismatch, points := [] }).raise 0x0342 (modPath m)
  | some d, some r =>
    if r.identCrc = d.identCrc ∧ rs.length = r.parts then
      let new := decide ((c.mod m).serial ≠ 0) && decide ((c.mod m).serial ≠ r.serial)
      (((c.onMod m fun x => { x.ofReport r with
        st := .found, points := pts, missing := 0, missA := 256, missB := 256, first := true, conf := 0, lastCycle := none }).fillMeta
          m).raiseIf new 0x0304 (modPath m))
    else (c.onMod m fun x => { x.ofReport r with st := .mismatch, points := [] }).raise 0x0342 (modPath m)

/-- The settings that an enumeration puts in force (R646). -/
def Core.portSettings (p : Nat) (c : Core) : Core := c.onPort p fun x => { x with
  etype := c.fld (ashA A.ASH_ETYPE p) 15 0, guard := c.regN (ashA A.ASH_GUARD_NS p), lossCycles := c.fld (ashA A.ASH_MOD_CTL p) 15 8, lostN := c.fld (ashA A.ASH_MOD_CTL p) 7 0, holdWin := c.fld (ashA A.ASH_MOD_CTL p) 23 16,
  skew := ns (c.regN (ashA A.ASH_SAFE_SKEW_NS p)) }

/-- A schedule's row enters its module. -/
def Core.setSlot (r : Nat × Nat × Nat × Nat × Nat × Nat) (c : Core) : Core :=
  c.onMod r.1 fun x => { x with lossCfg := c.reg (msA A.MS_LOSS_CFG r.1), slotA := r.2.1, slotB := r.2.2.1, sampleNs := r.2.2.2.1, delay := r.2.2.2.2.1, delayB := r.2.2.2.2.2 }

/-- The passive segment of a module. -/
def Core.passiveOf (c : Core) (m : Nat) : List Word := ((c.modDef m).map (·.passive)).getD []

/-- A CONFIG part of a module with its bytes of the passive segment (R635, R636). -/
def Core.sendConfig (p : Nat) (k : CfgPart) (c : Core) : Core :=
  let m := p * 512 + k.slot
  let x := c.mod m
  let bytes := (List.range k.len).map fun j => ((c.passiveOf m).getD ((k.off + j) / 4) 0).toNat / 256 ^ ((k.off + j) % 4) % 256
  c.sendAsh p 6 (32 + k.len) ([c.posSlot p k.slot, k.part, k.parts, x.slotA, x.slotB, x.sampleNs, (c.port p).applyEff,
    c.fld (ashA A.ASH_PORT_CFG p) 3 0, (c.port p).lossCycles, bits x.lossCfg 17 16, (c.port p).holdWin, bits x.lossCfg 15 0,
    ((c.modDef m).map (·.safeId)).getD 0, k.off, k.len] ++ bytes)

/-- Lengths of the parts of a passive segment of `n` bytes, in ascending offset: each part goes in the first port cycle whose downstream
time holds it, `left` now and `cap` in each later port cycle, both in 0.1 ns, and carries what that time holds, but no fewer than 42
bytes unless fewer remain (R636, R639). Answers the time left too. -/
def partLens (tb cap : Nat) : Nat → Nat → Nat → List Nat × Nat
  | 0, left, _ => ([], left)
  | f + 1, left, n =>
    let len := min n (min 1452 (left / tb - 86))
    if left < wire tb (48 + len) ∨ (len < n ∧ len < 42) then partLens tb cap f cap n
    else if len = n then ([len], left - wire tb (48 + len))
    else
      let (l, r) := partLens tb cap f (left - wire tb (48 + len)) (n - len)
      (len :: l, r)

/-- The parts of a module from their lengths. -/
def partsOf (slot parts : Nat) : Nat → Nat → List Nat → List CfgPart
  | _, _, [] => []
  | i, off, len :: l => { slot := slot, off := off, len := len, part := i, parts := parts } :: partsOf slot parts (i + 1) (off + len) l

/-- The CONFIG parts of modules in order. -/
def Core.configParts (c : Core) (tb cap : Nat) : Nat → List Nat → List CfgPart
  | _, [] => []
  | left, m :: l =>
    let (ns, r) := partLens tb cap 200 left (c.mod m).outBytes
    partsOf (m % 512) ns.length 0 0 ns ++ c.configParts tb cap r l

/-- Steps 3 to 6 of R634 from the reports at hand. -/
def Core.enumFinish (p : Nat) (c : Core) : Core :=
  let c0 := (c.onPort p fun x => { x with enum := none, unexpected := 0, recover := [], recEnum := false, built := none }).portSettings p
  let c1 := forL (c0.portMods p) (fun m d =>
    if m % 512 < (d.port p).found then d
    else (d.onMod m fun x => { x with st := .absent, points := [] }).raise 0x0342 (modPath m)) c0
  let c2 := forN (c1.port p).found (fun s d => d.matchPos p s) c1
  let sc := c2.schedule p (c2.foundPositions p)
  let tp := 10 * c2.portNs p
  let c3 := (forL sc.rows Core.setSlot c2).onPort p fun x => { x with
    got := [], applyEff := sc.apply, upStartEff := sc.up, downWire := sc.down - (84 + 128) * c2.byteTime p
    loadUp := (sc.upEnd - 10 * sc.up) * 1000 / tp, loadDown := sc.down * 1000 / tp }
  if sc.ok then
    let room := 1538 * c3.byteTime p
    let c4 := forL sc.rows (fun r d => forL (d.configParts (c3.byteTime p) room room [r.1]) (fun k e => e.sendConfig p k) d) c3
    (c4.onPort p fun x => { x with st := .cycling }).raise 0x0306 (prtPath p)
  else (c3.onPort p fun x => { x with st := .scheduleFault }).raise 0x0347 (prtPath p)

/-- An enumeration begins: ENUM goes out (R634). -/
def Core.enumStart (p : Nat) (c : Core) : Core :=
  (c.onPort p fun x => { x with st := .enumerating, enum := some .enum, prevCount := none, got := [], found := 0 }).sendAsh p 3 4 [0]

/-- Whether a port carries a line of its own (R610). -/
def Core.lineRole (c : Core) (p : Nat) : Bool := c.ashRole p == 1 || c.ashRole p == 2 || c.ashRole p == 4

/-- ASH_PORT_CTL.REENUM accepted by the access tests; answers the status (R633). -/
def Core.reenum (p : Nat) (c : Core) : Core × Nat :=
  if c.md.mode ≠ .standby then (c, 0x09)
  else if c.lineRole p then (c.enumStart p, 0) else (c, 0)

/-- Asks for the report of a position and part, or finishes. -/
def Core.askReport (p pos part : Nat) (c : Core) : Core :=
  if (c.port p).found ≤ pos then c.enumFinish p
  else (c.onPort p fun x => { x with enum := some (.report pos part) }).sendAsh p 4 4 [pos, part]

/-- ENUM_RETURN: two returns of one COUNT end step 1 (R634). -/
def Core.enumReturn (p count : Nat) (c : Core) : Core :=
  if (c.port p).enum ≠ some .enum then c
  else if (c.port p).prevCount = some count then (c.onPort p fun x => { x with found := min count 512, count := count }).askReport p 0 0
  else (c.onPort p fun x => { x with prevCount := some count, count := count }).sendAsh p 3 4 [0]

/-- REPORT: a part of the position that was asked (R635). -/
def Core.reportPart (r : ModReport) (c : Core) : Core :=
  match (c.port r.port).enum with
  | some (.report pos part) =>
    if r.slot ≠ pos ∨ r.part ≠ part then c
    else
      let c1 := c.onPort r.port fun x => { x with got := x.got ++ [r] }
      if part + 1 < r.parts then c1.askReport r.port pos (part + 1) else c1.askReport r.port (pos + 1) 0
  | _ => c

/-- ENUM_REPLY_TIMEOUT: no reply for 1 ms (R633): without an ENUM return nothing is found; a position that does not report is
left out. -/
def Core.enumTimeout (p : Nat) (c : Core) : Core :=
  match (c.port p).enum with
  | none => c
  | some .enum => (c.onPort p fun x => { x with found := 0 }).enumFinish p
  | some (.report pos _) => (c.onPort p fun x => { x with got := x.got.filter fun r => r.slot != pos }).askReport p (pos + 1) 0

/-- The enumeration of a start: the modules that answer, at once (R136 step 11). -/
def Core.enumAll (p : Nat) (rs : List ModReport) (c : Core) : Core :=
  let mine := rs.filter fun r => r.port == p
  let n := mine.foldl (fun n r => max n (r.slot + 1)) 0
  (c.onPort p fun x => { x with st := .enumerating, found := min n 512, count := n, got := mine }).enumFinish p

/-! ## Course frames (R128, R306, R311, R335, R622) -/

/-- Words of a module's output segment. -/
def Core.segLen (c : Core) (m : Nat) : Nat := ((((c.modDef m).map (·.outBytes)).getD 0) + 3) / 4
def listWords (l : List Word) (n : Nat) : List Word := (List.range n).map fun i => l[i]?.getD 0

/-- Whether the standby outputs are those last committed, or passive (R128). -/
def Core.stbyHold (c : Core) : Bool := c.flag A.DEV_START_CTL 2 && c.md.committed

/-- Replaces the field of a forced output point in a segment. -/
def forceField (ws : List Word) (pt : Nat) (v : DWord) : List Word :=
  let whole := ws.foldr (fun w n => w.toNat + 2 ^ 32 * n) 0
  let lsb := ptLsb pt
  let w := ptWidth pt
  let new := whole - whole / 2 ^ lsb % 2 ^ w * 2 ^ lsb + v.toNat % 2 ^ w * 2 ^ lsb
  (List.range ws.length).map fun i => wd (new / 2 ^ (32 * i))

/-- The output data of a module as a course frame carries it. -/
def Core.segWords (c : Core) (m : Nat) : List Word :=
  let n := c.segLen m
  let cur := (List.range n).map fun i => c.outWord (outKey m i)
  if c.ash.aborted.contains m then listWords (c.passiveOf m) n
  else if c.running && c.md.runLive then
    c.prog.forcesNow.foldl (fun ws f => match c.point f.tag with
      | some (k, pt) => if k = m ∧ ptOut pt then forceField ws pt f.value else ws
      | none => ws) cur
  else if c.running then
    (if c.stbyHold then (List.range n).map fun i => SMap.get 0 c.ash.before (outKey m i) else listWords (c.passiveOf m) n)
  else if c.stbyHold then cur else listWords (c.passiveOf m) n

/-- Drive setpoints of a port cycle are written to the segments (R501). -/
def Core.driveSetpoints (p : Nat) (t0 : Time) (c : Core) : Core :=
  forL (if c.image.pair.en ∧ c.mr.role ≠ .active ∧ c.mr.role ≠ .yielding then [] else c.axesOn) (fun a d =>
    if !d.axDrive a then d else
    match d.drvTag a 0 with
    | none => d
    | some tag =>
      if modPort (tagIndex tag / 1024) ≠ p then d else
      let (pos, vel) := d.cmdAt a (t0 + ns (d.regN (axA A.AX_DRV_LEAD a)))
      let v := match (d.axis a).spFrozen with | some f => f | none => if d.axIo a 19 then vel else pos / 2 ^ 32
      let d1 := d.outPoint tag v
      match d.drvTag a 3 with
      | some ti => d1.outPoint ti (d.axis a).current
      | none => d1) c

/-- The core as the frames of a port cycle see it: as it stood at their build instant (R615 step 1). -/
def Core.asBuilt (p : Nat) (t0 : Time) (c : Core) : Core :=
  match (c.port p).built with
  | some b =>
    if b.start = t0 then
      { c with ash := { c.ash with out := b.out, before := b.before, aborted := b.aborted }, prog := { c.prog with forcesNow := b.forces },
               md := { c.md with mode := b.mode, runLive := b.runLive, committed := b.committed } }
    else c
  | none => c

/-- The claim of the frames of a port cycle. -/
def Core.builtClaim (c : Core) (p : Nat) (t0 : Time) : Nat :=
  match (c.port p).built with | some b => if b.start = t0 then b.claim else c.claimNow | none => c.claimNow

/-- The course frames of a port cycle: the segments of the configured modules, packed (R622); from both ports of a ring. -/
def Core.courseFrames (c : Core) (p : Nat) (t0 : Time) (segs : List (Nat × List Word)) : List Out :=
  let fs := packSegs 0 [] (segs.map fun s => (s.1, ((c.modDef s.1).map (·.outBytes)).getD 0))
  let run := (c.asBuilt p t0).running
  let ports := (if (c.port p).linkUp then [p] else []) ++ (if c.ashRole p = 2 ∧ (c.port (p + 1)).linkUp then [p + 1] else [])
  ports.flatMap fun q => (number 0 fs).map fun f =>
    .course { port := q, etype := (c.port p).etype, type := 1, length := segBytes f.2, claim := c.builtClaim p t0, cycle := (c.port p).cycle,
              frame := f.1, frames := fs.length, flags := c.downFlags run }
      ((segs.filter fun s => f.2.any fun k => k.1 == s.1).flatMap fun s => (number 0 s.2).map fun w => (outKey s.1 w.1, w.2))

/-- The course frames leave, and what they carry is observed (R535). -/
def Core.sendCourse (p : Nat) (t0 : Time) (c : Core) : Core :=
  let v := (c.asBuilt p t0).driveSetpoints p t0
  let ms := (c.portMods p).filter fun m => c.matched m && decide (c.segLen m ≠ 0)
  let segs := ms.map fun m => (m, v.segWords m)
  let c2 := forL (c.courseFrames p t0 segs) (fun o d => d.emit o) (c.driveSetpoints p t0)
  forL segs (fun (m, l) d => forL (number 0 (d.mod m).points) (fun (i, pt) e =>
    let tag := pointTag m i
    if ptOut pt && e.watched tag then
      let whole := l.foldr (fun w n => w.toNat + 2 ^ 32 * n) 0
      let v := rawNum (ptType pt) (ptWidth pt) (whole / 2 ^ ptLsb pt % 2 ^ ptWidth pt)
      e.observe tag (BitVec.ofInt 64 v) t0 false (e.forceOn tag).isSome
    else e) d) c2

/-! ## Port cycles (R614, R615, R625, R632, R639) -/

/-- A module that has been silent too long is LOST (R625). -/
def Core.modLost (m : Nat) (c : Core) : Core :=
  (c.onMod m fun x => { x with st := .lost, lost := min 255 (x.lost + 1), first := true }).raise 0x0341 (modPath m)

/-- The end of a port cycle for one module: ages and losses. -/
def Core.modCycle (p m : Nat) (c : Core) : Core :=
  let x := c.mod m
  let n := (c.port p).lostN
  let c1 := c.onMod m fun x => { x with
    gotThis := false, missing := if x.gotThis then 0 else min 256 (x.missing + 1), age := if x.gotThis then 0 else min 255 (x.age + 1)
    missA := min 256 (x.missA + 1), missB := min 256 (x.missB + 1), conf := min 256 (x.conf + 1) }
  if x.st = .operational ∧ n ≤ (c1.mod m).missing then c1.modLost m
  else if x.st = .found ∧ 8 < (c1.mod m).conf then c1.modLost m
  else c1

/-- Whether a module was heard at an end within LOST_N port cycles (R632). -/
def Core.heard (c : Core) (m : Nat) (b : Bool) : Bool :=
  decide ((if b then (c.mod m).missB else (c.mod m).missA) ≤ (c.port (modPort m)).lostN)

/-- RING_BROKEN and BREAK_AFTER (R632). -/
def Core.ringCheck (p : Nat) (c : Core) : Core :=
  if c.ashRole p ≠ 2 then c else
  let ms := (c.portMods p).filter c.inOperation
  let one := ms.any fun m => c.heard m false != c.heard m true
  let both := ms.all fun m => c.heard m false && c.heard m true
  let top := (ms.filter fun m => c.heard m false).foldl (fun n m => max n (m % 512)) 0
  let was := (c.port p).ringBroken
  if one then (c.onPort p fun x => { x with ringBroken := true, breakAfter := top }).raiseIf (!was) 0x0302 (prtPath p)
  else if both && was then (c.onPort p fun x => { x with ringBroken := false, breakAfter := 0 }).raise 0x0303 (prtPath p)
  else c

/-- Sends what a recovery round has left, as far as the port cycle's downstream time allows (R639): `left` in 0.1 ns. -/
def Core.recoverSend (p : Nat) : Nat → Nat → Core → Core
  | 0, _, c => c
  | f + 1, left, c =>
    let tb := c.byteTime p
    let x := c.port p
    if x.recEnum then
      if 84 * tb ≤ left then
        Core.recoverSend p f (left - 84 * tb) ((c.onPort p fun x => { x with recEnum := false }).sendAsh p 3 4 [0])
      else c
    else match x.recover with
    | [] => c
    | k :: l =>
      let w := wire tb (48 + k.len)
      if left < w then c
      else Core.recoverSend p f (left - w) ((c.onPort p fun x => { x with recover := l }).sendConfig p k)

/-- Start of the port cycle that device time has reached. -/
def Core.portStart (c : Core) (p : Nat) : Time := c.now / c.portLen p * c.portLen p

/-- PORT_CYCLE_START. -/
def Core.portCycle (p : Nat) (c : Core) : Core :=
  let x := c.port p
  let t0 := c.portStart p
  if x.st ≠ .cycling ∨ t0 < c.plumb.stepTo ∨ (!x.fresh ∧ t0 ≤ x.cycleStart) then c else
  let c0 := if x.cycles = 0 then c else forL (c.portMods p) (fun m d => d.modCycle p m) c
  let c1 := (c0.ringCheck p).onPort p fun x => { x with
    cycles := (x.cycles + 1) % 2 ^ 32, cycleStart := t0, fresh := false, cycle := tickOf t0 / 2 ^ (c.fld (ashA A.ASH_PORT_CFG p) 3 0) % 2 ^ 32,
    shadowAge := x.shadowAge + 1, claimAge := x.claimAge + 1 }
  ((c1.sendCourse p t0).onPort p fun x => { x with built := none }).recoverSend p 600 (10 * c.portNs p - 10000 - x.downWire)

/-- RECOVERY_ROUND: once every 64 port cycles while a module is LOST (R639). -/
def Core.recoveryRound (p : Nat) (c : Core) : Core :=
  let x := c.port p
  let lost := (c.portMods p).filter fun m => (c.mod m).st == .lost
  if x.st ≠ .cycling ∨ lost = [] ∨ !(c.md.mode = .standby ∨ c.running) ∨ x.recover ≠ [] ∨ x.recEnum ∨ x.cycles < x.lastRound + 64 then c
  else
    let tb := c.byteTime p
    let cap := 10 * c.portNs p - 10000 - x.downWire
    (c.onPort p fun x => { x with recEnum := true, recover := c.configParts tb cap (cap - 84 * tb) lost, lastRound := x.cycles }).recoverSend p 600 cap

/-- MODULE_LOST: the port cycle that makes LOST_N without an accepted frame has passed (R625). -/
def Core.moduleLost (m : Nat) (c : Core) : Core :=
  let p := modPort m
  let x := c.mod m
  if x.st ≠ .operational ∨ x.gotThis ∨ (c.port p).st ≠ .cycling ∨ x.missing + 1 < (c.port p).lostN then c
  else (c.advanceTo ((c.port p).cycleStart + c.portLen p)).modLost m

/-! ## Stone frames (R621, R624, R630) -/

/-- The level of the ACTIVE pin (R717), driven when it changes, and with it the local pins of the axes (R490). -/
def Core.activePin (c : Core) : Core :=
  let on := (c.md.mode == .standby || c.running) && !c.md.held && (!c.image.pair.en || c.mr.role == .active)
  (if c.mr.activePin = on then c else (c.onMr fun m => { m with activePin := on }).emit (.pin 8 0 on)).drivePins

/-- A unit of a pair that sees a higher claim demotes itself (R709): it releases nothing from now on, drops ACTIVE, sends claim 1
and enters Standby at the next base-cycle start. -/
def Core.demote (claim : Nat) (c : Core) : Core :=
  let r := c.mr.role
  if c.image.pair.en ∧ (r = .active ∨ r = .yielding) ∧ c.mr.claim < claim then
    let c1 := c.freeze.onMr fun m => { m with
      role := .standby, claim := 1, claimSeen := max m.claimSeen claim, inSync := false, snapDone := false, yieldReq := false,
      ackEpoch := 0, epochApplied := 0, staging := (0, []), staging2 := (0, []), resyncReq := true, frozen := false, toPending := none
      state := if m.partnerKnown then .resyncing else m.state }
    let c2 := c1.onMd fun m => { m with autoRun := false, faults := if c.running then m.faults ++ [.demotion] else m.faults }
    c2.activePin.raise (if r = .yielding then 0x0507 else 0x0582) (path 5 0 0)
  else c

/-- OUTRANKED of a port (R630). -/
def Core.outrank (p claim : Nat) (c0 : Core) : Core :=
  let c := c0.onMr fun m => { m with claimSeen := if c0.image.pair.en then max m.claimSeen claim else m.claimSeen }
  let mine := c.claimNow
  if mine < claim then
    ((c.onPort p fun x => { x with outranked := true }).raiseIf (!(c.port p).outranked) 0x0305 (prtPath p)).demote claim
  else if (c.portMods p).all (fun m => !c.inOperation m || (c.mod m).claimSeen == mine) then
    c.onPort p fun x => { x with outranked := false }
  else c

/-- The frame's STATUS bits (R623, R649): a claim tie, FCS errors. -/
def Core.stoneStatus (m st : Nat) (c : Core) : Core :=
  let x := c.mod m
  let tie := st.testBit 2
  let link := st.testBit 3 || st.testBit 4
  (((c.onMod m fun x => { x with
    lossActive := st.testBit 1, claimTie := tie, linkErr := link, sampleLate := st.testBit 5, modFault := st.testBit 6 }).raiseIf
      (tie && !x.claimTie) 0x0343 (modPath m))).raiseIf (link && !x.linkErr) 0x0345 (modPath m)

/-- Observations of a module's input points (R535). -/
def Core.observeInputs (m : Nat) (t : Time) (stale : Bool) (c : Core) : Core :=
  forL (number 0 (c.mod m).points) (fun (i, pt) d =>
    let tag := pointTag m i
    if !(ptOut pt) && d.watched tag then d.observe tag (BitVec.ofInt 64 (d.inNum m pt)) t stale (d.forceOn tag).isSome else d) c

/-- An accepted frame: data swapped in, counts, states, axes and observations. -/
def Core.stoneAccept (f : Stone) (c : Core) : Core :=
  let m := f.mod
  let p := modPort m
  let x := c.mod m
  let d := (f.seq + 65536 - x.seq % 65536) % 65536
  let free := x.first || x.st != .operational
  let ok := f.status.testBit 0
  let up := ok && x.st != .operational
  let aA := ns (if f.viaB then x.slotB + x.delayB else x.slotA + x.delay)
  let t0 := (c.port p).cycleStart + aA
  let g := ns (c.port p).guard / 2
  let late := decide (f.arrival + g < t0 ∨ t0 + g < f.arrival)
  let repeated := !free && decide (d = 0)
  let c1 := c.onMod m fun x => { x with
    act := { bytes := f.bytes, time := f.sample, seq := f.seq }, inact := x.act, hasData := true, age := 0, missing := 0,
    gotThis := true, seq := f.seq, lastCycle := some f.cycle, first := up, st := if up then .operational else x.st
    claimSeen := f.claim, repeated := if repeated then min 65535 (x.repeated + 1) else x.repeated
    missed := if !free ∧ 2 ≤ d then min 65535 (x.missed + (d - 1)) else x.missed
    window := if late then min 255 (x.window + 1) else x.window }
  let c2 := ((c1.raiseIf up 0x0301 (modPath m)).stoneStatus m f.status).outrank p f.claim
  let c3 := forL c2.axesOn (Core.axReport m f.sample (!repeated)) c2
  c3.observeInputs m f.sample repeated

/-- STONE_FRAME. -/
def Core.stoneFrame (f : Stone) (c0 : Core) : Core :=
  let m := f.mod
  let p := modPort m
  let c := c0.advanceTo f.arrival
  let x := c.mod m
  let bad (d : Core) : Core := d.bump (ashA A.ASH_RX_BAD p)
  if (c.port p).st ≠ .cycling then c
  else if f.length ≠ 20 + f.bytes.length ∨ f.type ≠ 2 ∨ f.version ≠ 1 ∨ (c.port p).found ≤ m % 512 then bad c
  else if !c.matched m then c
  else if some f.identCrc ≠ (c.modDef m).map (·.identCrc) then (c.onMod m fun x => { x with st := .mismatch }).raise 0x0342 (modPath m)
  else
    let heard (d : Core) : Core := d.onMod m fun x => if f.viaB then { x with missB := 0 } else { x with missA := 0 }
    if x.lastCycle = some f.cycle then (if f.crcOk then heard c else bad c)
    else
      let d := (f.seq + 65536 - x.seq % 65536) % 65536
      if !x.first && x.st == .operational && decide (32768 ≤ d) then
        c.onMod m fun x => { x with outOfOrder := min 255 (x.outOfOrder + 1) }
      else if !f.crcOk then bad c
      else (heard c).stoneAccept f

/-! ## Links, aborts, safety copies -/

/-- ASH_LINK_DOWN (R647, R651). -/
def Core.ashLinkDown (p : Nat) (c : Core) : Core :=
  if (c.port p).linkUp ∧ c.ashRole p ≠ 0 then (c.onPort p fun x => { x with linkUp := false }).raise 0x0346 (prtPath p) else c
/-- ASH_LINK_UP (R647). -/
def Core.ashLinkUp (p : Nat) (c : Core) : Core := c.onPort p fun x => { x with linkUp := true }

/-- ASH_PORT_STATUS.STATE (R647). -/
def Core.portStateCode (c : Core) (p : Nat) : Nat :=
  let x := c.port p
  if !c.lineRole p && c.ashRole p != 3 then 0
  else if !x.linkUp then 4
  else match x.st with | .off => 0 | .enumerating => 1 | .cycling => 2 | .scheduleFault => 3 | .linkDown => 4

/-- The segments of a slot or a port take their passive values. -/
def Core.toPassive (p slot : Nat) (c : Core) : Core :=
  forL ((c.portMods p).filter fun m => slot == allOf || m % 512 == slot) (fun m d =>
    forL (number 0 (listWords (d.passiveOf m) (d.segLen m))) (fun (i, w) e => e.setOutWord (outKey m i) w) d) c

/-- An ABORT of a slot or a port: its segments take their passive values, and the frames carry them, whatever a force, a loop or an axis
writes, until an output commit releases a word of the segment or Run is entered (R215, notes/assumptions/123.md). -/
def Core.ashAbort (p slot : Nat) (c : Core) : Core :=
  (c.freeze.toPassive p slot).onAshSt fun a => { a with
    aborted := ((c.portMods p).filter fun m => slot == allOf || m % 512 == slot) ++
      a.aborted.filter fun m => !(modPort m == p && (slot == allOf || m % 512 == slot)) }

/-- Bytes of a safety payload up to the end of DATA (R757). -/
def safeBytes (len flags data : Nat) : List Nat := [len, flags, 0, 0] ++ (List.range len).map fun j => data / 256 ^ j % 256

/-- n bytes of a number, most significant first. -/
def beBytes (v : Nat) : Nat → List Nat
  | 0 => []
  | n + 1 => v / 256 ^ n % 256 :: beBytes v n

/-- SCRC (R757). -/
def safeCrc (seed id seq claim len flags data : Nat) : Nat :=
  (crc32c (beBytes seed 4 ++ beBytes id 2 ++ beBytes seq 4 ++ beBytes claim 4 ++ safeBytes len flags data)).toNat

/-- The bytes of a safety payload as they go out: padded, then SCRC. -/
def safeWords (s : SafeMsg) : List Nat :=
  safeBytes s.len s.flags s.data ++ List.replicate ((4 - s.len % 4) % 4) 0 ++ beBytes s.scrc 4

/-- The payload that copies A and B must share (R642). -/
def payloadOf (s : SafeMsg) : List Nat := [s.len, s.flags, s.data, s.scrc]

/-- A copy arrives: the copies that still wait, what a pair delivers, and whether a pair failed (R642). -/
def safeArrive (skew : Time) (s : SafeMsg) (now : Time) (l : List SafeCopy) : List SafeCopy × Option SafeMsg × Bool :=
  match l.find? fun k => k.msg.safeId == s.safeId && k.msg.seq == s.seq && k.msg.copyB != s.copyB with
  | some k =>
    let rest := l.filter fun q => !(q.msg.safeId == s.safeId && q.msg.seq == s.seq)
    if payloadOf k.msg = payloadOf s ∧ now ≤ k.time + skew then (rest, some s, false) else (rest, none, true)
  | none => (l ++ [{ msg := s, time := now }], none, false)

/-- The module that holds a SAFE_ID. -/
def Core.safeMod (c : Core) (id : Nat) : Option Nat :=
  (c.image.modules.find? fun d => d.safeId == id).map fun d => d.port * 512 + d.slot

/-- The slot of a SAFE_ID's module on a port, as the frames of the port count it (R613, R640). -/
def Core.safeSlot (c : Core) (p id : Nat) : Nat :=
  ((c.image.modules.find? fun d => d.port == p && d.safeId == id).map fun d => c.posSlot p d.slot).getD 0xFFFF

/-- A copy of a safety container leaves: copy A over the line of port 2q, copy B over that of port 2q + 1, both lines being one on a
ring (R640, R641). -/
def Core.sendSafeCopy (p copy : Nat) (s : SafeMsg) (c : Core) : Core :=
  let line := if c.ashRole p = 2 then p else p + copy
  if (c.port (p + copy)).linkUp then
    c.emit (.ash { c.ashHdr line 7 (14 + safeLen s.len) with port := p + copy }
      ([c.safeSlot line s.safeId, s.safeId, copy, s.seq, safeLen s.len] ++ safeWords s))
  else c

/-- A pair that failed: counted, and reported once per episode (R642). -/
def Core.safeFail (id : Nat) (c : Core) : Core :=
  match c.safeMod id with
  | none => c
  | some m =>
    let open_ := c.ash.safeEp.contains id
    ((c.onMod m fun x => { x with safeErr := min 255 (x.safeErr + 1) }).onAshSt fun a =>
      { a with safeEp := if open_ then a.safeEp else id :: a.safeEp }).raiseIf (!open_) 0x0344 (modPath m)

/-- Copies whose partner did not come within the skew (R642). -/
def Core.safeExpire (c : Core) : Core :=
  let skew (k : SafeCopy) : Time := match c.safeMod k.msg.safeId with | some m => (c.port (modPort m)).skew | none => 0
  let old := c.ash.safe.filter fun k => decide (k.time + skew k < c.now)
  if old = [] then c else
  forL old (fun k d => d.safeFail k.msg.safeId)
    (c.onAshSt fun a => { a with safe := a.safe.filter fun k => !decide (k.time + skew k < c.now) })

/-- SAFE_UP from a module: answers the copy that a pair delivers (R641, R642). -/
def Core.safeUp (s : SafeMsg) (c : Core) : Core × Option SafeMsg :=
  match c.safeMod s.safeId with
  | none => (c, none)
  | some m =>
    let p := modPort m
    let c0 := (c.advanceTo s.time).safeExpire
    if !s.crcOk then (c0.bump (ashA A.ASH_RX_BAD p), none) else
    let (l, data, bad) := safeArrive (c0.port p).skew s c0.now c0.ash.safe
    let c1 := c0.onAshSt fun a => { a with safe := l }
    if bad then (c1.safeFail s.safeId, none)
    else (if data.isSome then c1.onAshSt fun a => { a with safeEp := a.safeEp.filter (· != s.safeId) } else c1, data)

/-! ## The commands -/

def execModuleLost (m : Nat) (s : State) : Host.Outcome State Fault Refusal := coreCmd (Core.moduleLost m) s
def execRecoveryRound (p : Nat) (s : State) : Host.Outcome State Fault Refusal := coreCmd (Core.recoveryRound p) s
def execStoneFrame (f : Stone) (s : State) : Host.Outcome State Fault Refusal := coreCmd (Core.stoneFrame f) s
def execReport (r : ModReport) (s : State) : Host.Outcome State Fault Refusal := coreCmd (Core.reportPart r) s
def execEnumReturn (p count : Nat) (s : State) : Host.Outcome State Fault Refusal := coreCmd (Core.enumReturn p count) s
def execEnumReplyTimeout (p : Nat) (s : State) : Host.Outcome State Fault Refusal := coreCmd (Core.enumTimeout p) s
def execAshLinkDown (p : Nat) (s : State) : Host.Outcome State Fault Refusal := coreCmd (Core.ashLinkDown p) s
def execAshLinkUp (p : Nat) (s : State) : Host.Outcome State Fault Refusal := coreCmd (Core.ashLinkUp p) s

end Sys2Proof.Machine
end

