-- ==== Sys2Proof/Machine/Program.lean ====
section
/-!
DEFINITION. Machine/Program.lean: the cyclic program: output commit, overrun and skip, tag store refresh, the retain journal,
power-fail warning and forces (07_cycle_program).
-/
namespace Sys2Proof.Machine

def pgPath (ch : Nat) : Nat := path 8 0 ch

/-! ## Output commit (R254, R310, R311) -/

/-- Writes two stored words. -/
def Core.setReg64 (a v : Nat) (c : Core) : Core := (c.setReg a (wd v)).setReg (a + 4) (wd (v / 2 ^ 32))

/-- The register of a limit selector: 0 VMAX, 1 ACC, 2 DEC, 3 STOP_DEC (R449). -/
def limitKey (sel : Nat) : Nat :=
  if sel = 0 then A.AX_VMAX else if sel = 1 then A.AX_ACC_LIM else if sel = 2 then A.AX_DEC else A.AX_STOP_DEC

/-- A limit arrives: its register holds it, and the next step applies it (R464, R465). The DEC in force stays until that step. -/
def Core.axSetLimit (a sel v : Nat) (c : Core) : Core :=
  if v = 0 ∨ 3 < sel then c.axInput a (.limit sel v)
  else
    let old := c.ax64 A.AX_DEC a
    let c1 := if sel = 2 then c.onAxis a fun x => { x with decNow := some (x.decNow.getD old) } else c
    (c1.setReg64 (axA (limitKey sel) a) v).axInput a (.limit sel v)

/-- A released entry acts on its target (R310, R379, R449). -/
def Core.applyEntry (e : CommitEntry) (c : Core) : Core :=
  let w (i : Nat) : Word := e.vals.getD i 0
  let q : Nat := (w 0).toNat + (w 1).toNat * 2 ^ 32
  match e.target with
  | .out addr => (c.setOutWord (outAddr addr) (w 0)).onAshSt fun a => { a with aborted := a.aborted.filter (· != addr / 2048) }
  | .loop n kind => c.loopRelease n kind (w 0)
  | .axis a kind =>
    match kind with
    | 0 => c.axInput a (.target 0 (sx 64 q * 2 ^ 32 + (w 2).toNat))
    | 1 => c.axInput a (.target 1 (sx 64 q))
    | 2 => c.axInput a (.target 2 (sx 64 q * 2 ^ 32 + (w 2).toNat))
    | 3 => c.axInput a (.command (bits (w 0) 1 0) false)
    | _ => c.axSetLimit a (w 2).toNat q

/-- Releases every buffer, in ascending tile number: cyclic entries, then the items' (R254). -/
def Core.releaseAll (c : Core) : Core :=
  forN 16 (fun t d =>
    let x := d.tile t
    (forL (x.commit ++ x.itemCommit) Core.applyEntry d).onTile t fun y => { y with commit := [], itemCommit := [] }) c

/-- Discards every buffer; the items' entries are counted and reported (R253, R256, R292). -/
def Core.discardAll (c : Core) : Core :=
  let n := (List.range 16).foldl (fun n t => n + (c.tile t).itemCommit.length) 0
  (forN 16 (fun t d => d.onTile t fun y => { y with commit := [], itemCommit := [] }) c).commitLost n

/-! ## Tag store refresh (R23) -/

/-- Refreshes classes 0, 2, 3 and 5. -/
def Core.refreshBase (c : Core) : Core :=
  let c0 := forL c.image.modules (fun m d =>
    let n := m.port * 512 + m.slot
    forN (d.mod n).points.length (fun i e => e.setTag (pointTag n i) (e.pointValue (pointTag n i))) d) c
  let c2 := forL c.image.axes (fun a d => forN 28 (fun k e => e.setTag (axisTag a k) (e.axisSig a k)) d) c0
  let c3 := forL c.image.loops (fun n d => forN 30 (fun k e => e.setTag (loopTag n k) (e.loopSig n k)) d) c2
  forL c.spr.fine (fun p d => d.setTag p.1 p.2) c3

/-- A class 1 tag's value in Tarn 1 at its BINDING, sign-extended for a signed type. -/
def Core.varValue (c : Core) (d : TagDef) : DWord :=
  let w := c.tagWidth d.tag
  BitVec.ofInt 64 (rawNum (c.tagType d.tag) w (c.t1Read d.binding (cdiv w 8) % 2 ^ w))

/-- Refreshes class 1. -/
def Core.refreshVars (c : Core) : Core :=
  forL (c.image.tags.filter fun d => tagClass d.tag == 1) (fun d e => e.setTag d.tag (e.varValue d)) c

/-- The class 1 observations of a released cycle, at its start (R535). -/
def Core.observeVars (c : Core) : Core :=
  forL (c.image.tags.filter fun d => tagClass d.tag == 1 && c.watched d.tag)
    (fun d e => e.observe d.tag (e.tagVal d.tag) e.prog.cycleStart) c

/-! ## What an on-line change alters (R339 reason 7) -/

/-- What an image places in a window of registers. -/
def imgWindow (i : Image) (base len : Nat) : List RegSetting :=
  (i.placed ++ i.settings).filter fun r => decide (base ≤ r.addr) && decide (r.addr < base + len)

/-- Loops whose declaration two images give differently. -/
def loopsChanged (a b : Image) : List Nat :=
  (a.loops ++ b.loops).filter fun n =>
    decide (a.loops.contains n ≠ b.loops.contains n) || decide (imgWindow a (0x01000000 + 0x100 * n) 0x100 ≠ imgWindow b (0x01000000 + 0x100 * n) 0x100) ||
      decide (a.nodes.filter (fun p => p.1 == n) ≠ b.nodes.filter (fun p => p.1 == n))

/-- Axes whose declaration two images give differently. -/
def axesChanged (a b : Image) : List Nat :=
  (a.axes ++ b.axes).filter fun n =>
    decide (a.axes.contains n ≠ b.axes.contains n) || decide (imgWindow a (0x02000000 + 0x200 * n) 0x200 ≠ imgWindow b (0x02000000 + 0x200 * n) 0x200)

/-- Whether an axis is at standstill: not in a motion of any kind. -/
def Axis.atRest (x : Axis) : Bool := x.st == .standstill || x.st == .qstopped || x.st == .disabled

/-- The test of reason 7 for the package held. -/
def Core.olcFits (c : Core) (pkg : Image) : Bool :=
  (loopsChanged c.image pkg).all (fun n => !c.image.loops.contains n || (c.loop n).mode != .closed) &&
    (axesChanged c.image pkg).all (fun a => !c.image.axes.contains a || (c.axis a).atRest)

/-- An on-line change is refused: REASON and 0x0843. -/
def Core.olcRefuse (st : OlcState) (reason : Nat) (c : Core) : Core :=
  (c.onOlc fun o => { o with st := st, reason := reason, cleared := false }).raise 0x0843 (pgPath 3)

/-- The last old cycle's housekeeping tests reason 7 (R341, R342): the boundary after it swaps or the package is READY again. -/
def Core.olcTest (c : Core) : Core :=
  let o := c.prog.olc
  let next := c.prog.cycleStart + c.baseLen
  match o.pkg with
  | some p =>
    if o.st = .armed ∧ c.prog.released ∧ o.swapAt ≤ next ∧ o.armedAt + c.baseLen ≤ next then
      if c.olcFits p then c.onOlc fun o => { o with cleared := true } else c.olcRefuse .ready 7
    else c
  | none => c

/-! ## COMMIT_END (R253 to R256, R312, R315) -/

/-- An overrun is counted; at the LIMIT in force for the cycle the reaction follows (R315, R355). -/
def Core.countOverrun (c : Core) : Core :=
  let n := c.prog.ovrConsec + 1
  let c1 := (c.onProg fun p => { p with ovrConsec := min n 255, ovrTotal := sat32 (p.ovrTotal + 1), skipNext := true }).raise 0x0801 (pgPath 0)
  if n < bits c.prog.ovrCtl 7 0 then c1
  else if bit c.prog.ovrCtl 8 then
    (c1.onMd fun m => { m with faults := m.faults ++ [.overrun] }).raise 0x0881 (pgPath 0)
  else (c1.onProg fun p => { p with ovrConsec := 0 }).raise 0x0842 (pgPath 0)

/-- Whether the cycle has overrun: a window of it was late, or a COMMIT window is not met at COMMIT_END (R253, R254). -/
def Core.overran (c : Core) : Bool := c.prog.overrun || !((List.range 16).all c.commitsMet)

/-- COMMIT_END: release or discard, then the housekeeping refresh (R23, R254, R312). -/
def Core.commitEnd (c0 : Core) : Core :=
  if c0.prog.ended || !c0.prog.begun then c0 else
  let c := ((c0.advanceTo (c0.prog.cycleStart + ns c0.image.schedule.commitEnd)).onProg fun p => { p with ended := true }).onHost fun h =>
    { h with held := h.held.map fun x => { x with due := x.armed } }
  if !c.running ∨ c.prog.phase = .notRunning then c.refreshBase
  else if c.prog.skipping then c.refreshBase
  else
    let c1 := c.onProg fun p => { p with phase := .housekeeping }
    if c.overran then ((c1.onProg fun p => { p with overrun := true }).discardAll.countOverrun).refreshBase
    else if c.prog.noRelease ∨ (c.image.pair.en ∧ c.mr.role ≠ .active) then c1.discardAll.refreshBase
    else
      let c2 := (c1.freeze.releaseAll.onProg fun p => { p with released := true, ovrConsec := 0 }).onMd fun m =>
        { m with committed := true, runLive := true }
      ((c2.refreshBase.refreshVars).observeVars).olcTest

def execCommitEnd (s : State) : Host.Outcome State Fault Refusal := coreCmd Core.commitEnd s

/-! ## Retained data (R318) -/

/-- n bytes of a number, least significant first. -/
def leBytes (v : Nat) : Nat → List Nat
  | 0 => []
  | n + 1 => v % 256 :: leBytes (v / 256) n

/-- The number that bytes give, least significant first. -/
def leNum : List Nat → Nat
  | [] => 0
  | b :: l => b % 256 + 256 * leNum l

/-- Bytes that a retained item takes. -/
def retSize : RetainItem → Nat
  | .var _ n => n
  | .timer _ _ => 16
  | .edge _ _ => 4
  | .loopI _ => 8

/-- Bytes of the items an image retains, and PG_RET_SIZE: with room for 1,024 forces of 16 bytes (R318). -/
def retItems (i : Image) : Nat := i.retain.foldl (fun n r => n + retSize r) 0
def retTotal (i : Image) : Nat := retItems i + 16384

/-- The bytes of a retained item. -/
def Core.itemBytes (c : Core) : RetainItem → List Nat
  | .var a n => leBytes (c.t1Read a n) n
  | .timer t w => (List.range 4).flatMap fun k => leBytes ((c.tile t).word (w + k)).toNat 4
  | .edge t w => leBytes ((c.tile t).word w).toNat 4
  | .loopI n => leBytes ((c.loop n).i % 2 ^ 64).toNat 8

/-- The 16 bytes of a force. -/
def Force.bytes (f : Force) : List Nat :=
  leBytes (2 ^ 31 + flg f.output 30 + f.tag % 2 ^ 25) 4 ++ leBytes 0 4 ++ leBytes f.value.toNat 8

/-- The retained data in order: items in blocks of 64 bytes, then the force table from the next block on. -/
def Core.retainBytes (c : Core) : List Nat :=
  let l := c.image.retain.flatMap c.itemBytes
  l ++ List.replicate (cdiv l.length 64 * 64 - l.length) 0 ++ c.prog.forces.flatMap Force.bytes

/-- Cuts bytes into blocks from number k on. -/
def toBlocks : Nat → Nat → List Nat → SMap (BitVec 512)
  | 0, _, _ => []
  | f + 1, k, l => SMap.set 0 (toBlocks f (k + 1) (l.drop 64)) k (BitVec.ofNat 512 (leNum (l.take 64)))

/-- The retained data by block. -/
def Core.retainBlocks (c : Core) : SMap (BitVec 512) :=
  let l := c.retainBytes
  toBlocks (cdiv l.length 64) 0 l

/-- Number of blocks an image's retained data has. -/
def retBlockCount (i : Image) : Nat := cdiv (retItems i) 64 + 256

/-- Bytes [o, o + n) of blocks. -/
def blockBytes (m : SMap (BitVec 512)) (o n : Nat) : List Nat :=
  (List.range n).map fun k => (SMap.get 0 m ((o + k) / 64)).toNat / 256 ^ ((o + k) % 64) % 256

/-- Blocks that hold a loop integrator, copied at every capture (R320). -/
def integratorBlocks : Nat → List RetainItem → List Nat
  | _, [] => []
  | o, r :: l => (match r with | .loopI _ => [o / 64, (o + 7) / 64] | _ => []) ++ integratorBlocks (o + retSize r) l

/-- Puts a retained item back from its bytes; `el` is the device time by which a timer has aged, in ns (R146). -/
def Core.restoreItem (r : RetainItem) (bs : List Nat) (c : Core) : Core :=
  match r with
  | .var a n => c.t1Write a (leNum bs) n
  | .timer t w => forN 4 (fun k d => d.onTile t fun x => x.setWord (w + k) (wd (leNum ((bs.drop (4 * k)).take 4)))) c
  | .edge t w => c.onTile t fun x => x.setWord w (wd (leNum bs))
  | .loopI n => c.onLoop n fun l => { l with i := sx 64 (leNum bs) }

/-- Puts every retained item back. -/
def Core.restoreItems (m : SMap (BitVec 512)) : Nat → List RetainItem → Core → Core
  | _, [], c => c
  | o, r :: l, c => Core.restoreItems m (o + retSize r) l (c.restoreItem r (blockBytes m o (retSize r)))

/-- The force table that blocks hold from block b on. -/
def forcesOf (m : SMap (BitVec 512)) (b : Nat) : List Force :=
  (List.range 1024).filterMap fun i =>
    let l := blockBytes m (b * 64 + 16 * i) 16
    let w := leNum (l.take 4)
    if w.testBit 31 then some { tag := w % 2 ^ 25, output := w.testBit 30, value := BitVec.ofNat 64 (leNum (l.drop 8)) } else none

/-! ## The journal (R320 to R326) -/

/-- The header copy with the higher SEQ whose CRC verifies (R324). -/
def Journal.header (j : Journal) : JHeader :=
  if j.hdr1.valid && (!j.hdr0.valid || decide (j.hdr0.seq < j.hdr1.seq)) then j.hdr1 else j.hdr0
def Journal.region (j : Journal) : Bool := j.header.region
def Journal.active (j : Journal) : List JRec := if j.region then j.regB else j.regA
def Journal.setRegion (j : Journal) (b : Bool) (l : List JRec) : Journal :=
  if b then { j with regB := l } else { j with regA := l }

/-- Applies a record's blocks. -/
def applyBlocks (l : List (Nat × BitVec 512)) (m : SMap (BitVec 512)) : SMap (BitVec 512) :=
  l.foldl (fun m p => SMap.set 0 m p.1 p.2) m

/-- The records from a region's BASE record up to the first that is invalid or out of sequence (R324). -/
def journalPrefix (img : Nat) : Nat → List JRec → List JRec
  | _, [] => []
  | sq, r :: l => if r.valid && r.seq == sq && r.imageId == img then r :: journalPrefix img (sq + 1) l else []

/-- The valid records of a journal: its BASE record and what follows. -/
def Journal.valid (j : Journal) : List JRec :=
  match j.active with
  | b :: l => if j.header.valid && b.valid && b.type == 1 then b :: journalPrefix b.imageId (b.seq + 1) l else []
  | [] => []

/-- The journalled state. -/
def Journal.state (j : Journal) : SMap (BitVec 512) := j.valid.foldl (fun m r => applyBlocks r.blocks m) []

/-- Bytes of a record with n entries (R323), of a region's records, and of one region (R322). -/
def recBytes (n : Nat) : Nat := 40 + 68 * n
def regionUsed (blocks : Nat) (l : List JRec) : Nat :=
  l.foldl (fun n r => n + recBytes (if r.type = 1 then blocks else r.blocks.length)) 0
def Journal.regionSize (j : Journal) : Nat := (j.capacity - 8192) / 2

/-- The staging set as record entries. -/
def stagingBlocks (m : SMap (Option (BitVec 512))) : List (Nat × BitVec 512) := m.map fun p => (p.1, p.2.getD 0)

/-- PG_RET_PENDING: the staging set and a FINAL record in progress. -/
def Journal.pending (j : Journal) : Nat :=
  (if j.staging = [] then 0 else recBytes j.staging.length) + (if j.finalPending then recBytes j.final.length else 0)
/-- PG_PFW_BYTES (R329). -/
def Journal.pfwBytes (j : Journal) : Nat := 1800 * j.rate
/-- PG_RET_STATUS.LAG. -/
def Journal.lag (j : Journal) : Nat := min 65535 (j.captureCycle - j.recordCycle)

/-- Appends a record to the active region. -/
def Journal.append (j : Journal) (type img : Nat) (cap : Time) (blocks : List (Nat × BitVec 512)) (ok : Bool := true) : Journal :=
  { j.setRegion j.region (j.active ++ [{ type := type, seq := j.seq + 1, imageId := img, capture := cap, blocks := blocks, valid := ok }]) with
    seq := j.seq + 1, records := if ok then (j.records + 1) % 2 ^ 32 else j.records, shown := if ok then cap else j.shown }

/-- A FINAL record whose writing is cut short stands in the region, invalid (R333). -/
def Journal.cutFinal (img : Nat) (j : Journal) : Journal :=
  if j.finalPending then { j.append 3 img j.finalAt.1 (stagingBlocks j.final) false with finalPending := false, final := [] } else j

/-- 0x0804, once per episode (R332). -/
def Core.pendingCheck (c : Core) : Core :=
  let j := c.prog.jr
  let ovr := decide (j.pfwBytes < j.pending)
  (c.onJr fun j => { j with overBudget := ovr }).raiseIf (ovr && !j.overBudget) 0x0804 (pgPath 1)

/-- The retain capture (R320): changed blocks, and those of the integrators, enter staging. -/
def Core.retainCapture (c : Core) : Core :=
  let now := c.retainBlocks
  let j := c.prog.jr
  let keys := (List.range (retBlockCount c.image)).filter fun k =>
    decide (SMap.get 0 now k ≠ SMap.get 0 j.shadow k) || (integratorBlocks 0 c.image.retain).contains k
  let t := c.now + ns (200 + 8 * keys.length)
  let c1 := (c.advanceTo t).onJr fun j => { j with
    shadow := now
    staging := keys.foldl (fun m k => SMap.set none m k (some (SMap.get 0 now k))) j.staging
    capture := t
    captureCycle := c.prog.cycles }
  ((c1.onProg fun p => { p with captured := true, captureOwed := false }).onJr fun j => { j with lagMax := max j.lagMax j.lag }).pendingCheck

/-- Whether a capture is due: of the present cycle, or of an overrun cycle whose LOGIC windows have completed in a cycle that it
made skip (R312, R320). -/
def Core.captureDue (c : Core) : Bool :=
  c.running && c.prog.begun && (List.range 16).all c.logicDone &&
    ((c.prog.ended && c.prog.phase == .housekeeping && !c.prog.captured && !c.prog.skipping) || (c.prog.skipping && c.prog.captureOwed))

/-- The journal stops (R326); a FINAL record that was being written stays behind incomplete (R333). -/
def Core.journalFail (c : Core) : Core :=
  (c.onJr fun j => { j.cutFinal c.image.imageId with writeFail := true, compacting := false }).raise 0x0846 (pgPath 1)

/-- Whether the active region has less free space than R325 asks for. -/
def Core.regionFull (c : Core) : Bool :=
  let k := c.prog.jr
  decide (k.regionSize - regionUsed (retBlockCount c.image) k.active < retTotal c.image + 65536)

/-- Compaction steps 2 to 5 (R325): BASE and DELTA in the other region, then the header copies; after an on-line change the BASE
record holds the result's retained data (R346). -/
def Core.compact (c : Core) : Core :=
  let img := c.image.imageId
  (c.onJr fun j =>
    let base : JRec := { type := 1, seq := j.seq + 1, imageId := img, capture := ((j.valid.getLast?).map (·.capture)).getD j.capture, blocks := j.rebase.getD j.state }
    let delta : JRec := { type := 2, seq := j.seq + 2, imageId := img, capture := j.capture, blocks := stagingBlocks j.staging }
    let h : JHeader := { seq := j.header.seq + 1, region := !j.region, imageId := img, valid := true }
    { j.setRegion (!j.region) [base, delta] with
      hdr0 := h, hdr1 := h, seq := j.seq + 2, records := (j.records + 2) % 2 ^ 32, staging := [], compacting := false, rebase := none
      recordCycle := j.captureCycle, shown := j.capture }).raise 0x0808 (pgPath 1)

/-- JOURNAL_RECORD_WRITE: the idle writer writes the staging set as one record, or compacts when the region is too full (R321, R325,
R326). While a FINAL record is being written the command tells only whether that write fails. -/
def Core.journalWrite (ok : Bool) (c : Core) : Core :=
  let j := c.prog.jr
  let full := j.compacting || j.rebase.isSome || c.regionFull
  if j.writeFail ∨ !c.observing then c
  else if j.finalPending then (if ok then c else c.journalFail)
  else if j.staging = [] ∧ !full then c
  else if !ok then c.journalFail
  else if full then c.compact.pendingCheck
  else
    let c1 := c.onJr fun j => { j.append 2 c.image.imageId j.capture (stagingBlocks j.staging) with
      staging := [], recordCycle := j.captureCycle }
    (c1.onJr fun k => { k with compacting := c1.regionFull }).pendingCheck

def execJournalRecordWrite (ok : Bool) (s : State) : Host.Outcome State Fault Refusal := coreCmd (Core.journalWrite ok) s

/-! ## Power-fail warning (R327 to R331) -/

/-- FINAL_RECORD_COMMIT (R331); compaction that the region needs follows (R325). -/
def Core.finalCommit (c : Core) : Core :=
  let j := c.prog.jr
  if !j.finalPending then c else
  let c1 := c.onJr fun j => { j.append 3 c.image.imageId j.finalAt.1 (stagingBlocks j.final) with
    finalPending := false, final := [], finalIncomplete := false, recordCycle := j.finalAt.2 }
  ((c1.onJr fun j => { j with compacting := c1.regionFull }).raise 0x0807 (pgPath 1)).pendingCheck

/-- PFW_ASSERT (R328): the tag; a FINAL record in progress is completed, and the staging set becomes the FINAL record; a compaction is
abandoned. -/
def Core.pfwAssert (c : Core) : Core :=
  let c1 := c.produceHw 32 1 c.now
  if !c.flag A.PG_PFW_CTL 8 ∨ c.prog.jr.pfw then c1
  else c1.finalCommit.onJr fun j =>
    if j.writeFail then { j with pfw := true }
    else { j with pfw := true, finalPending := true, final := j.staging, finalAt := (j.capture, j.captureCycle), staging := [], compacting := false }

/-- PFW_DEASSERT (R327). -/
def Core.pfwDeassert (c : Core) : Core := (c.produceHw 32 0 c.now).onJr fun j => { j with pfw := false }

def execPfwAssert (s : State) : Host.Outcome State Fault Refusal := coreCmd Core.pfwAssert s
def execFinalRecordCommit (s : State) : Host.Outcome State Fault Refusal := coreCmd Core.finalCommit s
def execPfwDeassert (s : State) : Host.Outcome State Fault Refusal := coreCmd Core.pfwDeassert s

/-! ## Forces (R334 to R338) -/

/-- Whether a tag accepts a force (R334). -/
def Core.forceable (c : Core) (t : Tag) : Bool :=
  if tagClass t = 0 then (c.point t).isSome && c.image.modules.any (fun m => m.port * 512 + m.slot == tagIndex t / 1024)
  else tagClass t == 4 && c.image.tags.any (fun d => d.tag == t && d.metadata.getLsbD 52)

/-- Sets or clears the FORCED flag of a tag's metadata (R335). -/
def Core.markForced (t : Tag) (on : Bool) (c : Core) : Core :=
  let m := c.metaOf t
  c.setMeta t (if on then m ||| (1#64 <<< 51) else m &&& ~~~ (1#64 <<< 51))

/-- Whether a tag is an output point. -/
def Core.tagIsOut (c : Core) (t : Tag) : Bool := match c.point t with | some (_, pt) => ptOut pt | none => false

/-- SET; answers the status (R337). -/
def Core.forceSet (t : Tag) (v : DWord) (c : Core) : Core × Nat :=
  let l := c.prog.forces
  if !c.forceable t then (c, 0x08)
  else if l.any (fun f => f.tag == t) then
    (c.onProg fun p => { p with forces := l.map fun f => if f.tag = t then { f with value := v } else f }, 0)
  else if 1024 ≤ l.length then (c, 0x0F)
  else ((c.onProg fun p => { p with forces := l ++ [{ tag := t, output := c.tagIsOut t, value := v }] }).markForced t true, 0)

/-- The last entry moves into the freed index (R350). -/
def dropForce (t : Tag) (l : List Force) : List Force :=
  match l.findIdx? (fun f => f.tag == t), l.getLast? with
  | some i, some z => (l.set i z).take (l.length - 1)
  | _, _ => l

/-- RELEASE (R337). -/
def Core.forceRelease (t : Tag) (c : Core) : Core :=
  if c.prog.forces.any (fun f => f.tag == t) then
    (c.onProg fun p => { p with forces := dropForce t p.forces }).markForced t false else c

/-- RELEASE_ALL, and the ABORT of channel 2 (R337, R338). -/
def Core.forcesClear (c : Core) : Core :=
  (forL c.prog.forces (fun f d => d.markForced f.tag false) c).onProg fun p => { p with forces := [] }

/-- PG_FORCE_CMD.OP with the present data registers; answers the status (R337). -/
def Core.forceCmd (op : Nat) (c : Core) : Core × Nat :=
  let t := c.regN A.PG_FORCE_TAG % 2 ^ 25
  match op with
  | 1 => c.forceSet t (BitVec.ofNat 64 (c.reg64 A.PG_FORCE_VAL_LO))
  | 2 => (c.forceRelease t, 0)
  | 3 => (c.forcesClear, 0)
  | _ => (c, 0)

end Sys2Proof.Machine
end

