-- ==== Sys2Proof/Machine/ImageCheck.lean ====
section
/-!
DEFINITION. Machine/ImageCheck.lean: placing an image's register contents (R43), and the image check: the rules by which a
configuration image is refused (R140 reason 0x02, R339 reason 1).
-/
namespace Sys2Proof.Machine

/-! ## Ranges and placement (R43) -/

/-- Whether a word keeps the range of one field (R11). -/
def fldOk (w : Word) (f : Fld) : Bool :=
  let v := bits w f.hi f.lo
  match f.rng with
  | .any => true
  | .nat l h => decide (l ≤ v) && decide (v ≤ h)
  | .sgn l h => decide (l ≤ sx (f.hi + 1 - f.lo) v) && decide (sx (f.hi + 1 - f.lo) v ≤ h)
  | .zeroOr l h => v == 0 || (decide (l ≤ v) && decide (v ≤ h))

/-- One masked placement by a section. -/
def Core.place1 (r : RegSetting) (c : Core) : Core :=
  c.placeReg r.addr ((c.imgWord r.addr &&& ~~~ r.mask) ||| (r.value &&& r.mask))

/-- One entry of section 0x000D, as one WRITE item with every unit idle: a W1C bit written 1 clears (R43, R193). -/
def Core.set1 (r : RegSetting) (c : Core) : Core :=
  match regAt r.addr with
  | some h => c.placeReg r.addr (storeWrite h (c.imgWord r.addr) r.value r.mask false)
  | none => c

/-- Words that the module and pair entries place (R644, R682). -/
def derivedPlaces (i : Image) : List RegSetting :=
  (i.modules.map fun m => { addr := msA A.MS_LOSS_CFG (m.port * 512 + m.slot), value := wd (m.lossAction * 65536 + m.holdLimitMs) }) ++
  (if i.pair.en then
    [{ addr := A.MR_CFG, value := wd (i.pair.syncLag * 2 ^ 16 + i.pair.shaftHoldWin * 256 + flg i.pair.yieldOnFeed 2 +
        flg i.pair.yieldOnFault 1 + flg i.pair.autoRun 0) },
     { addr := A.MR_PAIR_WAIT, value := wd i.pair.waitMs }, { addr := A.MR_BIN_BYTES, value := wd i.pair.binBytes }] else [])

/-- Places all register contents of an image: sections, then section 0x000D in order (R43). -/
def Core.placeAll (i : Image) (c : Core) : Core :=
  forL i.settings Core.set1 (forL (derivedPlaces i ++ i.placed) Core.place1 { c with img := [] })

/-- A core on which an image's rules can be read off: its registers at their Cold values, the modules as known. -/
def Core.asIf (i : Image) (c : Core) : Core :=
  (({ c with regs := [] }).onUp fun u => { u with runCfg := some i }).placeAll i

/-- The access of a field where the chapter narrows it: PB_PORT_LAT of a calibrated port and PB_PORT_INTV of the line profile are RO
(R117, R118). -/
def Core.accOf (c : Core) (h : Hit) (f : Fld) : Acc :=
  if h.key = A.PB_PORT_LAT ∧ h.i < 11 then .ro
  else if h.key = A.PB_PORT_INTV ∧ c.lineProfile then .ro
  else f.acc

/-- Bits of a register that section 0x000D may cover (R43). -/
def Core.settable (c : Core) (h : Hit) : Word :=
  usedMask h &&& h.flds.foldl (fun m f => if c.accOf h f = .rw ∨ c.accOf h f = .rwo ∨ c.accOf h f = .w1c then m ||| f.mask else m) 0

/-- One entry of section 0x000D, on the core whose registers it has just set: its address, its MASK and the fields that it leaves
(R43). -/
def Core.settingOk (c : Core) (r : RegSetting) : Bool :=
  match regAt r.addr with
  | some h => r.mask &&& ~~~ (c.settable h) == 0 && h.flds.all fun f => (r.mask &&& f.mask) == 0 || fldOk (c.imgWord r.addr) f
  | none => false

/-- Section 0x000D, entry by entry on what the other sections and the entries before have placed (R43). -/
def Core.settingsOk (i : Image) (c : Core) : Bool :=
  (i.settings.foldl (fun (p : Core × Bool) r => let d := p.1.set1 r; (d, p.2 && d.settingOk r))
    (forL (derivedPlaces i ++ i.placed) Core.place1 { c with img := [] }, true)).2

/-- Whether a register range is left to a rule of its own: AX_MODULUS, judged on modulo axes only (R477). -/
def placedOk (r : RegSetting) : Bool :=
  match regAt r.addr with
  | some h => h.flds.all fun f => fldOk r.value f
  | none => false

/-! ## The schedule (R246 to R249) -/

/-- The ops of a stretch of a tile's op store in an image. -/
def imgOps (i : Image) (t first count : Nat) : List (Nat × OpWord) :=
  opsIn (fun k => (i.ops.getD t []).getD k 0) count first

/-- IN_BYTES of a module of an image. -/
def imgInBytes (i : Image) (m : Nat) : Nat :=
  ((i.modules.find? fun d => d.port * 512 + d.slot == m).map (·.inBytes)).getD 0

/-- Worst-case sum of ops in 0.1 ns. -/
def opsTime (i : Image) (l : List (Nat × OpWord)) : Nat := l.foldl (fun n p => n + opTime p.1 p.2 (imgInBytes i)) 0

/-- Windows of a tile. -/
def imgWins (i : Image) (t : Nat) : List WinDef := i.schedule.tiles.getD t []
/-- Base cycle in ns. -/
def imgTc (i : Image) : Nat := 2 ^ i.schedule.baseK * 15625
def isCommit (op : Nat) : Bool := op == 0xC1 || op == 0xC2 || op == 0xC3
def isQueue (op : Nat) : Bool := op == 0xD0 || op == 0xD1 || op == 0xD2

/-- Items allowed on a tile, with their codes. -/
def tileItems (i : Image) (t : Nat) : List CodeDef :=
  (i.items.filter fun d => d.tileMask.testBit t).filterMap fun d => i.codes[d.code]?

/-- Commit entries that a tile's buffer can receive in one cycle (R271). -/
def commitBound (i : Image) (t : Nat) : Nat :=
  let ws := imgWins i t
  let direct := (ws.filter (·.kind == 2)).foldl (fun n w => n + ((imgOps i t w.opFirst w.opCount).filter fun p => isCommit p.1).length) 0
  let its := tileItems i t
  match its.map (·.budget) with
  | [] => direct
  | b :: l =>
    let least := l.foldl min b
    let most := its.foldl (fun n k => max n k.commitMax) 0
    direct + (ws.filter (·.kind == 4)).foldl (fun n w => n + (if least = 0 then 0 else w.len / least) * most) 0

/-- The release time of R249 in ns. -/
def releaseNs (i : Image) : Nat := 100 + 6 * (List.range 16).foldl (fun n t => n + commitBound i t) 0

/-- Whether a window lies where its KIND belongs. -/
def winPlace (i : Image) (w : WinDef) : Bool :=
  let s := i.schedule
  let inside (lo hi : Nat) : Bool := decide (lo ≤ w.start) && decide (w.start + w.len ≤ hi)
  let house := s.commitEnd + releaseNs i
  match w.kind with
  | 0 => inside 0 s.latchEnd
  | 1 => inside s.latchEnd s.commitDeadline
  | 2 => inside s.commitDeadline s.commitEnd
  | 3 => inside house (imgTc i)
  | 4 => inside s.latchEnd s.commitDeadline || inside house (imgTc i)
  | _ => false

/-- Ascending, without overlap. -/
def winOrder : List WinDef → Bool
  | a :: b :: l => decide (a.start + a.len ≤ b.start) && winOrder (b :: l)
  | _ => true

/-- One window's ops and lengths (R247 to R250). -/
def winOk (i : Image) (t : Nat) (w : WinDef) : Bool :=
  let ops := imgOps i t w.opFirst w.opCount
  let dur := 400 + opsTime i ops
  winPlace i w && decide (dur ≤ 10 * w.wc) && decide (dur ≤ 10 * w.len) && decide (w.opCount ≤ 16383) && decide (w.opFirst + w.opCount ≤ 16384) &&
    (if w.kind = 4 then w.opCount == 0 else ops.all fun p =>
      opOk p.1 p.2 && (p.1 != 0xC0 || w.kind == 0) && (!isCommit p.1 || w.kind == 2) &&
        (!isQueue p.1 || decide (p.2.addr.toNat < i.items.length)) && (p.1 != 0xC3 || i.axes.contains p.2.addr.toNat))

/-- Tarn 1 bytes that an op writes directly: first and count. -/
def directWrite (i : Image) (p : Nat × OpWord) : Option (Nat × Nat) :=
  if p.1 = 0xB1 then some (p.2.addr.toNat, 8)
  else if p.1 = 0xC0 then some (p.2.aux.toNat, 16 + imgInBytes i p.2.addr.toNat) else none

/-- Whether two ranges of (first, count) meet. -/
def meets (a b : Nat × Nat) : Bool := decide (a.1 < b.1 + b.2) && decide (b.1 < a.1 + a.2)

/-- No two tiles write one Tarn 1 word in overlapping windows (R249). -/
def writesOk (i : Image) : Bool :=
  let ws : List (Nat × WinDef × List (Nat × Nat)) := (List.range 16).flatMap fun t =>
    (imgWins i t).map fun w => (t, w, (imgOps i t w.opFirst w.opCount).filterMap (directWrite i))
  ws.all fun (t, w, l) => ws.all fun (u, v, m) =>
    t == u || !meets (w.start, w.len) (v.start, v.len) || l.all fun a => m.all fun b => !meets a b

/-- The schedule section. -/
def scheduleOk (i : Image) : Bool :=
  let s := i.schedule
  decide (s.baseK ≤ 8) && decide (0 < s.latchEnd) && decide (s.latchEnd < s.commitDeadline) && decide (s.commitDeadline < s.commitEnd) &&
    decide (s.commitEnd < imgTc i) && decide (s.tiles.length ≤ 16) &&
    ((List.range 16).all fun t => decide ((imgWins i t).length ≤ 510) && winOrder (imgWins i t) && (imgWins i t).all (winOk i t) &&
      decide (commitBound i t ≤ 2048)) &&
    (i.deps.all fun d =>
      match (imgWins i d.1.1)[d.1.2]?, (imgWins i d.2.1)[d.2.2]? with
      | some a, some b => decide (a.start + a.len ≤ b.start)
      | _, _ => false) && writesOk i

/-! ## Work items (R267 to R271) -/

/-- A code in one tile. -/
def codeTileOk (i : Image) (k : CodeDef) (t : Nat) : Bool :=
  if !k.tileMask.testBit t then k.opFirst.getD t 0xFFFF == 0xFFFF else
  let ops := imgOps i t (k.opFirst.getD t 0) k.opCount
  let b := 40 + 2 * (k.inWords + k.outWords) + cdiv (opsTime i ops) 10 + 1
  decide (k.opFirst.getD t 0xFFFF + k.opCount ≤ 16384) && decide (b ≤ k.budget) && decide ((ops.filter fun p => isQueue p.1 || p.1 == 0xD3).length ≤ k.qopsMax) &&
    decide ((ops.filter fun p => isCommit p.1).length ≤ k.commitMax) &&
    ops.all fun p => opOk p.1 p.2 && p.1 != 0xC0 && (!isQueue p.1 || decide (p.2.addr.toNat < i.items.length)) &&
      (p.1 != 0xC3 || i.axes.contains p.2.addr.toNat)

/-- Section 0x0007. -/
def itemsOk (i : Image) : Bool :=
  decide (i.items.length ≤ 65536) && decide (i.codes.length ≤ 4096) &&
    (i.codes.all fun k =>
      decide (k.tileMask < 65536) && decide (1 ≤ k.opCount) && decide (k.opCount ≤ 16383) && decide (k.commitMax ≤ 2048) && decide (k.inWords ≤ 64) &&
        decide (k.outWords ≤ 64) && decide (k.qopsMax ≤ 32) && decide (k.bufBase % 2 = 0) && decide (k.bufBase < 16384) &&
        (List.range 16).all (codeTileOk i k)) &&
    (i.items.all fun d =>
      decide (d.stableId ≠ 0) && decide ((i.items.filter fun e => e.stableId == d.stableId).length = 1) && decide (d.priority ≤ 7) &&
        decide (d.paramAddr % 8 = 0) && decide (d.paramAddr < tarn1Size) && decide (d.tileMask ≠ 0) &&
        (match i.codes[d.code]? with
         | some k => decide (d.tileMask &&& k.tileMask = d.tileMask) &&
             (List.range 16).any fun t => d.tileMask.testBit t && (imgWins i t).any fun w => w.kind == 4 && decide (k.budget ≤ w.len)
         | none => false))

/-! ## Retained data (R319) -/

/-- Whether an op of tile t writes retained data. -/
def writesRetained (i : Image) (t : Nat) (p : Nat × OpWord) : Bool :=
  i.retain.any fun r => match r with
    | .var a n => p.1 == 0xB1 && meets (p.2.addr.toNat, 8) (a, n)
    | .timer u w => u == t && decide (0xA0 ≤ p.1) && decide (p.1 ≤ 0xA2) && p.2.dst.toNat == w
    | .edge u w => u == t && decide (0xA3 ≤ p.1) && decide (p.1 ≤ 0xA4) && p.2.dst.toNat == w
    | .loopI _ => false

/-- The retain rules, with the MRAM's capacity. -/
def retainOk (i : Image) (capacity : Nat) : Bool :=
  let size := retTotal i
  let houseFrom := i.schedule.commitEnd
  let capEnd := i.schedule.commitEnd + releaseNs i + 200 + 8 * retBlockCount i
  decide (size ≤ 262144) && decide (2 * size + 65536 ≤ (capacity - 8192) / 2) &&
    ((List.range 16).all fun t => (imgWins i t).all fun w =>
      (w.kind != 3 || (imgOps i t w.opFirst w.opCount).all fun p => !writesRetained i t p) &&
      (w.kind != 4 || decide (w.start < houseFrom) || (tileItems i t).all fun k =>
        (imgOps i t (k.opFirst.getD t 0) k.opCount).all fun p => !writesRetained i t p)) &&
    ((List.range 16).all fun t => (imgWins i t).all fun w => w.kind != 1 || decide (capEnd ≤ imgTc i + w.start))

/-! ## Tags (R533) and streams (R536, R544) -/

/-- One entry of the tag directory. -/
def tagOk (i : Image) (d : TagDef) : Bool :=
  let cls := tagClass d.tag
  let ty := d.metadata.toNat / 2 ^ 60
  decide (d.tag < 2 ^ 25) && decide (cls ≠ 7) && decide ((i.tags.filter fun e => e.tag == d.tag).length = 1) &&
    (if cls = 0 ∨ cls = 2 ∨ cls = 3 then d.binding == 0 && (d.metadata &&& ~~~ (1#64 <<< 53)) == 0
     else decide (1 ≤ ty) && decide (ty ≤ 10) && d.metadata.toNat / 2 ^ 32 % 2 ^ 20 == 0 &&
       (cls == 1 || decide (d.metadata.toNat % 2 ^ 32 ≠ 0)))

/-- Worst-case productions of a tag per second, in units of 2^-32 (R536). -/
def Core.tagRate (c : Core) (t : Tag) : Nat :=
  match tagClass t with
  | 0 => 64000 * 2 ^ 32 / 2 ^ (c.fld (ashA A.ASH_PORT_CFG (tagIndex t / 1024 / 512)) 3 0)
  | 1 => 64000 * 2 ^ 32 / 2 ^ c.image.schedule.baseK
  | 2 => 64000 * 2 ^ 32
  | 3 => 64000 * 2 ^ 32 / c.loopTicks (tagIndex t / 4096)
  | _ => match c.image.tags.find? (fun d => d.tag == t) with
    | some d => d.metadata.toNat % 2 ^ 32 * 2 ^ 32
    | none => 0

/-- Whether an image assigns a tag. -/
def Core.assigned (c : Core) (t : Tag) : Bool :=
  match tagClass t with
  | 0 => (c.modDef (tagIndex t / 1024)).isSome
  | 2 => c.image.axes.contains (tagIndex t / 16384) && decide (tagIndex t % 16384 < 28)
  | 3 => c.image.loops.contains (tagIndex t / 4096) && decide (tagIndex t % 4096 < 30)
  | _ => c.image.tags.any fun d => d.tag == t

/-- Type that the directory or the fixed layouts give a tag. -/
def Core.typeOf (c : Core) (t : Tag) : Nat :=
  match c.image.tags.find? (fun d => d.tag == t) with
  | some d => if tagClass t = 0 ∨ tagClass t = 2 ∨ tagClass t = 3 then c.tagType t else d.metadata.toNat / 2 ^ 60
  | none => c.tagType t

/-- Width that the directory or the fixed layouts give a tag. -/
def Core.widthOf (c : Core) (t : Tag) : Nat :=
  match c.image.tags.find? (fun d => d.tag == t) with
  | some d => if tagClass t = 0 ∨ tagClass t = 2 ∨ tagClass t = 3 then c.tagWidth t else d.metadata.toNat / 2 ^ 54 % 64 + 1
  | none => c.tagWidth t

/-- One stream entry (R544, R549). -/
def Core.entryOk (c : Core) (e : EntryDef) : Bool :=
  c.image.streams.contains e.stream && decide (e.mode ≤ 2) && decide (e.div ≤ 15) && (e.heartbeat == 0 || decide (e.heartbeat ≤ 60000)) &&
    (if e.mode = 2 then decide (1 ≤ e.k) && decide (e.k ≤ 12) && tagClass e.fineTag == 5 &&
        (c.typeOf e.tag == 0 || ([2, 3, 4].contains (c.typeOf e.tag) && decide (c.widthOf e.tag ≤ 32)))
      else e.k == 0 && e.fineTag == 0)

/-- Stream declarations. -/
def Core.streamsOk (c : Core) : Bool :=
  let i := c.image
  decide (i.streams.length ≤ 16) && decide i.streams.Nodup && decide (i.entries.length ≤ 33554432) && i.entries.all c.entryOk &&
    decide ((i.entries.filter fun e => e.mode == 2).length ≤ 256) &&
    decide (i.entries.foldl (fun n e => n + c.tagRate e.tag / 2 ^ e.div) 0 ≤ 2000000000 * 2 ^ 32) &&
    i.streams.all fun k => decide (c.rsDest k ≠ 3)

/-! ## Triggers and captures (R570, R577 to R580, R603) -/

/-- One trigger. -/
def Core.triggerOk (c : Core) (x : Nat) : Bool :=
  let cfg := A.TR_CFG + 0x40 * x
  let kind := c.trigKind x
  let tag := c.regN (A.TR_TAG + 0x40 * x)
  let ty := c.typeOf tag
  let two := (c.trigSrcs x).filter fun s => s != 0xFF
  let lo := reg64w c (A.TR_LEVEL + 0x40 * x)
  let hi := reg64w c (A.TR_HIGH + 0x40 * x)
  let hy := reg64w c (A.TR_HYST + 0x40 * x)
  decide (kind ≤ 8) && (kind == 0 || decide (4 < kind) || decide (c.fld cfg 27 26 ≠ 0)) &&
    (!(kind == 2 || kind == 3) ||
      (c.assigned tag && (ty == 0 || [2, 3, 4, 5, 6, 7, 8].contains ty) && !badHyst ty hy &&
        (kind == 2 || !valLt ty hi lo))) &&
    (kind != 4 || (c.assigned tag && ty != 5 && ty != 6 && decide (1 ≤ c.fld cfg 15 8))) &&
    (kind != 6 || !c.flag (A.TR_MARKS + 0x20 * x) 16) && (kind != 1 || decide (c.fld cfg 21 16 ≤ 31)) &&
    (!(kind == 7 || kind == 8) ||
      (decide (2 ≤ two.length) && two.all (fun s => decide (1 ≤ c.trigKind s) && decide (c.trigKind s ≤ 6) && c.image.triggers.contains s) &&
        decide (1 ≤ c.regN (A.TR_WIN_NS + 0x40 * x)) && decide (c.regN (A.TR_WIN_NS + 0x40 * x) ≤ 1000000000)))

/-- One capture unit. -/
def Core.unitOk (c : Core) (u : Nat × List Tag) : Bool :=
  let trg := c.reg (cpA A.CP_TRIGGER u.1)
  u.2.all c.assigned && decide (1 ≤ c.cpTags u.1) && decide (c.cpTags u.1 ≤ 32) && decide (16 ≤ c.basinRows u.1) && decide (c.basinRows u.1 ≤ 4194304) &&
    decide (c.regN (cpA A.CP_PRE_ROWS u.1) ≤ c.basinRows u.1) &&
    decide (1 ≤ c.cpSlots u.1) && decide (c.cpSlots u.1 ≤ 16) && (bit trg 31 || c.image.triggers.contains (bits trg 6 0)) &&
    (!c.flag (cpA A.CP_CFG u.1) 20 || c.image.streams.contains (c.fld (cpA A.CP_CFG u.1) 19 16)) &&
    (!c.flag (cpA A.CP_CFG u.1) 15 || c.image.streams.contains (c.fld (cpA A.CP_CFG u.1) 14 11))

/-- Bytes that a unit's basins take. -/
def Core.unitBytes (c : Core) (u : Nat) : Nat := c.cpSlots u * (cdiv (256 + c.basinRows u * c.rowBytes u) 4096 * 4096)

/-- DRAM that the image reserves, in bytes: basins, rings, the entry table, the tag store of 2^25 values and metadata. -/
def Core.dramUse (c : Core) : Nat :=
  let i := c.image
  i.capMib * 2 ^ 20 + i.streams.foldl (fun n k => n + c.fld (rsA A.RS_CFG k) 13 0 * 2 ^ 20) 0 + 32 * i.entries.length + 2 * 2 ^ 28

/-- Section 0x000B's triggers and units. -/
def Core.capturesOk (c : Core) : Bool :=
  let i := c.image
  decide i.triggers.Nodup && decide (i.units.map Prod.fst).Nodup && i.triggers.all (fun x => decide (x < 128) && c.triggerOk x) &&
    i.units.all (fun u => decide (u.1 < 64) && c.unitOk u) && decide (i.units.foldl (fun n u => n + c.unitBytes u.1) 0 ≤ i.capMib * 2 ^ 20) &&
    decide (c.dramUse ≤ c.mem.dramMib * 2 ^ 20)

/-! ## Loops (R382, R390, R408) -/

/-- Whether a CMTOUT of the image writes a word of a module's segment that holds a point (R390, R489); a point is known once its
module has reported. -/
def Core.cmtHits (c : Core) (t : Tag) : Bool :=
  match c.point t with
  | none => false
  | some (m, pt) =>
    let i := c.image
    let ws := [outKey m (ptLsb pt / 32), outKey m ((ptLsb pt + ptWidth pt - 1) / 32)]
    let hits (p : Nat × OpWord) : Bool := p.1 == 0xC1 && ws.contains (outAddr p.2.addr.toNat)
    (List.range 16).any fun k =>
      (imgWins i k).any (fun w => (imgOps i k w.opFirst w.opCount).any hits) ||
        (i.codes.any fun d => d.tileMask.testBit k && (imgOps i k (d.opFirst.getD k 0) d.opCount).any hits)

/-- A tag that is an input (`out` false) or output point of a declared module; its direction is judged once it is known. -/
def Core.pointTagOk (c : Core) (t : Tag) (out : Bool) : Bool :=
  tagClass t == 0 && c.assigned t && (match c.point t with | some (_, pt) => ptOut pt == out | none => true)

/-- A source of the repetitive controller (R406 to R408). -/
def Core.rcOk (c : Core) (n : Nat) : Bool :=
  let src := c.lpFld A.RC_CFG n 31 30
  let bins := c.lpFld A.RC_CFG n 12 0
  let per := c.reg64 (lpA A.RC_PERIOD_LO n)
  let tag := c.regN (lpA A.RC_SRC_TAG n) % 2 ^ 25
  src == 0 || (decide (16 ≤ bins) && decide (bins ≤ 4096) &&
    (if src = 1 then per % 65536 == 0 && decide (2 ≤ per / 65536) && decide (per / 65536 ≤ 16777216)
     else src == 2 && decide (bins * 65536 ≤ per) &&
       (c.pointTagOk tag false ||
         (tagClass tag == 2 && c.assigned tag && [0, 6, 10].contains (tagIndex tag % 16384)) ||
         (tagClass tag == 6 && (c.image.shaft.head? == some tag || c.image.imports.any fun m => m.local6 == tag)))))

/-- One loop. -/
def Core.loopOk (c : Core) (n : Nat) : Bool :=
  let fb := c.lpFld A.LP_FB_TAG n 24 0
  let ou := c.lpFld A.LP_OUT_TAG n 24 0
  let sn := c.lpFld A.LP_STALE_CTL n 23 16
  let pk := c.fld (ashA A.ASH_PORT_CFG (modPort (tagIndex fb / 1024))) 3 0
  let lk := c.lpFld A.LP_CFG n 2 0
  decide (n < 1024) && c.pointTagOk fb false && c.pointTagOk ou true && !c.cmtHits ou &&
    decide (c.lpQ15 A.LP_OUT_LIM n 0 ≤ c.lpQ15 A.LP_OUT_LIM n 16) && (sn == 0 || decide (pk ≤ lk) || decide (2 ^ (pk - lk) ≤ sn)) && c.rcOk n

/-- Section 0x0009. -/
def Core.loopsOk (c : Core) : Bool :=
  let l := c.image.loops
  decide (l.length ≤ 1024) && decide l.Nodup && decide (l.map fun n => c.lpFld A.LP_OUT_TAG n 24 0).Nodup && l.all c.loopOk

/-! ## Axes (R477, R489) -/

/-- One axis. -/
def Core.axisOk (c : Core) (a : Nat) : Bool :=
  let src := c.axSource a
  let ones := [A.AX_VMAX, A.AX_ACC_LIM, A.AX_DEC, A.AX_STOP_DEC, A.AX_JERK, A.AX_QSTOP_DEC, A.AX_SYNC_ACC, A.AX_SYNC_VEL, A.AX_JOG_VEL]
  let outs := [0, 3].filterMap (c.drvTag a)
  let ins := [1, 2, 4, 5, 6, 7].filterMap (c.drvTag a)
  let vmax := c.ax64 A.AX_VMAX a
  let stepsOk := decide (vmax ≤ 4000000 * 65536) && decide (vmax * (c.axFld A.AX_STEP_TIMING a 31 16 + 50) ≤ 1000000000 * 65536)
  let loadSrc := c.axFld A.AX_LOAD_CFG a 31 30
  decide (a < 192) && decide (src ≠ 3) && (ones.all fun k => decide (c.ax64 k a ≠ 0)) && decide (c.axS64 A.AX_SW_MIN a ≤ c.axS64 A.AX_SW_MAX a) &&
    (!c.axModulo a || (decide (2 ≤ c.ax64 A.AX_MODULUS a) && decide (c.ax64 A.AX_MODULUS a ≤ 2 ^ 62))) &&
    ins.all (fun t => c.pointTagOk t false) && (outs.all fun t => c.pointTagOk t true && !c.cmtHits t &&
      c.image.loops.all fun n => c.lpFld A.LP_OUT_TAG n 24 0 != t) &&
    (src != 1 || stepsOk) && decide (c.axFld A.AX_CURRENT a 31 16 ≤ c.axFld A.AX_BOOST_LIM a 15 0) && (src != 2 || (c.drvTag a 0).isSome) &&
    (loadSrc != 1 || src == 2) && (loadSrc != 2 || c.axEnc a)

/-- Section 0x000A. -/
def Core.axesOk (c : Core) : Bool :=
  let l := c.image.axes
  decide (l.length ≤ 192) && decide l.Nodup && l.all c.axisOk &&
    decide ((l.filter fun a => c.axSource a == 1).map fun a => c.axFld A.AX_IO_CFG a 28 24).Nodup

/-! ## Ports, chain and pair (R114, R115, R645, R667, R683, R701) -/

/-- One Ashlar port. -/
def Core.portOk (c : Core) (p : Nat) : Bool :=
  let r := c.ashRole p
  let ms := c.portMods p
  decide (r ≤ 5) && (r != 2 || (p % 2 == 0 && c.ashRole (p + 1) == 3)) && (r != 5 || decide (6 ≤ p)) &&
    (!(r == 0 || r == 3 || r == 5) || ms.isEmpty) && (ms.isEmpty || (c.schedule p (c.planPositions p)).ok) &&
    (r == 5 || decide (c.ptpRole p ≤ 1))

/-- Whether a SAFE_ID has one copy on each port of a pair: one module of a ring, or two of two lines (R640, R645). -/
def Core.safeCopiesOk (c : Core) (m : ModuleDef) : Bool :=
  let l := c.image.modules.filter fun n => n.safeId == m.safeId
  if c.ashRole m.port = 2 then decide (l.length = 1)
  else decide (l.length = 2) && l.any fun n => n.port != m.port && n.port / 2 == m.port / 2

/-- The modules and their SAFE_IDs. -/
def Core.modulesOk (c : Core) : Bool :=
  let ms := c.image.modules
  (ms.all fun m => decide (m.slot < 512) && decide (m.port < 8) && decide (m.lossAction ≤ 1) &&
    decide (m.inBytes ≤ 1464) && decide (m.outBytes ≤ 1480) &&
    decide ((ms.filter fun n => n.port == m.port && n.slot == m.slot).length = 1)) &&
  ms.all fun m => m.safeId == 0 || c.safeCopiesOk m

/-- Undirected links of the plan as directed ones. -/
def bothWays (l : List ChainLink) : List ChainLink :=
  l ++ l.map fun k => { dev := k.nb, port := k.nbPort, nb := k.dev, nbPort := k.port }

/-- Least cost in ns from the leader to an arrival (device, port): hop bounds of R660 over each device crossed. -/
def relaxHops (leader : Nat) (ls : List ChainLink) : Nat → List ((Nat × Nat) × Nat) → List ((Nat × Nat) × Nat)
  | 0, d => d
  | n + 1, d =>
    let via (k : ChainLink) : Option Nat :=
      if k.dev = leader then some (if 2 ≤ k.port then 1600 else 640) else
      (d.filter fun e => e.1.1 == k.dev && e.1.2 != k.port).foldl (fun m e =>
        let v := e.2 + (if 2 ≤ e.1.2 ∨ 2 ≤ k.port then 1600 else 640)
        match m with | none => some v | some w => some (min v w)) none
    relaxHops leader ls n (ls.filterMap fun k => (via k).map fun v => ((k.nb, k.nbPort), v))

/-- Cost to each device over a set of links, or none where one is out of reach. -/
def chainCosts (leader : Nat) (ls : List ChainLink) (devs : List Nat) : Option Nat :=
  let d := relaxHops leader (bothWays ls) (ls.length + 1) []
  devs.foldl (fun m v =>
    if v = leader then m else
    let cs := (d.filter fun e => e.1.1 == v).map Prod.snd
    match m, cs with
    | some w, x :: l => some (max w (l.foldl min x))
    | _, _ => none) (some 0)

/-- The chain plan (R667): with every ring intact, and with each link broken whose loss leaves all in reach. -/
def Core.chainOk (c : Core) : Bool :=
  let ls := c.image.chain
  let devs := (ls.flatMap fun k => [k.dev, k.nb]).eraseDups
  let bound := c.leadTicks * 15625
  let fits (l : List ChainLink) (must : Bool) : Bool :=
    match chainCosts c.image.leader l devs with | some w => decide (1000 + w ≤ bound) | none => !must
  ls.isEmpty || (fits ls true && (List.range ls.length).all fun k => fits (ls.eraseIdx k) false)

/-- The epoch size W of R701. -/
def epochWorst (i : Image) : Nat :=
  let part (n s : Nat) : Nat × Nat := (cdiv n (1440 / s), n * s)
  let fb := cdiv i.pair.binBytes 1424
  let l := [part (retBlockCount i) 68, part i.pair.sel.length 12, part i.loops.length 20, part i.axes.length 84,
    (fb, i.pair.binBytes + 16 * fb)]
  l.foldl (fun n p => n + p.2) 0 + 62 * l.foldl (fun n p => n + p.1) 0 + 84

/-- The pair part. -/
def Core.pairOk (c : Core) : Bool :=
  let i := c.image
  let p := i.pair
  !p.en || (decide (p.fpA ≠ p.fpB) && decide (p.fpA ≠ 0) && decide (p.fpB ≠ 0) && c.flag A.DEV_START_CTL 2 &&
    p.sel.all (fun t => tagClass t == 1 && c.assigned t) && decide (1 ≤ p.syncLag) && decide (p.syncLag ≤ 16) && decide (2 ≤ p.shaftHoldWin) &&
    decide (p.shaftHoldWin ≤ 255) && decide (0x600 ≤ p.etype) && decide (p.etype ≤ 0xFFFF) && decide (100 ≤ p.waitMs) && decide (p.waitMs ≤ 60000) &&
    decide (p.binBytes ≤ 65536) && decide (p.binBytes % 512 = 0) && decide (1 ≤ p.claimBase) && decide (p.claimBase ≤ 0xFFFF0000) &&
    decide (p.sel.length ≤ 131072) && decide (10 * epochWorst i ≤ 11 * imgTc i))

/-! ## The image check -/

/-- The image check on a core set up by `asIf`: every rule by which the spec refuses an image's content. -/
def Core.imageRules (c : Core) : Bool :=
  let i := c.image
  i.formOk && scheduleOk i && itemsOk i && retainOk i c.prog.jr.capacity && i.tags.all (tagOk i) && c.streamsOk && c.capturesOk && c.loopsOk && c.axesOk &&
    (List.range 8).all c.portOk && c.modulesOk && c.chainOk && c.pairOk && i.placed.all placedOk && c.settingsOk i &&
    decide (i.settings.length ≤ 65536) &&
    (!c.lineProfile || decide (((List.range 12).filter fun p => c.ptpRole p == 2).length ≤ 1))

/-- Whether an image passes the image check on this device. -/
def Core.imageOk (i : Image) (c : Core) : Bool := (c.asIf i).imageRules

end Sys2Proof.Machine
end

