-- ==== Sys2Proof/Machine/ImageBytes.lean ====
section
/-!
DEFINITION. Machine/ImageBytes.lean: bytes of containers: the rebuild of a delta (R788), and the byte layout of a configuration image:
header and directory (R257, R258), schedule table (R246, R247), work-item descriptors (R267 to R269). Fields of several bytes are
big-endian (notes/assumptions/126.md).
-/
namespace Sys2Proof.Machine

/-- Bytes [o, o + n) of a byte string; fewer where it ends before. -/
def cut (l : List Nat) (o n : Nat) : List Nat := (l.drop o).take n
/-- A big-endian number of n bytes at an offset. -/
def beAt (l : List Nat) (o n : Nat) : Nat := (cut l o n).foldl (fun v b => v * 256 + b % 256) 0
/-- Whether n bytes at an offset are there and 0. -/
def zeroAt (l : List Nat) (o n : Nat) : Bool := (cut l o n).length == n && (cut l o n).all (· == 0)

/-! ## Deltas (R788) -/

/-- The rebuild from a base: the operations of a delta body in order, at most `limit` bytes of result; none where it fails. -/
def rebuild (base : List Nat) (limit : Nat) : Nat → List Nat → List Nat → Option (List Nat)
  | 0, _, _ => none
  | _, [], _ => none
  | n + 1, op :: l, acc =>
    if op = 0x00 then (if l = [] then some acc else none)
    else if op = 0x01 then
      let o := beAt l 0 8
      let k := beAt l 8 4
      if l.length < 12 ∨ base.length < o + k ∨ limit < acc.length + k then none
      else rebuild base limit n (l.drop 12) (acc ++ cut base o k)
    else if op = 0x02 then
      let o := beAt l 0 8
      let k := beAt l 8 4
      if l.length < 12 + k ∨ base.length < o + k ∨ limit < acc.length + k then none
      else rebuild base limit n (l.drop (12 + k)) (acc ++ List.zipWith (fun b d => (b + d) % 256) (cut base o k) (cut l 12 k))
    else if op = 0x03 then
      let k := beAt l 0 4
      if l.length < 4 + k ∨ limit < acc.length + k then none
      else rebuild base limit n (l.drop (4 + k)) (acc ++ cut l 4 k)
    else none

/-- Whether a kind is rebuilt from a base (R780). -/
def isDelta (kind : Nat) : Bool := kind == 2 || kind == 4 || kind == 5

/-- The bytes of a result where the command gives them: rebuilt, or as they came. -/
def resultBytes (h : ContHdr) (v : VerifyIn) : Option (List Nat) :=
  match v.delta with
  | some x => if isDelta h.kind then rebuild x.base h.resultLen (x.body.length + 1) x.body [] else v.raw
  | none => v.raw

/-- Whether a result has RESULT_HASH: judged on its bytes where the command gives them, the base being the one that BASE_HASH names,
else as the command says (R783, R788). -/
def resultGood (h : ContHdr) (v : VerifyIn) : Bool :=
  match v.delta with
  | some x => if isDelta h.kind then
      decide (Config.sha3 x.base = h.base) && ((resultBytes h v).map fun r => decide (Config.sha3 r = h.result)).getD false
    else v.resultOk
  | none => v.resultOk

/-! ## The directory (R257, R258) -/

/-- A directory entry: type, offset, length and the hash that stands in it. -/
structure DirEntry where
  type : Nat
  off : Nat
  len : Nat
  hash : Nat
  deriving DecidableEq, Repr

/-- The directory of an image. -/
def dirOf (l : List Nat) : List DirEntry :=
  (List.range (beAt l 6 2)).map fun i =>
    let o := 64 + 56 * i
    { type := beAt l o 4, off := beAt l (o + 8) 8, len := beAt l (o + 16) 8, hash := beAt l (o + 24) 32 }

/-- The bytes of a section; none where the image has none of its type. -/
def sectionOf (l : List Nat) (type : Nat) : Option (List Nat) :=
  ((dirOf l).find? fun e => e.type == type).map fun e => cut l e.off e.len

/-- MAGIC "TLFI", FORMAT, reserved bytes, every type listed, once, inside the image and with its hash, and a schedule table. -/
def dirOk (l : List Nat) : Bool :=
  beAt l 0 4 == 0x544C4649 && beAt l 4 2 == 1 && zeroAt l 16 48 && decide (64 + 56 * beAt l 6 2 ≤ l.length) &&
    ((List.range (beAt l 6 2)).all fun i => zeroAt l (64 + 56 * i + 4) 4) &&
    ((dirOf l).all fun e => decide (1 ≤ e.type) && decide (e.type ≤ 0xF) && decide (e.off + e.len ≤ l.length) &&
      decide (Config.sha3 (cut l e.off e.len) = e.hash) && decide (((dirOf l).filter fun x => x.type == e.type).length = 1)) &&
    (sectionOf l 1).isSome

/-! ## The schedule table (R246, R247) -/

/-- One window entry. -/
def winAt (l : List Nat) (o : Nat) : WinDef :=
  let w := wd (beAt l (o + 8) 4)
  { start := beAt l o 4, len := beAt l (o + 4) 4, kind := bits w 31 28, opCount := bits w 27 14, opFirst := bits w 13 0, wc := beAt l (o + 12) 4 }

/-- Entries before those of a tile. -/
def winsBefore (l : List Nat) (t : Nat) : Nat := (List.range t).foldl (fun n k => n + 2 * beAt l (16 + k) 1) 0

/-- The windows of a tile: its list, without the padding entry that an odd count ends with. -/
def winsAt (l : List Nat) (t : Nat) : List WinDef :=
  let all := (List.range (2 * beAt l (16 + t) 1)).map fun i => winAt l (32 + 16 * (winsBefore l t + i))
  match all.getLast? with
  | some w => if w.kind = 15 then all.dropLast else all
  | none => []

/-- The schedule of a section; its header's reserved bytes are 0 and its length is that of its entries. -/
def scheduleAt (l : List Nat) : Schedule :=
  { baseK := beAt l 0 1, latchEnd := beAt l 4 4, commitDeadline := beAt l 8 4, commitEnd := beAt l 12 4, tiles := (List.range 16).map (winsAt l) }
def scheduleForm (l : List Nat) : Bool := zeroAt l 1 3 && l.length == 32 + 16 * winsBefore l 16

/-! ## Work-item descriptors (R267 to R269) -/

/-- A code entry. -/
def codeAt (l : List Nat) (o : Nat) : CodeDef :=
  { tileMask := beAt l o 2, opCount := beAt l (o + 2) 2, budget := beAt l (o + 4) 4, commitMax := beAt l (o + 8) 2, inWords := beAt l (o + 10) 1
    outWords := beAt l (o + 11) 1, bufBase := beAt l (o + 12) 2, qopsMax := beAt l (o + 14) 2
    opFirst := (List.range 16).map fun t => beAt l (o + 16 + 2 * t) 2 }

/-- An item entry; the other bits of FLAGS and the reserved bytes are judged by `itemsForm`. -/
def itemAt (l : List Nat) (o : Nat) : ItemDef :=
  { stableId := beAt l o 4, code := beAt l (o + 4) 2, tileMask := beAt l (o + 6) 2, paramAddr := beAt l (o + 8) 4, priority := beAt l (o + 12) 1
    hostOk := (beAt l (o + 13) 1).testBit 0 }

/-- The tables of section 0x0007. -/
def codesAt (l : List Nat) : List CodeDef := (List.range (beAt l 4 4)).map fun n => codeAt l (16 + 48 * n)
def itemsAt (l : List Nat) : List ItemDef := (List.range (beAt l 0 4)).map fun n => itemAt l (16 + 48 * beAt l 4 4 + 16 * n)
def itemsForm (l : List Nat) : Bool :=
  zeroAt l 8 8 && l.length == 16 + 48 * beAt l 4 4 + 16 * beAt l 0 4 &&
    (List.range (beAt l 0 4)).all fun n =>
      let o := 16 + 48 * beAt l 4 4 + 16 * n
      decide (beAt l (o + 13) 1 ≤ 1) && zeroAt l (o + 14) 2

/-! ## An image from its bytes -/

/-- What the bytes of an image say of its identity, schedule and work items; the sections whose layout the model takes as parsed stay as
the command gives them (notes/assumptions/4.md). -/
def Image.ofBytes (l : List Nat) (i : Image) : Image :=
  if !dirOk l then { i with formOk := false } else
  let s := (sectionOf l 1).getD []
  let q := sectionOf l 7
  { i with
    imageId := beAt l 8 8, format := beAt l 4 2, schedule := scheduleAt s
    codes := (q.map codesAt).getD [], items := (q.map itemsAt).getD []
    formOk := scheduleForm s && (q.map itemsForm).getD true }

end Sys2Proof.Machine
end

