-- ==== Sys2Proof/Machine/Place.lean ====
section
/-!
DEFINITION. Machine/Place.lean: what an image places in memory: Tarn 1, the op stores and operand buffers of the tiles, tag
metadata, stream entries (R136 step 9), and the memory that a takeover sets up again (R706).
-/
namespace Sys2Proof.Machine

/-! ## Tag metadata (R531 to R533) -/

/-- TYPE and WIDTH of class 2 signal k (R478, R524). -/
def axisSigType (k : Nat) : Nat × Nat :=
  if [0, 5, 6, 10, 14, 16, 22, 24].contains k then (8, 64)
  else if [1, 23, 27].contains k then (3, 32)
  else if [2, 3, 4, 7, 8, 9, 11, 13, 15].contains k then (7, 64)
  else if k = 17 then (2, 32)
  else if k = 18 ∨ k = 19 then (4, 16)
  else if k = 26 then (3, 16)
  else if k = 25 then (10, 11)
  else (10, 32)

/-- TYPE and WIDTH of class 3 signal k (R391, R432). -/
def loopSigType (k : Nat) : Nat × Nat :=
  if k = 6 then (2, 64)
  else if k = 13 then (10, 24)
  else if k = 14 ∨ k = 15 then (2, 32)
  else if k ≤ 12 ∨ k = 19 ∨ k = 21 ∨ k = 24 then (4, 16)
  else if k = 17 then (7, 64)
  else if k = 23 then (10, 9)
  else if k = 25 then (10, 16)
  else if 27 ≤ k then (3, 64)
  else (3, 32)

/-- TYPE and WIDTH as metadata. -/
def typeMeta (p : Nat × Nat) : DWord := BitVec.ofNat 64 (p.1 * 2 ^ 60 + (p.2 - 1) * 2 ^ 54)

/-- STREAMS of a tag: the streams that hold an entry for it. -/
def streamBits (i : Image) (t : Tag) : DWord :=
  (i.entries.filter fun e => e.tag == t).foldl (fun m e => m ||| (1#64 <<< (32 + e.stream % 16))) 0

/-- Metadata of the tags of the directory and of the axis and loop signals; class 0 gets its types at enumeration. -/
def Core.placeTags (c : Core) : Core :=
  let i := c.image
  let c0 := c.onMem fun m => { m with meta_ := [] }
  let c1 := forL i.axes (fun a d => forN 28 (fun k e => e.setMeta (axisTag a k) (typeMeta (axisSigType k))) d) c0
  let c2 := forL i.loops (fun n d => forN 30 (fun k e => e.setMeta (loopTag n k) (typeMeta (loopSigType k))) d) c1
  let c3 := forL i.tags (fun t d => d.setMeta t.tag (d.metaOf t.tag ||| t.metadata)) c2
  let c4 := forL i.entries (fun t d => d.setMeta t.tag (d.metaOf t.tag ||| streamBits i t.tag)) c3
  forL i.modules (fun m d => d.fillMeta (m.port * 512 + m.slot)) c4

/-! ## Tiles -/

/-- Operand words that an op names from an index, by kind: vectors, timers, pairs. -/
def opSpan (op : Nat) (o : OpWord) : Nat :=
  if 0x40 ≤ op ∧ op ≤ 0x42 then max 2 (o.imm.toNat / 2 + 1) else if 0xA0 ≤ op ∧ op ≤ 0xA2 then 4 else 2

/-- The cyclic program's allocation on a tile: words with initial contents, and words that the windows' ops name. -/
def imgAlloc (i : Image) (t : Nat) : List Nat :=
  let named := (imgWins i t).flatMap fun w => (imgOps i t w.opFirst w.opCount).flatMap fun p =>
    [p.2.dst.toNat, p.2.a.toNat, p.2.b.toNat].flatMap fun x => (List.range (opSpan p.1 p.2)).map (x + ·)
  (((i.operands.getD t []).map Prod.fst) ++ named).eraseDups

/-- A tile as an image leaves it: op store and operand buffer, predicates and commit buffer empty. -/
def imgTile (i : Image) (t : Nat) (x : Tile) : Tile := { x with
  store := (number 0 (i.ops.getD t [])).foldl (fun m p => SMap.set 0 m p.1 p.2) []
  buf := (i.operands.getD t []).foldl (fun m p => SMap.set 0 m p.1 p.2) []
  alloc := imgAlloc i t, junk := 0, preds := 0, commit := [], itemCommit := [] }

/-- The contents of Tarn 1 that an image gives. -/
def imgTarn1 (i : Image) : SMap Byte :=
  i.tarn1.foldl (fun m p => (number p.1 p.2).foldl (fun m q => SMap.set 0 m q.1 q.2) m) []

/-- Tarn 1 and the tiles as the running image places them. -/
def Core.placeMemory (c : Core) : Core :=
  let i := c.image
  forN 16 (fun t d => d.onTile t (imgTile i t)) (c.onMem fun m => { m with tarn1 := imgTarn1 i })

/-- A stream entry as the image declares it. -/
def entryFresh (e : EntryDef) : Entry := {
  tag := e.tag, stream := e.stream, deadband := e.deadband, heartbeat := e.heartbeat, mode := e.mode, k := e.k, div := e.div
  fineTag := e.fineTag }

end Sys2Proof.Machine
end

