-- ==== Sys2Proof/Machine/Mortar.lean ====
section
/-!
DEFINITION. Machine/Mortar.lean: the pair (16_mortar_redundancy): identity, roles and claims, heartbeats, epochs and resync, shadow
outputs, yield and takeover.
-/
namespace Sys2Proof.Machine

/-! ## The pair and its identities (R682, R713 to R716) -/

def mrPath (ch : Nat) : Nat := path 5 0 ch

/-- Whether the image runs in a pair on this device, in a mode that takes part (R687). -/
def Core.pairOn (c : Core) : Bool := c.image.pair.en && !c.md.held && c.md.mode != .recovery && c.md.mode != .minimal

/-- The unit's letter, true for B: from its own fingerprint, else the one that the partner's does not hold (R682). -/
def pairLetter (fpA fpB own partner : Nat) : Option Bool :=
  if own = fpA then some false else if own = fpB then some true
  else if partner = fpB then some false else if partner = fpA then some true else none

/-- Whether a partner's fingerprint is known to this unit (R714). -/
def Core.knowsPartner (c : Core) (fp : Nat) : Bool :=
  let p := c.image.pair
  match pairLetter p.fpA p.fpB Config.identityFp fp with
  | some b => fp == (if b then p.fpA else p.fpB) || (c.mr.knownFp != 0 && fp == c.mr.knownFp)
  | none => c.mr.knownFp != 0 && fp == c.mr.knownFp

/-- First 8 bytes of the hash of the active safety parameter block (R691). -/
def Core.safetyHash (c : Core) : Nat := ((c.mirror.block).map fun b => b.hash / 2 ^ 192).getD 0

/-- A partner's identity is judged (R714, R715). -/
def Core.judgePartner (fp : Nat) (c : Core) : Core :=
  let p := c.image.pair
  let c1 := c.onMr fun m => { m with
    partnerFp := fp, unitB := (pairLetter p.fpA p.fpB Config.identityFp fp).getD m.unitB }
  if c.knowsPartner fp then
    c1.onMr fun m => { m with partnerKnown := true, state := if m.role = .standby ∧ !m.inSync then .resyncing else .unsynced }
  else (c1.onMr fun m => { m with partnerKnown := false, state := .partnerNew }).raise 0x0503 (mrPath 1)

/-- What this device answers to an IDENT challenge: device number, fingerprint, public key, and the signature over nonce, number and
fingerprint (R662, R801). -/
def Core.identWords (c : Core) (nonce : Nat) : List Nat :=
  [1, c.devNum, Config.identityFp, Config.identityKey, Config.sign (Config.sha3 [nonce, c.devNum, Config.identityFp])]

/-- Whether an answer verifies: its signature, and its key, whose SHA3-256 is the fingerprint (R662). -/
def identVerified (m : IdentMsg) : Bool := m.sigOk && Config.sha3 [m.key] == m.fp

/-- The frames of an answer that have come, with one more. -/
def identPieces (m : IdentMsg) (l : List Nat) : List Nat := if m.piece < 21 ∧ !l.contains m.piece then m.piece :: l else l

/-- IDENT over MOR: a challenge is answered in 21 frames; the last frame of a verified answer has it judged (R713). -/
def Core.mrIdent (x : IdentMsg) (c : Core) : Core :=
  if !c.pairOn then c
  else if !x.answer then forN 21 (fun i d => d.morPut (.ident (c.identWords x.nonce ++ [i]))) c
  else
    let l := identPieces x c.mr.identGot
    if l.length < 21 then c.onMr fun m => { m with identGot := l }
    else
      let c1 := c.onMr fun m => { m with identGot := [] }
      if identVerified x then c1.judgePartner x.fp else c1

/-- MOR_LINK_UP: a challenge with a new nonce (R713). -/
def Core.morUp (c : Core) : Core :=
  let c1 := c.onMr fun m => { m with link := true }
  if c1.pairOn then
    let (n, c2) := c1.freeNat
    (c2.onMr fun m => { m with state := if m.partnerKnown then m.state else .identifying, nonce := n, identGot := [] }).morPut (.ident [0, n])
  else c1

/-- MR_PARTNER_CTL accepted by the access tests (R716): APPROVE and FORGET. -/
def Core.mrApprove (c : Core) : Core :=
  if c.mr.state ≠ .partnerNew then c else
  (c.onMr fun m => { m with
    knownFp := m.partnerFp, partnerKnown := true, state := if m.role = .standby then .resyncing else .unsynced }).raise 0x0504 (mrPath 1)
def Core.mrForget (c : Core) : Core :=
  let c1 := c.onMr fun m => { m with knownFp := 0 }
  if c1.mr.partnerFp = 0 ∨ (c1.mr.partnerKnown ∧ c1.knowsPartner c1.mr.partnerFp) then c1 else c1.judgePartner c1.mr.partnerFp

/-! ## Claims and roles (R684 to R686) -/

/-- The highest claim seen. -/
def Core.claimHigh (c : Core) : Nat := max c.image.pair.claimBase (max c.mr.claim c.mr.claimSeen)
/-- A claim above what has been seen; past 32 bits it starts over (R686). -/
def Core.claimAbove (c : Core) (n : Nat) : Nat :=
  if 0xFFFFFFFF < c.claimHigh + n then c.image.pair.claimBase + 1 else c.claimHigh + n

/-- The number of the base cycle that holds an instant (R690). -/
def Core.epochOf (c : Core) (t : Time) : Nat := tickOf t / c.baseTicks

/-- The unit becomes ACTIVE at a start (R684 to R686). -/
def Core.becomeActive (alone : Bool) (c : Core) : Core :=
  let claim := c.claimAbove (if c.mr.unitB then 1 else 2)
  let c1 := c.freeze.onMr fun m => { m with
    role := .active, claim := claim, waitFrom := none, inSync := false, resyncReq := false
    state := if alone then .alone else if m.state = .identifying ∨ m.state = .partnerNew ∨ m.state = .mismatch then m.state else .unsynced }
  (c1.onMd fun m => { m with autoRun := m.autoRun || c.flag A.MR_CFG 0 }).activePin

/-- The unit becomes STANDBY and asks for a resync (R685, R710). -/
def Core.becomeStandby (c : Core) : Core :=
  (c.freeze.onMr fun m => { m with
    role := .standby, claim := 1, waitFrom := none, inSync := false, snapDone := false, resyncReq := true
    state := if m.state = .mismatch then .mismatch else .resyncing }).activePin

/-- PAIR_WAIT_EXPIRY (R685). -/
def Core.pairWaitExpiry (c : Core) : Core :=
  match c.mr.waitFrom with
  | some f =>
    if !c.pairOn ∨ c.mr.role ≠ .none ∨ c.mr.partnerHeard then c
    else (c.advanceTo (c.now + (f + c.regN A.MR_PAIR_WAIT * ms - c.plumb.elapsed))).becomeActive true
  | none => c

/-! ## Loss of sync, shadow outputs (R699, R702, R703) -/

/-- The standby loses sync and asks for a resync (R699). -/
def Core.syncLost (c : Core) : Core :=
  if c.mr.role ≠ .standby ∨ !c.mr.inSync then c else
  (c.onMr fun m => { m with
    inSync := false, snapDone := false, resyncReq := true, resyncStop := false
    state := if m.state = .synced then .resyncing else m.state }).raise 0x0542 (mrPath 1)

/-- A port's shadow outputs take passive values (R703, R704). -/
def Core.shadowClear (p : Nat) (c : Core) : Core :=
  if c.ashRole p = 4 then c.toPassive p allOf else c

/-- COURSE_FRAME_SHADOW: a standby copies the output segments of the active's course frame (R702). -/
def Core.shadowTake (p claim : Nat) (ws : List (Nat × Word)) (c : Core) : Core :=
  if !c.pairOn ∨ c.mr.role ≠ .standby ∨ c.ashRole p ≠ 4 ∨ c.mr.frozen ∨ !c.mr.partnerKnown ∨ claim ≠ c.mr.beat.claim then c else
  let mine := ws.filter fun w => w.1 / 512 / 512 == p && decide (w.1 % 512 < c.segLen (w.1 / 512))
  ((forL mine (fun w d => d.setOutWord w.1 w.2) c.freeze).onPort p fun x => { x with shadowAge := 0, shadowLost := false }).onMd
    fun m => { m with committed := true }

/-- SHADOW_LOST: heartbeats count, but no course frame of the active's claim came for HOLD_WIN port cycles (R703). -/
def Core.shadowLoss (p : Nat) (c : Core) : Core :=
  let x := c.port p
  if !c.pairOn ∨ c.mr.role ≠ .standby ∨ c.ashRole p ≠ 4 ∨ c.mr.frozen ∨ !c.mr.partnerHeard ∨ c.mr.missRun ≠ 0 ∨ x.shadowLost ∨
      x.shadowAge < x.holdWin then c
  else ((c.shadowClear p).onPort p fun x => { x with shadowLost := true }).raise 0x0506 (mrPath 1)

/-! ## The records that an epoch carries (R386, R474, R692) -/

/-- The loop record of R386. -/
def Core.loopRec (c : Core) (n : Nat) : MirItem :=
  let l := c.loop n
  .loop n l.i l.prev l.yf l.r ((match l.mode with | .open => 1 | .manual => 2 | .closed => 3) + flg l.aborted 2 + flg l.stale 3 + flg l.frozen 4) l.age

/-- The axis record of R474. -/
def Core.axisRec (c : Core) (a : Nat) : MirItem :=
  let x := c.axis a
  .axis a {
    pos := x.pos, vel := x.vel, acc := x.acc, tgt := if x.mode = .velocity then x.tgtVel else x.tgt
    mode := bits x.status 31 28, st := bits x.status 27 24, status := bits x.status 15 0, posValid := x.posValid
    sPrev := x.sPrev.getD x.pos, sCur := x.sCur.getD x.pos, dec := if x.decDeferred then some (c.ax64 A.AX_DEC a) else none }

/-- Bins of the loops with a source, round-robin: from loop number i of a list and bin `first`, `left` bins in entries of at most
712. Answers the entries and where the next epoch continues. -/
def Core.binRun (c : Core) (ls : List Nat) : Nat → Nat → Nat → Nat → List MirItem × Nat × Nat
  | 0, _, i, first => ([], i, first)
  | f + 1, left, i, first =>
    let n := ls.getD i 0
    let k := min (min 712 left) (c.rcN n - first)
    if left = 0 ∨ ls = [] then ([], i, first)
    else
      let e : MirItem := .bins n first ((List.range k).map fun j => SMap.get 0 (c.loop n).lrn.bins (first + j))
      let (i1, f1) := if c.rcN n ≤ first + k then ((i + 1) % ls.length, 0) else (i, first + k)
      let (l, j, g) := c.binRun ls f (left - k) i1 f1
      (if k = 0 then l else e :: l, j, g)

/-- n bytes of a signed number, most significant first. -/
def beInt (v : Int) (n : Nat) : List Nat := beBytes (v % (256 ^ n : Nat)).toNat n

/-- A position of R474: integer and fraction. -/
def bePos (p : Int) : List Nat := beInt (p / 2 ^ 32) 8 ++ beInt (p % 2 ^ 32) 4

/-- The bytes of the axis record of R474. -/
def axisBytes (r : AxisRec) : List Nat :=
  bePos r.pos ++ beBytes (r.mode % 16 + r.st % 16 * 16 + r.status % 65536 * 256) 4 ++ beInt r.vel 8 ++ beInt r.acc 8 ++
    (if r.mode = 2 then beInt r.tgt 8 ++ [0, 0, 0, 0] else bePos r.tgt) ++ beBytes ((if r.dec.isSome then 1 else 0) + flg r.posValid 2) 4 ++
    bePos r.sPrev ++ bePos r.sCur ++ beBytes (r.dec.getD 0) 8

/-- The bytes of an entry (R386, R474, R692), big-endian; the content of a block in the order of its bytes. -/
def itemBytes : MirItem → List Nat
  | .block n v => beBytes n 4 ++ (List.range 64).map fun k => v.toNat / 256 ^ k % 256
  | .tag t v => beBytes t 4 ++ beBytes v.toNat 8
  | .loop n i u yf r flags age => beBytes n 4 ++ beInt i 8 ++ beInt u 2 ++ beInt yf 2 ++ beInt r 2 ++ [flags % 256, age % 256]
  | .axis n r => beBytes n 4 ++ axisBytes r
  | .bins n first vs => beBytes n 2 ++ beBytes first 2 ++ beBytes vs.length 2 ++ [0, 0] ++ vs.flatMap fun v => beInt v 2

/-- CRC of R693 over entries in frame order. -/
def itemsCrc (l : List MirItem) : Nat := (crc32c (l.flatMap itemBytes)).toNat

/-- One entry joins the frame being filled, or opens the next one; the newest frame first: section, bytes, entries. -/
def packItem (acc : List (Nat × Nat × List MirItem)) (e : MirItem) : List (Nat × Nat × List MirItem) :=
  let (sec, n) := itemSize e
  match acc with
  | (s, k, l) :: t => if s = sec ∧ k + n ≤ 1440 then (s, k + n, l ++ [e]) :: t else (sec, n, [e]) :: acc
  | [] => [(sec, n, [e])]

/-- The frames that entries take: up to 1,440 bytes of one section each, no entry split (R692). -/
def packItems (l : List MirItem) : List (Nat × List MirItem) := ((l.foldl packItem []).reverse).map fun f => (f.1, f.2.2)

/-- The frames of an epoch or a resync, its end marker last (R692, R693). -/
def mirFrames (resync : Bool) (m : EpochEndMsg) (items : List MirItem) : List MorMsg :=
  let fs := packItems items
  ((number 0 fs).map fun f => MorMsg.data resync m.epoch f.2.1 f.1 f.2.2) ++
    [.fin resync { m with frames := fs.length, bytes := itemsSize items, crc := itemsCrc items }]

/-- The epoch of a frame of one. -/
def MorMsg.epochOf : MorMsg → Option Nat
  | .data false e _ _ _ => some e
  | .fin false m => some m.epoch
  | _ => none

/-- Whether a waiting epoch has not begun to leave: its first frame still waits (R696). -/
def unbegun (w : List MorFrame) (e : Nat) : Bool :=
  w.any fun f => match f.msg with
    | .data false x _ i _ => x == e && i == 0
    | .fin false m => m.epoch == e && m.frames == 0
    | _ => false

/-- Whether a frame belongs to a resync. -/
def MorMsg.isResync : MorMsg → Bool
  | .data true _ _ _ _ => true
  | .fin true _ => true
  | _ => false

/-- Wire bytes of an epoch: entries, 62 a frame, the end marker (R701). -/
def epochBytes (l : List MirItem) (frames : Nat) : Nat := itemsSize l + 62 * frames + 84

/-! ## Yield (R689) -/

/-- The last epoch that this unit has formed: one whose end marker waits, or the last sent complete. -/
def Mortar.lastEpoch (m : Mortar) : Nat :=
  ((m.waiting.filterMap fun f => match f.msg with | .fin false x => some x.epoch | _ => none).getLast?).getD m.epoch

/-- Sends YIELD: the unit makes no further release. -/
def Core.yieldNow (c : Core) : Core :=
  ((c.onMr fun m => { m with role := .yielding, yieldReq := false }).activePin).morPut
    (.yield c.mr.lastEpoch (match c.md.mode with | .run => 5 | .service => 6 | _ => 4))

/-- Begins a yield: at once, or after the epoch of a cycle that has released and is not captured yet. -/
def Core.yieldStart (c : Core) : Core :=
  if c.mr.role ≠ .active then c
  else if c.running ∧ c.prog.released ∧ !c.prog.captured then c.onMr fun m => { m with yieldReq := true }
  else c.yieldNow

/-- MR_CTL.YIELD accepted by the access tests; answers the status (R689, R725). -/
def Core.mrYield (c : Core) : Core × Nat :=
  if c.mr.role ≠ .active then (c, 0x09)
  else if !(c.mr.partnerKnown && c.mr.missRun == 0 && c.mr.beat.inSync) then (c, 0x0F)
  else (c.yieldStart, 0)

/-- A fault-driven change to Standby: with YIELD_ON_FAULT and a standby in sync the active yields instead (R689). -/
def Core.yieldsOnFault (c : Core) : Bool :=
  c.pairOn && c.mr.role == .active && c.flag A.MR_CFG 1 && c.mr.partnerKnown && c.mr.missRun == 0 && c.mr.beat.inSync

/-- MR_CTL.RESYNC accepted by the access tests; answers the status (R725). -/
def Core.mrResync (c : Core) : Core × Nat :=
  if c.mr.role ≠ .standby then (c, 0x09)
  else (c.syncLost.onMr fun m => { m with inSync := false, snapDone := false, resyncReq := true, resyncStop := false, staging2 := (0, []) }, 0)

/-! ## Forming an epoch (R694 to R696, R711) -/

/-- The retained blocks as the capture has them, and the epochs at which they changed (R694). -/
def Core.markBlocks (e : Nat) (now : SMap (BitVec 512)) (keys : List Nat) (c : Core) : Core :=
  c.onMr fun m => { m with
    blkLast := now
    blkAt := (keys.filter fun k => decide (SMap.get 0 now k ≠ SMap.get 0 m.blkLast k)).foldl (fun t k => SMap.set 0 t k e) m.blkAt }

/-- A resync goes before the epoch when the standby asks for one and none is being sent (R696, R711). -/
def Core.resyncForm (e : Nat) (now : SMap (BitVec 512)) (keys : List Nat) (c : Core) : Core :=
  let ask := c.mr.partnerKnown && c.mr.beat.role == 2 && c.mr.beat.resync && c.mr.missRun == 0 && !c.mr.waiting.any fun f => f.msg.isResync
  if !ask then c
  else forL (mirFrames true { epoch := e, frames := 0 } (keys.map fun k => .block k (SMap.get 0 now k))) Core.morPut
    (c.onMr fun m => { m with snapshot := e, epochStop := false, ackEpoch := 0 })

/-- The entries of an epoch (R694), and where the bins of the next one begin. -/
def Core.epochItems (now : SMap (BitVec 512)) (keys : List Nat) (c : Core) : List MirItem × Nat × Nat :=
  let m := c.mr
  let basis := max m.snapshot m.ackEpoch
  let ls := c.image.loops.filter fun n => c.rcSrc n ≠ 0
  let total := ls.foldl (fun n k => n + c.rcN k) 0
  let at_ := (ls.findIdx? fun n => decide (m.binLoop ≤ n)).getD 0
  let left := min (c.regN A.MR_BIN_BYTES / 2) total
  let (bins, i, first) := c.binRun ls (left + ls.length) left at_ (if ls.getD at_ 0 = m.binLoop then m.binFirst else 0)
  let blocks : List MirItem := (keys.filter fun k => decide (basis < SMap.get 0 m.blkAt k)).map fun k => .block k (SMap.get 0 now k)
  (blocks ++ (c.image.pair.sel.map fun t => .tag t (c.tagVal t)) ++ c.image.loops.map c.loopRec ++ c.image.axes.map c.axisRec ++ bins,
    ls.getD i 0, first)

/-- The active forms the epoch of a cycle at its retain capture and sends it; an epoch before it that has not begun to leave is not
sent, and a resync goes before it when the standby asks. -/
def Core.epochForm (c0 : Core) : Core :=
  if !c0.pairOn ∨ c0.mr.role ≠ .active then c0 else
  let e := c0.epochOf c0.prog.cycleStart
  let now := c0.retainBlocks
  let keys := List.range (retBlockCount c0.image)
  let w := c0.mr.waiting
  let c := ((c0.onMr fun m => { m with waiting := w.filter fun f => !((f.msg.epochOf.map (unbegun w)).getD false) }).markBlocks e now keys).resyncForm e
    now keys
  if !c.mr.link ∨ !c.mr.partnerKnown ∨ c.mr.epochStop then (if c.mr.yieldReq then c.yieldNow else c) else
  let (items, binLoop, binFirst) := c.epochItems now keys
  let n := epochBytes items (packItems items).length
  let msg : EpochEndMsg := { epoch := e, frames := 0, basis := max c.mr.snapshot c.mr.ackEpoch, overrun := c.prog.overrun,
                             swap := c.prog.olc.cleared, last := c.mr.yieldReq }
  let c1 := forL (mirFrames false msg items) Core.morPut (c.onMr fun m => { m with
    epochBytes := n, epochMax := max m.epochMax n, binLoop := binLoop, binFirst := binFirst })
  if c.mr.yieldReq then c1.yieldNow else c1

/-- RETAIN_CAPTURE: the capture of a cycle, and its epoch (R320, R694). -/
def Core.captureCycle (c : Core) : Core := if c.captureDue then c.retainCapture.epochForm else c

def execRetainCapture (s : State) : Host.Outcome State Fault Refusal := coreCmd Core.captureCycle s

/-! ## The standby's side (R697 to R700, R711, R712) -/

/-- An epoch is discarded (R697). -/
def Core.epochDrop (c : Core) : Core := (c.onMr fun m => { m with discarded := sat32 (m.discarded + 1) }).raise 0x0505 (mrPath 1)

/-- Frames of an epoch with one more; those of another epoch go. -/
def stage (e idx : Nat) (items : List MirItem) (s : Nat × List (Nat × List MirItem)) : Nat × List (Nat × List MirItem) :=
  (e, (if s.1 = e then s.2.filter (fun f => f.1 != idx) else []) ++ [(idx, items)])

/-- EPOCH_DATA: a frame of the newest epoch is staged; an older one that it leaves incomplete is discarded. -/
def Core.epochData (e idx : Nat) (items : List MirItem) (c : Core) : Core :=
  if !c.pairOn ∨ c.mr.role ≠ .standby ∨ !c.mr.partnerKnown ∨ e < c.mr.staging.1 then c else
  let c1 := if c.mr.staging.1 ≠ e ∧ c.mr.staging.2 ≠ [] then c.epochDrop else c
  c1.onMr fun m => { m with staging := stage e idx items m.staging }

/-- The entries of frames 0 to n − 1 in their order, when all are there. -/
def framesOf (n : Nat) (l : List (Nat × List MirItem)) : Option (List MirItem) :=
  if (List.range n).all (fun i => l.any fun f => f.1 == i) then
    some ((List.range n).flatMap fun i => ((l.find? fun f => f.1 == i).map Prod.snd).getD [])
  else none

/-- The entries that an end marker completes: every frame is there, and BYTES and CRC agree (R697, R712). -/
def endEntries (x : EpochEndMsg) (s : Nat × List (Nat × List MirItem)) : Option (List MirItem) :=
  (framesOf x.frames (if s.1 = x.epoch then s.2 else [])).filter fun l => itemsSize l == x.bytes && itemsCrc l == x.crc

/-- Retained blocks among entries, applied. -/
def applyItems (l : List MirItem) (m : SMap (BitVec 512)) : SMap (BitVec 512) :=
  l.foldl (fun m e => match e with | .block n v => SMap.set 0 m n v | _ => m) m

/-- Bins go to the loops (R698), and count for BINS_FULL. -/
def Core.applyBins (l : List MirItem) (c : Core) : Core :=
  forL l (fun e d => match e with
    | .bins n first vs =>
      forL (number first vs) (fun (j, v) k =>
        (k.onLrn n fun x => { x with bins := SMap.set 0 x.bins j v }).onMr fun m => { m with binsSeen := SMap.set false m.binsSeen (n * 4096 + j) true }) d
    | _ => d) c

/-- Whether every bin has been applied since the resync (R700). -/
def Core.allBins (c : Core) : Bool :=
  (c.image.loops.filter fun n => c.rcSrc n ≠ 0).all fun n => (List.range (c.rcN n)).all fun j => SMap.get false c.mr.binsSeen (n * 4096 + j)

/-- A complete epoch is switched into use at one instant (R697). -/
def Core.epochApply (x : EpochEndMsg) (items : List MirItem) (c : Core) : Core :=
  let c1 := c.applyBins items
  let n := epochBytes items x.frames
  let began := !c.mr.inSync && c.mr.snapDone
  (c1.onMr fun m => { m with
    mBlocks := applyItems items m.mBlocks
    mItems := items.filter fun e => match e with | .tag _ _ | .loop _ _ _ _ _ _ _ | .axis _ _ => true | _ => false
    epoch := x.epoch, epochApplied := x.epoch, epochBytes := n, epochMax := max m.epochMax n
    staging := if m.staging.1 ≤ x.epoch then (x.epoch + 1, []) else m.staging
    binsFull := m.binsFull || c1.allBins, inSync := m.inSync || began, state := if began then .synced else m.state }).raiseIf began 0x0501 (mrPath 2)

/-- EPOCH_END: answers whether the epoch was switched in (R697, R712). -/
def Core.epochEnd (x : EpochEndMsg) (c : Core) : Core × Bool :=
  let m := c.mr
  if !c.pairOn ∨ m.role ≠ .standby ∨ !m.partnerKnown then (c, false) else
  let fits : Bool := m.snapDone && (decide (x.basis ≤ m.epochApplied) || x.basis == m.snapshot) && decide (m.epochApplied < x.epoch)
  match if fits then endEntries x m.staging else none with
  | some l => (c.epochApply x l, true)
  | none => (c.epochDrop.onMr fun m => { m with staging := if m.staging.1 ≤ x.epoch then (x.epoch + 1, []) else m.staging }, false)

/-- Whether a standby takes the frames of a resync. -/
def Core.resyncing (c : Core) : Bool :=
  c.pairOn && c.mr.role == .standby && c.mr.partnerKnown && !c.mr.snapDone && !c.mr.resyncStop

/-- RESYNC_DATA: a frame of the newest snapshot is staged. -/
def Core.resyncData (e idx : Nat) (items : List MirItem) (c : Core) : Core :=
  if !c.resyncing ∨ e < c.mr.staging2.1 then c else c.onMr fun m => { m with staging2 := stage e idx items m.staging2 }

/-- RESYNC_END: a complete, checked snapshot is applied (R712). -/
def Core.resyncEnd (x : EpochEndMsg) (c : Core) : Core :=
  if !c.resyncing then c else
  match endEntries x c.mr.staging2 with
  | none => c.onMr fun m => { m with staging2 := (m.staging2.1, []) }
  | some l => c.onMr fun m => { m with
    mBlocks := applyItems l [], staging2 := (0, []), snapshot := x.epoch, epochApplied := x.epoch
    snapDone := true, resyncReq := false, binsFull := false, binsSeen := [] }

/-- An ABORT of channel 1 or 2: what waits of the epochs or of a resync is dropped (R215, R696, R712). -/
def Core.mrAbort (ch : Nat) (c : Core) : Core :=
  if ch = 1 then c.onMr fun m => { m with
    epochStop := true, staging := (m.staging.1, []), waiting := m.waiting.filter fun f => f.msg.epochOf.isNone }
  else c.onMr fun m => { m with
    staging2 := (0, []), resyncReq := false, resyncStop := m.role == .standby && !m.inSync, waiting := m.waiting.filter fun f => !f.msg.isResync
    state := if m.role = .standby ∧ m.state = .resyncing then .unsynced else m.state }

/-! ## Takeover (R704 to R706) -/

/-- The axis of a record (R474). -/
def Core.axRestore (a : Nat) (r : AxisRec) (c : Core) : Core :=
  let w := wd r.status
  let mode : AxMode := match r.mode with | 1 => .position | 2 => .velocity | 3 => .follow | _ => .none
  let st : AxState := match r.st with
    | 0 => .disabled | 2 => .moving | 3 => .syncing | 4 => .following | 5 => .stopping | 6 => .qstopping | 7 => .qstopped | 8 => .stopping
    | 9 => .stopping | _ => .standstill
  let now := c.ax64 A.AX_DEC a
  let c1 := match r.dec with | some v => c.setReg64 (axA A.AX_DEC a) v | none => c
  (c1.onAxis a fun x => { x with
    pos := r.pos, vel := r.vel, acc := r.acc, jerk := 0, plan := [], planStep := 0, inbox := [], mode := mode, st := st
    tgt := if mode = .velocity then x.tgt else r.tgt, tgtVel := if mode = .velocity then r.tgt else x.tgtVel
    hasTgt := decide (mode = .position ∨ mode = .velocity), posValid := r.posValid, decNow := r.dec.map fun _ => now, decDeferred := r.dec.isSome
    sPrev := if mode = .follow then some r.sPrev else none, sCur := if mode = .follow then some r.sCur else none, sPrev2 := none, sNext := none
    excess := [], excessStep := 0, excessVel := 0, missing := 0
    aborted := bit w 15, trackFault := bit w 14, followExtrap := bit w 12, followLimited := bit w 11, swLimit := bit w 10
    tgtClamped := bit w 9, posWrapped := bit w 8, inWindow := bit w 7, atTarget := bit w 6, atSpeed := bit w 5
    stopRank := if st = .stopping then 3 else if st = .qstopping then 1 else 0, jogDir := 0 }).axResume a

/-- FOLLOW samples move on over the cycles since the epoch's, each extrapolated (R461, R706). -/
def Core.axSkipCycles (a : Nat) : Nat → Core → Core
  | 0, c => c
  | n + 1, c => Core.axSkipCycles a n (c.onAxis a fun x => match x.sPrev, x.sCur with
    | some s0, some s1 => { x with sPrev := some s1, sCur := some (c.wrapPos a (s1 + c.diffPos a s1 s0)), missing := x.missing + 1 }
    | _, _ => x)

/-- The command of n generator steps from an instant on. -/
def Core.axProject (a : Nat) (t : Time) : Nat → Core → Core
  | 0, c => c
  | n + 1, c => Core.axProject a (t + us) n (c.axCommandStep a t)

/-- Each axis record projected along its plan to the first generator step after D (R705 step 2). The records stand as at the end
of the commit of cycle e (notes/assumptions/41.md). -/
def Core.axesTakeover (c : Core) : Core :=
  let e := c.mr.epochApplied
  let t0 := cdiv (e * c.baseLen + ns c.image.schedule.commitEnd) us * us
  let n := ((c.now / us + 1) * us - t0) / us
  forL c.mr.mItems (fun x d => match x with
    | .axis a r => ((d.axRestore a r).axSkipCycles a (min 300 (d.epochOf d.now - e))).axProject a (t0 + us) n
    | _ => d) c

/-- The standby takes over at D (R705 steps 1 and 2, R706). -/
def Core.takeover (c : Core) : Core :=
  let claim := c.claimAbove 1
  let run := c.mr.beat.mode == 5 || c.mr.beat.mode == 6
  let c1 := c.freeze.onMr fun m => { m with
    role := .active, claim := claim, state := .alone, staging := (0, []), staging2 := (0, []), resyncReq := false, snapDone := false, inSync := false
    snapshot := 0, ackEpoch := 0, epochStop := false, resyncStop := false, blkLast := [], blkAt := [], takeovers := sat32 (m.takeovers + 1)
    toTime := c.now, frozen := true, yieldReq := false, toPending := some (if run then .run else .standby) }
  let c2 := ((c1.onLn fun l => { l with seq := (c.mr.beat.lnSeq + 256) % 2 ^ 32 }).activePin).raise 0x0581 (mrPath 0)
  let c3 := c2.axesTakeover.queuesStandby
  c3.onCap fun p => { p with units := SMap.mapAll {} (fun _ u => { u with st := .idle, cur := none, held := [], waiting := none, spilling := false }) p.units }

/-- The standby detects failure of the active (R704). -/
def Core.failDetected (c : Core) : Core :=
  if c.mr.inSync then c.takeover
  else (forN 8 Core.shadowClear (c.onMr fun m => { m with state := .unsynced })).raise 0x0543 (mrPath 0)

/-- u_ref of a CLOSED loop from its shadow output word (R706); a zero multiplier leaves it free. -/
def Core.shadowRef (n : Nat) (c : Core) : Core × Int :=
  let mant := c.lpQ15 A.LP_OUT_SCALE n 0
  let (m, pt) := (c.point (c.lpFld A.LP_OUT_TAG n 24 0)).getD (0, 0)
  let word := rawNum (ptType pt) (ptWidth pt) (c.outField m (ptLsb pt) (ptWidth pt))
  if mant = 0 then let (w, d) := c.freeWord; (d, sx 16 (bits w 15 0))
  else (c, satQ15 (Int.tdiv ((word - c.sreg (lpA A.LP_OUT_OFFSET n)) * 32768) (mant * 2 ^ c.lpFld A.LP_OUT_SCALE n 20 16)))

/-- MODE of a loop record (R386). -/
def recMode (flags : Nat) : LoopMode := match flags % 4 with | 2 => .manual | 3 => .closed | _ => .open

/-- A loop continues from its record (R706). -/
def Core.loopRestore (n : Nat) (i u yf r : Int) (flags age : Nat) (c : Core) : Core :=
  let bins := (c.loop n).lrn.bins
  let mode := recMode flags
  let (c1, ref) := if mode = .closed then c.shadowRef n else (c, u)
  let shut : Bool := mode == .closed
  (c1.loopStart n none).onLoop n fun l => { l with
    mode := mode, i := i, u := ref, wrote := true, yf := yf, r := r, started := true, aborted := flags.testBit 2, stale := flags.testBit 3
    frozen := flags.testBit 4, age := age, reclose := shut, lrn := { l.lrn with bins := bins, dwell := some { k := 0, bad := true } } }

/-- A selected tag goes to its Tarn 1 binding (R698). -/
def Core.selRestore (t : Tag) (v : DWord) (c : Core) : Core :=
  match c.image.tags.find? fun d => d.tag == t with
  | some d => (c.t1Write d.binding v.toNat (cdiv (c.tagWidth t) 8)).setTag t v
  | none => c

/-- T1 of a takeover (R705 step 4, R706): memory from the image, then the mirrored state. -/
def Core.takeoverRestore (c : Core) : Core :=
  let img := c.image
  let m := c.mr
  let c1 := (c.placeMemory).restoreItems m.mBlocks 0 img.retain
  let fs := forcesOf m.mBlocks (cdiv (retItems img) 64)
  let c2 := forL fs (fun f d => d.markForced f.tag true) ((c1.forcesClear).onProg fun p => { p with forces := fs })
  let c3 := forL m.mItems (fun x d => match x with
    | .tag t v => d.selRestore t v
    | .loop n i u yf r flags age => d.loopRestore n i u yf r flags age
    | _ => d) c2
  let lag := min 65535 (c.epochOf c.now - m.epochApplied)
  c3.onMr fun m => { m with toPending := none, toLag := lag * 65536 + min 65535 ((c.now - m.toTime) / us) }

/-! ## Heartbeats (R687, R688, R691, R699, R709, R710, R722) -/

/-- DEV_MODE.MODE of a mode (R126). -/
def modeCode : Mode → Nat
  | .recovery => 1 | .minimal => 2 | .configure => 3 | .standby => 4 | .run => 5 | .service => 6

/-- MR_STATUS.ROLE. -/
def roleCode : PairRole → Nat
  | .none => 0 | .active => 1 | .standby => 2 | .yielding => 3

/-- The heartbeat that this unit sends. -/
def Core.myBeat (c : Core) : BeatMsg :=
  let m := c.mr
  { tick := tickOf c.now, claim := m.claim, role := roleCode m.role, mode := modeCode c.md.mode, unitB := m.unitB, inSync := m.inSync, resync := m.resyncReq
    partnerKnown := m.partnerKnown, vkaA := c.pw.vkaA, vkaB := c.pw.vkaB, feedA := c.pw.feedA, feedB := c.pw.feedB
    olcReady := c.prog.olc.st != .none && c.prog.olc.st != .loading, claimSeen := m.claimSeen, lnSeq := c.ln.seq
    ackEpoch := if m.role = .standby then m.epochApplied else 0, imageId := c.image.imageId, safetyHash := c.safetyHash }

/-- The tick's part: a heartbeat is sent, and that of the tick before falls due (R687, R688). -/
def Core.hbTick (c : Core) : Core :=
  if !c.pairOn then c else
  (c.onMr fun m => { m with hbDue := m.partnerHeard && !m.hbThisTick, hbThisTick := false }).morPut (.beat c.myBeat)

/-- A mismatch is shown and raised once (R718, R722). -/
def Core.mismatch (c : Core) : Core :=
  (c.syncLost.onMr fun m => { m with state := .mismatch, resyncReq := false }).raiseIf (c.mr.state != .mismatch) 0x0544 (mrPath 1)

/-- A unit without a role takes one from what its partner reports (R685). -/
def Core.takeRole (b : BeatMsg) (c : Core) : Core :=
  if c.mr.role ≠ .none ∨ c.md.mode ≠ .standby then c
  else if b.role = 1 ∨ b.role = 3 then c.becomeStandby
  else if b.role = 0 ∧ !c.mr.unitB ∧ b.partnerKnown then c.becomeActive false
  else c

/-- What a counted heartbeat of a known partner does in each role. -/
def Core.beatRole (b : BeatMsg) (c : Core) : Core :=
  match c.mr.role with
  | .standby =>
    let old := decide (c.mr.epochApplied + c.fld A.MR_CFG 23 16 < c.epochOf c.now) && (b.mode == 5 || b.mode == 6)
    let c1 := if old then c.syncLost else c
    c1.onMr fun m => { m with
      resyncReq := !m.inSync && !m.snapDone && !m.resyncStop
      frozen := false
      state := if m.inSync then .synced else if m.resyncStop then .unsynced else .resyncing }
  | .active | .yielding => c.onMr fun m => { m with
      ackEpoch := if b.role = 2 then b.ackEpoch else 0
      state := if b.role = 2 ∧ b.inSync then .synced else if b.resync then .resyncing else .unsynced }
  | .none => c.onMr fun m => { m with state := .unsynced }

/-- HEARTBEAT. -/
def Core.heartbeat (b : BeatMsg) (c : Core) : Core :=
  if !c.pairOn then c
  else if b.version ≠ 1 then c.mismatch
  else if b.tick ≠ tickOf c.now then c.syncLost
  else
    let c1 := c.onMr fun m => { m with hbThisTick := true, missRun := 0, partnerHeard := true, waitFrom := none }
    if !c1.mr.partnerKnown then c1 else
    let c2 := c1.onMr fun m => { m with beat := b, claimSeen := max m.claimSeen (max b.claim b.claimSeen) }
    let c3 := c2.demote b.claim
    if b.imageId ≠ c.image.imageId ∨ b.safetyHash ≠ c.safetyHash then (c3.takeRole b).mismatch
    else (c3.takeRole b).beatRole b

/-- HEARTBEAT_MISSED: the heartbeat of the tick before is judged missed; the third in a row detects failure (R688). -/
def Core.hbMissed (c : Core) : Core :=
  if !c.pairOn ∨ !c.mr.hbDue then c else
  let n := min 255 (c.mr.missRun + 1)
  let c1 := c.onMr fun m => { m with hbDue := false, hbMissed := sat32 (m.hbMissed + 1), missRun := n }
  if n ≠ 3 then c1
  else match c1.mr.role with
  | .standby => c1.failDetected
  | .active | .yielding => (c1.onMr fun m => { m with state := .alone }).raise 0x0541 (mrPath 0)
  | .none => c1

/-- YIELD: failure is detected at its arrival (R689). -/
def Core.yieldArrives (claim : Nat) (c : Core) : Core :=
  if !c.pairOn ∨ c.mr.role ≠ .standby ∨ !c.mr.partnerKnown then c
  else (c.onMr fun m => { m with claimSeen := max m.claimSeen claim }).failDetected

/-- A frame of MOR beside the heartbeat: a bad FCS drops it, and a foreign VERSION shows as a mismatch (R722). -/
def Core.morFrame (h : MorHdr) (f : Core → Core) (c : Core) : Core :=
  if !c.pairOn ∨ !h.crcOk then c else if h.version ≠ 1 then c.mismatch else f c

/-! ## The commands -/

def execMorLinkUp (s : State) : Host.Outcome State Fault Refusal := coreCmd Core.morUp s
def execPairWaitExpiry (s : State) : Host.Outcome State Fault Refusal := coreCmd Core.pairWaitExpiry s
def execHeartbeat (b : BeatMsg) (s : State) : Host.Outcome State Fault Refusal := coreCmd (Core.heartbeat b) s
def execHeartbeatMissed (s : State) : Host.Outcome State Fault Refusal := coreCmd Core.hbMissed s
def execYieldFrame (h : MorHdr) (_lastEpoch _mode : Nat) (s : State) : Host.Outcome State Fault Refusal :=
  coreCmd (Core.morFrame h (Core.yieldArrives h.claim)) s
def execEpochData (h : MorHdr) (idx : Nat) (items : List MirItem) (s : State) : Host.Outcome State Fault Refusal :=
  coreCmd (Core.morFrame h (Core.epochData h.epoch idx items)) s
def execResyncData (h : MorHdr) (x : MirPart) (s : State) : Host.Outcome State Fault Refusal :=
  coreCmd (Core.morFrame h (Core.resyncData h.epoch x.idx x.items)) s
def execResyncEnd (f : EndFrame) (s : State) : Host.Outcome State Fault Refusal :=
  coreCmd (Core.morFrame f.h (Core.resyncEnd f.m)) s
def execCourseFrameShadow (p claim _cycle : Nat) (ws : List (Nat × Word)) (s : State) : Host.Outcome State Fault Refusal :=
  coreCmd (Core.shadowTake p claim ws) s
def execShadowLost (p : Nat) (s : State) : Host.Outcome State Fault Refusal := coreCmd (Core.shadowLoss p) s

end Sys2Proof.Machine
end

