-- ==== Sys2Proof/Machine/Lintel.lean ====
section
/-!
DEFINITION. Machine/Lintel.lean: the chain (15_lintel_chain): frames, neighbours, map and topology, the line shaft, exports and
imports, chain triggers, safety containers, relayed traffic.
-/
namespace Sys2Proof.Machine

def lnPath : Nat := path 4 allOf allOf
/-- Path of a unit's neighbour (R681). -/
def Core.nbPath (c : Core) (u : Nat) : Nat := path 4 u (c.lnPort u).nbNum
/-- Whether a unit is a Lintel port of this device (R610, R652). -/
def Core.lnUnit (c : Core) (u : Nat) : Bool := decide (u < 2) || (decide (u < 4) && c.ashRole (u + 4) == 5)
/-- Whether the device takes part in the chain: not held in reset. -/
def Core.lnOn (c : Core) : Bool := !c.md.held && c.md.mode != .recovery
/-- A tick count of elapsed time. -/
def ticks (n : Nat) : Time := n * tickLen

/-! ## Receiving (R659, R663) -/

/-- Keeps the newest 256 of each origin. -/
def addSeen (o s : Nat) (l : List (Nat × Nat)) : List (Nat × Nat) :=
  (o, s) :: ((l.filter fun e => e.1 == o).take 255 ++ l.filter fun e => e.1 != o)

/-- Frames under the device's own number show a pair's other claim (R686, R709). -/
def Core.ownFrame (f : LnHdr) (c : Core) : Core :=
  if c.image.pair.en then (c.onMr fun m => { m with claimSeen := max m.claimSeen f.claim }).demote f.claim else c

/-- Whether a frame's origin is a neighbour that has not been verified, over its link (R663). -/
def Core.barred (c : Core) (f : LnHdr) : Bool :=
  let p := c.lnPort f.unit
  (p.nb == .new || p.nb == .failed) && p.nbNum == f.origin

/-- Whether the header itself is bad: VERSION, or a LENGTH that is not that of the bytes which follow (R656). -/
def lnBad (f : LnHdr) : Bool := f.version != 1 || f.length != f.bytes

/-- LN_RX_BAD counts a frame with a bad header or FCS (R679). -/
def Core.lnCheck (f : LnHdr) (c : Core) : Core := if lnBad f || !f.crcOk then c.bump (A.LN_RX_BAD + 0x40 * f.unit) else c

/-- A frame that a unit forwards: it waits for the port, or ends with an inverted FCS where it has turned out bad (R659). -/
def Core.lnPass (f : LnHdr) (u type : Nat) (ws : List Nat) (c : Core) : Core :=
  if !(c.lnPort u).link then c
  else if f.crcOk then c.lnPut u type 1 ([f.origin, f.seq, f.claim, f.hops + 1] ++ ws)
  else c.lnStomp u type

/-- A flooded frame: discarded on a test of its header, or forwarded; answers whether it is taken, which only a good one is
(R659, R663). -/
def Core.flooded (f : LnHdr) (type : Nat) (ws : List Nat) (c0 : Core) : Core × Bool :=
  if !c0.lnOn || !c0.lnUnit f.unit || !(c0.lnPort f.unit).link then (c0, false) else
  let c := c0.lnCheck f
  if lnBad f then (c, false)
  else if f.origin = c.devNum then (if f.crcOk then c.ownFrame f else c, false)
  else if type ≠ 1 ∧ c.barred f then (c, false)
  else if c.ln.seen.contains (f.origin, f.seq) then (c.bump A.LN_DUP, false)
  else if 1023 ≤ f.hops then (c, false)
  else
    let c1 := if f.crcOk then c.onLn fun l => { l with seen := addSeen f.origin f.seq l.seen } else c
    (forN 4 (fun u d => if u ≠ f.unit then d.lnPass f u type ws else d) c1, f.crcOk)

/-- The claim of an origin's SHAFT or SAFE frame (R627, R669): whether it is obeyed. -/
def Core.claimOk (f : LnHdr) (c : Core) : Core × Bool :=
  let (hi, t) := SMap.get (0, 0) c.ln.claims f.origin
  if hi ≤ f.claim ∨ t + ticks c.image.pair.shaftHoldWin ≤ c.now then
    (c.onLn fun l => { l with claims := SMap.set (0, 0) l.claims f.origin (f.claim, c.now) }, true)
  else (c, false)

/-! ## Map and topology (R653, R661) -/

/-- The links that the map knows: device, unit, neighbour. -/
def Core.mapLinks (c : Core) : List (Nat × Nat × Nat) :=
  c.ln.devs.flatMap fun d => (d.links.filter fun k => k.2.1 != 0).map fun k => (d.dev, k.1, k.2.2)

/-- The devices within reach over undirected links. -/
def reach (ls : List (Nat × Nat)) : Nat → List Nat → List Nat
  | 0, s => s
  | n + 1, s =>
    let more := ls.filterMap fun e => if s.contains e.1 then some e.2 else if s.contains e.2 then some e.1 else none
    reach ls n (s ++ more).eraseDups

/-- LN_STATUS.TOPO of a map (R680): links once for each pair of ends. -/
def topoOf (links : List (Nat × Nat × Nat)) : Nat :=
  let ends := (links.map fun k => (min k.1 k.2.2, max k.1 k.2.2))
  let devs := (ends.flatMap fun e => [e.1, e.2]).eraseDups
  let deg (d : Nat) : Nat := (links.filter fun k => k.1 == d).length
  let edges := links.length / 2
  let big := devs.any fun d => decide (2 < deg d)
  let loop := devs.length ≠ 0 ∧ devs.length ≤ edges
  if loop then (if big ∨ devs.any (fun d => decide (deg d ≠ 2)) then 3 else 1) else if big then 2 else 0

/-- The links of the plan, both ways: device, port, neighbour. -/
def planLinks (i : Image) : List (Nat × Nat × Nat) := (bothWays i.chain).map fun k => (k.dev, k.port, k.nb)

/-- Whether a link of the plan lies on a ring of it. -/
def onRing (i : Image) (n : Nat) : Bool :=
  match i.chain[n]? with
  | some k => (reach ((i.chain.eraseIdx n).map fun e => (e.dev, e.nb)) i.chain.length [k.dev]).contains k.nb
  | none => false

/-- Whether two devices lie on one ring of LIN links of the plan (R673): no device has more than two of them, so that the ring is the
whole of what they reach. -/
def onLinRing (i : Image) (a b : Nat) : Bool :=
  let ls := i.chain.filter fun k => decide (k.port < 2) && decide (k.nbPort < 2)
  let devs := reach (ls.map fun e => (e.dev, e.nb)) ls.length [a]
  devs.contains b && decide (devs.length ≤ (ls.filter fun k => devs.contains k.dev).length)

/-- Whether a device reports a link of its own down; this device judges its own ports. -/
def Core.linkOut (c : Core) (d p : Nat) : Bool :=
  if d = c.devNum then !(c.lnPort p).link
  else match c.ln.devs.find? fun x => x.dev == d with
    | some x => !(x.links.any fun k => k.1 == p && k.2.1 != 0)
    | none => false

/-- TOPO, TOPO_DIFF and RING_BROKEN from the present map (R653, R680). -/
def Core.mapJudge (c : Core) : Core :=
  let i := c.image
  let m := c.mapLinks
  let p := planLinks i
  let diff := !(m.all fun k => p.contains k) || !(p.all fun k => m.contains k)
  let open_ := (List.range i.chain.length).any fun n => onRing i n && (match i.chain[n]? with
    | some k => c.linkOut k.dev k.port || c.linkOut k.nb k.nbPort
    | none => false)
  let was := c.ln
  (((c.onLn fun l => { l with topo := topoOf m, topoDiff := diff, ringBroken := open_ }).raiseIf (diff && !was.topoDiff) 0x0406 lnPath).raiseIf
    (open_ && !was.ringBroken) 0x0404 lnPath).raiseIf (!open_ && was.ringBroken) 0x0405 lnPath

/-- The device's own links as a HELLO carries them. -/
def Core.myLinks (c : Core) : List (Nat × Nat × Nat) :=
  (List.range 4).map fun u => (u, if (c.lnPort u).link then 1 else 0, (c.lnPort u).nbNum)

/-- An entry of the map. -/
def Core.mapPut (d : LnDev) (c : Core) : Core :=
  c.onLn fun l => { l with devs := d :: l.devs.filter fun x => x.dev != d.dev }

/-- HELLO_SEND (R661). -/
def Core.helloSend (c0 : Core) : Core :=
  if !c0.lnOn then c0 else
  let c := c0.advanceTo (c0.now + (c0.ln.lastHello + ticks 1000 - c0.plumb.elapsed))
  let me : LnDev := { dev := c.devNum, fp := Config.identityFp, mode := modeCode c.md.mode, links := c.myLinks, last := c.plumb.elapsed }
  ((c.mapPut me).onLn fun l => { l with lastHello := c.plumb.elapsed }).lnFlood 1
    ([Config.identityFp, modeCode c.md.mode] ++ c.myLinks.flatMap fun k => [k.2.1, k.2.2])

/-- HELLO (R654, R661). -/
def Core.hello (f : LnHdr) (h : HelloMsg) (c : Core) : Core :=
  let own := decide (f.origin = c.devNum) && c.lnOn && !lnBad f && f.crcOk && h.fp != Config.identityFp && !(c.image.pair.en && (h.fp == c.image.pair.fpA || h.fp == c.image.pair.fpB || (h.fp == c.mr.partnerFp && c.mr.partnerKnown)))
  let c0 := if own then (c.onLn fun l => { l with numConflict := true }).raiseIf (!c.ln.numConflict) 0x0443 lnPath else c
  let (c1, ok) := c0.flooded f 1 ([h.fp, h.mode] ++ h.links.flatMap fun k => [k.2.1, k.2.2])
  if ok then (c1.mapPut { dev := f.origin, fp := h.fp, mode := h.mode, links := h.links, last := c1.plumb.elapsed }).mapJudge else c1

/-- NEIGHBOUR_TIMEOUT: a device that sent no HELLO for four intervals leaves the map (R661). -/
def Core.neighbourTimeout (dev : Nat) (c : Core) : Core :=
  match c.ln.devs.find? fun x => x.dev == dev with
  | some x =>
    if dev = c.devNum then c
    else ((c.advanceTo (c.now + (x.last + ticks 4000 - c.plumb.elapsed))).onLn fun l => { l with devs := l.devs.filter fun y => y.dev != dev }).mapJudge
  | none => c

/-! ## Routes (R661) -/

/-- Fewest hops from a set of devices to a target over the map. -/
def hopsTo (ls : List (Nat × Nat)) (target : Nat) : Nat → Nat → List Nat → Option Nat
  | 0, _, _ => none
  | f + 1, n, s => if s.contains target then some n else
    let t := reach ls 1 s
    if t.length = s.length then none else hopsTo ls target f (n + 1) t

/-- The unit toward a device: fewest hops, then LIN_E, LIN_W, ASH6, ASH7. -/
def Core.route (c : Core) (target : Nat) : Option Nat :=
  let ls := (c.mapLinks.filter fun k => k.1 != c.devNum && k.2.2 != c.devNum).map fun k => (k.1, k.2.2)
  ((List.range 4).filterMap fun u =>
    let p := c.lnPort u
    if p.link ∧ p.nb ≠ .none then (hopsTo ls target (c.ln.devs.length + 2) 0 [p.nbNum]).map fun n => (n, u) else none).foldl
      (fun (m : Option (Nat × Nat)) x => match m with | some y => if x.1 < y.1 then some x else some y | none => some x) none |>.map Prod.snd

/-! ## Links and identity (R662 to R664, R681) -/

/-- An IDENT challenge with a new nonce goes out and the unit verifies. -/
def Core.identAsk (u : Nat) (c : Core) : Core :=
  let (n, c1) := c.freeNat
  (c1.onLnPort u fun p => { p with nb := .verifying, identFrom := c.plumb.elapsed, nonce := n, identGot := [] }).lnSend u 0x10 [0, n]

/-- LINK_UP. -/
def Core.lnUp (u : Nat) (c : Core) : Core :=
  if !c.lnUnit u || (c.lnPort u).link then c
  else if c.lnOn then ((c.onLnPort u fun p => { p with link := true }).identAsk u).mapJudge
  else c.onLnPort u fun p => { p with link := true }

/-- LINTEL_LINK_DOWN (R681). -/
def Core.lnDown (u : Nat) (c : Core) : Core :=
  if !(c.lnPort u).link then c else (c.onLnPort u fun p => { p with link := false, nb := .none, nbNum := 0, nbFp := 0, waiting := [] }).mapJudge

/-- A complete answer is judged (R662). -/
def Core.identAnswer (u : Nat) (m : IdentMsg) (c : Core) : Core :=
  if (c.lnPort u).nb ≠ .verifying then c else
  let c1 := c.onLnPort u fun p => { p with nbNum := m.num, nbFp := m.fp, identGot := [] }
  if !identVerified m then (c1.onLnPort u fun p => { p with nb := .failed }).raise 0x0442 (c1.nbPath u)
  else if m.fp ≠ 0 ∧ m.fp = (c.lnPort u).knownFp then (c1.onLnPort u fun p => { p with nb := .known }).raise 0x0401 (c1.nbPath u)
  else (c1.onLnPort u fun p => { p with nb := .new }).raise 0x0402 (c1.nbPath u)

/-- IDENT: a challenge is answered; the last of the 21 frames of an answer has it judged (R662). Unit 4 is MOR (R713). -/
def Core.ident (u : Nat) (m : IdentMsg) (c : Core) : Core :=
  if u = 4 then c.mrIdent m
  else if !c.lnOn || !(c.lnPort u).link then c
  else if !m.answer then c.lnSend u 0x10 (c.identWords m.nonce)
  else if (c.lnPort u).nb ≠ .verifying then c
  else
    let l := identPieces m (c.lnPort u).identGot
    if l.length < 21 then c.onLnPort u fun p => { p with identGot := l } else c.identAnswer u m

/-- IDENT_TIMEOUT (R662). -/
def Core.identTimeout (u : Nat) (c : Core) : Core :=
  if (c.lnPort u).nb ≠ .verifying then c
  else ((c.advanceTo (c.now + ((c.lnPort u).identFrom + 50 * ms - c.plumb.elapsed))).onLnPort u fun p => { p with nb := .failed }).raise 0x0442 (c.nbPath u)

/-- LN_NB_CTL accepted by the access tests (R664). -/
def Core.lnApprove (u : Nat) (c : Core) : Core :=
  if (c.lnPort u).nb ≠ .new then c
  else (c.onLnPort u fun p => { p with knownFp := p.nbFp, nb := .known }).raise 0x0403 (c.nbPath u)
def Core.lnForget (u : Nat) (c : Core) : Core :=
  let c1 := c.onLnPort u fun p => { p with knownFp := 0 }
  if (c1.lnPort u).link then c1.identAsk u else c1

/-! ## The line shaft (R665 to R669) -/

/-- A publication is kept. -/
def Core.pubPut (p : ShaftPub) (c : Core) : Core := c.onLn fun l => { l with shaft := (p :: l.shaft).take 128 }

/-- The leader's publication at a tick start (R665). -/
def Core.shaftPublish (t : Time) (c : Core) : Core :=
  if !c.flag A.LN_CFG 31 || !(c.md.mode == .standby || c.running) || c.ln.numConflict || (c.image.pair.en && c.mr.role != .active) then c else
  let x := c.axis (c.fld A.LN_CFG 23 16)
  let pub : ShaftPub := { t := t, p := x.pos, v := x.vel, a := x.acc, claim := if c.image.pair.en then c.mr.claim else 0, src := c.devNum }
  (c.pubPut pub).lnFlood 2 [(x.pos / 2 ^ 32 % 2 ^ 64).toNat, (x.pos % 2 ^ 32).toNat, (x.vel % 2 ^ 64).toNat, (x.acc % 2 ^ 64).toNat, secOf t, tickOf t % 64000]

/-- SHAFT (R668, R669). -/
def Core.shaftRx (f : LnHdr) (m : ShaftMsg) (c : Core) : Core :=
  let (c1, ok) := c.flooded f 2 [(m.p / 2 ^ 32 % 2 ^ 64).toNat, (m.p % 2 ^ 32).toNat, (m.v % 2 ^ 64).toNat, (m.a % 2 ^ 64).toNat, secOf m.t, tickOf m.t % 64000]
  if !ok then c1 else
  let (c2, obey) := c1.claimOk f
  if !obey then c2 else
  let d := sat32 ((c2.now - m.t) / 65536)
  (c2.pubPut { t := m.t, p := m.p, v := m.v, a := m.a, claim := f.claim, src := f.origin }).onLn fun l => { l with pathNs := d, pathMax := max l.pathMax d }

/-- The shaft's class 6 tags for the start of a tick (R666). -/
def Core.shaftTags (t : Time) (c : Core) : Core :=
  match c.shaftAt t with
  | none => c
  | some (p, v, a) =>
    let stale := c.ln.shaftState == .stale
    let vals : List Int := [p / 2 ^ 32, p % 2 ^ 32, v, a]
    forL (c.image.shaft.zip vals) (fun (tag, x) d => d.produce tag (BitVec.ofInt 64 x) t stale) c

/-- SHAFT_CONSUME at the present tick's start: on time, late or stale (R666, R668). -/
def Core.shaftConsume (c : Core) : Core :=
  match c.plumb.tickAt with
  | none => c
  | some t =>
    if c.ln.shaftTick = some t ∨ c.ln.shaft = [] ∨ !(c.md.mode = .standby ∨ c.running) then c else
    let c0 := c.onLn fun l => { l with shaftTick := some t }
    let st := c.ln.shaftState
    let c1 := if (c0.pubFor t).isSome then
        (c0.onLn fun l => { l with shaftState := .ok, shaftAge := 0 }).raiseIf (st == .extrap || st == .stale) 0x0408 lnPath
      else
        let age := sat32 (c0.ln.shaftAge + 1)
        let late := (c0.bump A.LN_SHAFT_LATE).onLn fun l => { l with shaftAge := age }
        let l1 := if st = .ok ∨ st = .none then (late.onLn fun l => { l with shaftState := .extrap }).raise 0x0407 lnPath else late
        if c.regN A.LN_SHAFT_HOLD ≤ age ∧ st ≠ .stale then (l1.onLn fun l => { l with shaftState := .stale }).raise 0x0441 lnPath else l1
    c1.shaftTags t

/-! ## Exports and imports (R670, R671) -/

/-- A tag's value, carried time (R535) and staleness as it is exported. -/
def Core.tagNow (c : Core) (tag : Tag) : ExportVal :=
  let i := tagIndex tag
  match tagClass tag with
  | 0 => { tag := tag, value := c.pointValue tag, time := (c.mod (i / 1024)).act.time, stale := !c.inOperation (i / 1024) }
  | 2 => { tag := tag, value := c.axisSig (i / 16384) (i % 16384), time := c.now / tickLen * tickLen }
  | 3 => { tag := tag, value := c.loopSig (i / 4096) (i % 4096), time := (c.loop (i / 4096)).lastStart.getD 0, stale := (c.loop (i / 4096)).stale }
  | 6 => { tag := tag, value := c.tagVal tag, time := (c.import_ tag).time, stale := (c.import_ tag).stale }
  | 1 => { tag := tag, value := c.tagVal tag, time := c.prog.cycleStart }
  | _ => { tag := tag, value := c.tagVal tag, time := c.now }

/-- Frames of up to 16 entries. -/
def exportFrames (base : Time) : Nat → List ExportVal → Core → Core
  | 0, _, c => c
  | n + 1, l, c => match l with
    | [] => c
    | _ =>
      let ws := (l.take 16).flatMap fun e =>
        [e.tag, ((((e.time : Int) - base) / 65536) % 2 ^ 32).toNat, e.value.toNat, flg e.stale 0]
      exportFrames base n (l.drop 16) (c.lnFlood 3 ([secOf base, nsOf base] ++ ws))

/-- EXPORT_SEND at the present tick's start: the exports whose period starts there (R670). -/
def Core.exportSend (c : Core) : Core :=
  match c.plumb.tickAt with
  | none => c
  | some t =>
    if c.ln.exportTick = some t ∨ !(c.md.mode = .standby ∨ c.running) then c else
    let due := c.image.exports.filter fun e => e.period ≠ 0 ∧ tickOf t % e.period = 0
    exportFrames t (due.length + 1) (due.map fun e => c.tagNow e.tag) (c.onLn fun l => { l with exportTick := some t })

/-- EXPORT: entries that are bound update their class 6 tags (R670, R671). -/
def Core.exportRx (f : LnHdr) (es : List ExportVal) (c : Core) : Core :=
  let (c1, ok) := c.flooded f 3 (es.flatMap fun e => [e.tag, e.value.toNat, e.time, flg e.stale 0])
  if !ok then c1 else
  forL es (fun e d => match d.image.imports.find? fun i => i.origin == f.origin && i.tag == e.tag with
    | some i =>
      (d.onLn fun l => { l with imports := SMap.set {} l.imports i.local6 { value := e.value, time := e.time, arrived := d.now, got := true, stale := e.stale } }).produce
        i.local6 e.value e.time e.stale
    | none => d) c1

/-- IMPORT_STALE: no entry for four export periods (R671). -/
def Core.importStale (tag : Tag) (c : Core) : Core :=
  match c.image.imports.find? fun i => i.local6 == tag with
  | some i =>
    let x := c.import_ tag
    if !x.got || x.stale then c
    else (c.advanceTo (x.arrived + ticks i.stale)).onLn fun l => { l with imports := SMap.upd {} l.imports tag fun y => { y with stale := true } }
  | none => c

/-! ## Chain triggers (R579, R672) -/

/-- TRIGGER: the CHAIN triggers that name the origin and its trigger fire. -/
def Core.chainTrigger (f : LnHdr) (trig : Nat) (t : Time) (c : Core) : Core :=
  let (c1, ok) := c.flooded f 4 [trig, secOf t, nsOf t, fracOf t]
  if !ok then c1 else
  forN 128 (fun x d =>
    let w := d.reg (A.TR_CHAIN + 0x40 * x)
    if d.trigRuns x && d.trigKind x == 6 && bits w 25 16 == f.origin && bits w 6 0 == trig then d.fire x t f.origin else d) c1

/-! ## Safety containers (R673) -/

/-- SAFE: forwarded from one LIN port to the other, or taken by its target; answers what a pair of copies delivers. -/
def Core.lnSafe (f : LnHdr) (x : SafeMsg) (c0 : Core) : Core × Option SafeMsg :=
  if !c0.lnOn || decide (2 ≤ f.unit) || !(c0.lnPort f.unit).link then (c0, none) else
  let c := c0.lnCheck f
  if lnBad f then (c, none)
  else if f.origin = c.devNum then (if f.crcOk then c.ownFrame f else c, none)
  else if c.barred f then (c, none)
  else if x.target ≠ c.devNum then
    (if f.hops < 1023 then
      c.lnPass f (1 - f.unit) 5 ([x.target, x.safeId, flg x.copyB 0, x.seq, safeLen x.len] ++ safeWords x) else c, none)
  else if !f.crcOk then (c, none)
  else
    let (c1, obey) := c.claimOk f
    if !obey then (c1, none) else
    let skew := ns (c.regN A.LN_SAFE_SKEW_NS)
    let c2 := c1.advanceTo x.time
    let (l, v, _) := safeArrive skew x c2.now (c2.ln.safe.filter fun k => decide (c2.now ≤ k.time + skew))
    (c2.onLn fun n => { n with safe := l }, v)

/-! ## Relayed traffic (R674 to R678) -/

/-- Whether all pieces of a message are there. -/
def allPieces (l : List (Nat × Nat × Nat × Nat)) (u o m n : Nat) : Bool := (List.range n).all fun i => l.contains (u, o, m, i)

/-- REASON of RELAY_ERROR when no path leads to a device: 1 unknown, 2 its path is down (R221). -/
def Core.noRoute (c : Core) (target : Nat) : Nat :=
  if c.ln.devs.any (fun d => d.dev == target) || c.image.chain.any (fun k => k.dev == target || k.nb == target) then 2 else 1

/-- MGMT: pieces are assembled; a whole datagram goes on toward its target. Answers whether it is for this device (R674). -/
def Core.mgmtRx (f : LnHdr) (m : MgmtMsg) (c : Core) : Core × Bool :=
  if !c.lnOn || !(c.lnPort f.unit).link then (c, false)
  else if lnBad f || !f.crcOk then (c.lnCheck f, false) else
  let l := if c.ln.pieces.contains (f.unit, f.origin, m.message, m.piece) then c.ln.pieces else (f.unit, f.origin, m.message, m.piece) :: c.ln.pieces
  if !allPieces l f.unit f.origin m.message m.pieces then (c.onLn fun x => { x with pieces := l.take 320 }, false)
  else
    let c1 := c.onLn fun x => { x with pieces := l.filter fun e => !(e.1 == f.unit && e.2.1 == f.origin && e.2.2.1 == m.message) }
    let words (n : Nat) : List Nat := [f.origin, f.seq, f.claim, f.hops + 1, m.target, m.message, n, m.pieces]
    if m.target = 0xFFFE then
      let (c2, ok) := c1.flooded f 0x11 [m.target, m.message]
      (c2, ok)
    else if m.target = c.devNum then (c1, true)
    else match c1.route m.target with
      | some u => (forN m.pieces (fun n d => d.lnPut u 0x11 1 (words n)) c1, false)
      | none =>
        (match (if m.source = 0xFFFF then c1.route f.origin else none) with
          | some u => c1.lnSend u 0x11 [f.origin, 0x30, c1.noRoute m.target, m.target]
          | none => c1, false)

/-- Whether chunk 0 was signed by a signer of its kind (R780, R782 test 4, R803). -/
def Core.signerOk (c : Core) (h : ContHdr) : Bool :=
  let owner := c.up.boot.owners.contains h.signerFp && !h.kennus
  match h.kind with
  | 1 | 2 => h.kennus
  | 3 | 4 | 5 | 6 => c.up.boot.owners.isEmpty || owner
  | 7 => h.kennus || owner
  | _ => owner || (h.kennus && h.targetFp == Config.identityFp)

/-- The first failing test of 1 and 2 and 4 to 6 of R782; 0 none. Test 3 concerns this device alone. -/
def Core.headTest (c : Core) (h : ContHdr) : Nat :=
  if h.magic ≠ 0x5A594E5A ∨ h.format ≠ 1 ∨ h.kind = 0 ∨ 8 < h.kind then 1
  else if h.part ≠ 0x0192 ∨ 0xB0 < h.stepMin ∨ h.stepMax < 0xB0 then 2
  else if !c.signerOk h then 4 else if !h.sigOk then 5 else if !h.listOk then 6 else 0

/-- A chunk is sent toward a device over a unit and waits for its acknowledgement, unless the link has given the container up. -/
def Core.relaySend (u : Nat) (m : RelayMsg) (c : Core) : Core :=
  if c.ln.given.contains (m.d.cont, u) then c else
  ((c.onLn fun l => { l with relay := l.relay ++ [{ cont := m.d.cont, chunk := m.d.chunk, unit := u, target := m.target, chunks := m.chunks, sentAt := c.plumb.elapsed }] }).onUp
    (fun x => { x with relayed := sat32 (x.relayed + 1) })).lnSend u 0x12 [m.target, m.d.cont, m.d.chunk, m.chunks]

/-- The units toward a target, but for the one a chunk came from: all of them for 0xFFFF. -/
def Core.relayUnits (c : Core) (target : Nat) (from_ : Option Nat) : List Nat :=
  (if target = 0xFFFF then (List.range 4).filter fun u => (c.lnPort u).link else (c.route target).toList).filter fun u => some u ≠ from_

/-- RELAY: checked, acknowledged, held and forwarded; answers whether this device keeps it (R676 to R678). -/
def Core.relayRx (u : Nat) (m : RelayMsg) (c : Core) : Core × Bool :=
  let ack (st : Nat) (d : Core) : Core := d.lnSend u 0x13 [m.d.cont, m.d.chunk, st]
  let mine := m.target == c.devNum || m.target == 0xFFFF
  let rec_ := c.md.mode == .recovery
  if c.md.held || c.md.mode == .configure || !(c.lnPort u).link || (rec_ && !(m.target == c.devNum)) then (c, false)
  else if c.ln.store.contains (m.d.cont, m.d.chunk) then (ack 0 c, false)
  else if m.d.chunk = 0 ∧ c.headTest m.d.hdr ≠ 0 then (ack 2 c, false)
  else if !m.d.hashOk then (ack 1 c, false)
  else if m.d.chunk ≠ 0 ∧ !c.ln.store.contains (m.d.cont, 0) then (ack 2 c, false)
  else
    let c1 := ack 0 (c.onLn fun l => { l with store := (m.d.cont, m.d.chunk) :: l.store })
    let c2 := if rec_ ∨ m.target = c.devNum then c1 else
      forL (c1.relayUnits m.target (some u)) (fun v d => d.relaySend v m) c1
    (c2, mine)

/-- No more of a container goes over a unit (R678). -/
def Core.relayGive (cont u : Nat) (c : Core) : Core := c.onLn fun l => { l with given := (cont, u) :: l.given }

/-- RELAY_ACK: 0 confirms, 1 asks again, 2 refuses the container (R678). -/
def Core.relayAck (u cont chunk code : Nat) (c : Core) : Core :=
  match c.ln.relay.find? fun r => r.cont == cont && r.chunk == chunk && r.unit == u with
  | none => c
  | some r =>
    let rest (p : RelayChunk → Bool) (d : Core) : Core := d.onLn fun l => { l with relay := l.relay.filter fun x => !p x }
    match code with
    | 0 => rest (fun x => x.cont == cont && x.chunk == chunk && x.unit == u) c
    | 1 => (c.onLn fun l => { l with relay := l.relay.map fun x => if x = r then { x with sentAt := c.plumb.elapsed } else x }).lnSend u 0x12 [r.target, cont, chunk, r.chunks]
    | _ => (rest (fun x => x.cont == cont && x.unit == u) c).relayGive cont u

/-- RELAY_RESEND_TIMEOUT: a chunk unacknowledged after 20 ms is sent again, up to eight times; then the link abandons the
container (R678). -/
def Core.relayTimeout (cont chunk : Nat) (c0 : Core) : Core :=
  match c0.ln.relay.find? fun r => r.cont == cont && r.chunk == chunk with
  | none => c0
  | some r =>
    let c := c0.advanceTo (c0.now + (r.sentAt + 20 * ms - c0.plumb.elapsed))
    if r.resends < 8 then
      (c.onLn fun l => { l with relay := l.relay.map fun x => if x = r then { x with resends := x.resends + 1, sentAt := c.plumb.elapsed } else x }).lnSend r.unit 0x12
        [r.target, cont, chunk, r.chunks]
    else (((c.onLn fun l => { l with relay := l.relay.filter fun x => !(x.cont == cont && x.unit == r.unit) }).relayGive cont r.unit).onUp fun x =>
      { x with abandoned := sat32 (x.abandoned + 1) }).raise 0x0444 (c.nbPath r.unit)

/-- An ABORT of a port (R215): relay and relayed management traffic through it stop. -/
def Core.lnAbort (u : Nat) (c : Core) : Core :=
  (c.onLn fun l => { l with relay := l.relay.filter fun x => x.unit != u, pieces := l.pieces.filter fun e => e.1 != u }).onLnPort u fun p =>
    { p with waiting := p.waiting.filter fun f => !(f.type == 0x11 || f.type == 0x12 || f.type == 0x13) }

/-- HIST: the bytes from RS_RD_PTR on that have not gone yet go to the historian peer, 256 a frame (R552, R675). -/
def Core.hist (k : Nat) (c : Core) : Core :=
  let s := c.stream k
  let l := (s.ring.drop s.sent).take 16
  if c.rsDest k ≠ 2 ∨ l = [] ∨ !(c.md.mode = .standby ∨ c.running) then c else
  match c.route (c.fld (rsA A.RS_PEER_CFG k) 25 16) with
  | some u =>
    let off := if c.rsSize k = 0 then s.rdPtr else (s.rdPtr + s.sent) % c.rsSize k
    (c.onStream k fun x => { x with sent := x.sent + l.length }).lnSend u 0x14 ([k, off] ++ l.map (·.toNat))
  | none => c

/-- Whether the peer of a stream is a neighbour that has not been verified, whose frames are dropped (R663). -/
def Core.peerBarred (c : Core) (k : Nat) : Bool :=
  let peer := c.fld (rsA A.RS_PEER_CFG k) 25 16
  (List.range 4).any fun u => c.barred { unit := u, origin := peer, seq := 0 } && c.route peer == some u

/-- HIST_ACK: the count of 16-byte units that the peer received in order advances the ring (R554, R675). -/
def Core.histAck (k n : Nat) (c : Core) : Core :=
  let s := c.stream k
  if c.rsDest k ≠ 2 ∨ n = 0 ∨ c.peerBarred k then c else
  let m := min n s.ring.length
  c.onStream k fun s => { s with
    ring := s.ring.drop m, sent := s.sent - m, rdPtr := if c.rsSize k = 0 then s.rdPtr else (s.rdPtr + m) % c.rsSize k
    lastAck := c.plumb.elapsed, peerSilent := false }

/-! ## The commands -/

def execHelloSend (s : State) : Host.Outcome State Fault Refusal := coreCmd Core.helloSend s
def execHello (f : LnHdr) (h : HelloMsg) (s : State) : Host.Outcome State Fault Refusal := coreCmd (Core.hello f h) s
def execNeighbourTimeout (dev : Nat) (s : State) : Host.Outcome State Fault Refusal := coreCmd (Core.neighbourTimeout dev) s
def execLinkUp (u : Nat) (s : State) : Host.Outcome State Fault Refusal := coreCmd (Core.lnUp u) s
def execLintelLinkDown (u : Nat) (s : State) : Host.Outcome State Fault Refusal := coreCmd (Core.lnDown u) s
def execIdent (u : Nat) (m : IdentMsg) (s : State) : Host.Outcome State Fault Refusal := coreCmd (Core.ident u m) s
def execIdentTimeout (u : Nat) (s : State) : Host.Outcome State Fault Refusal := coreCmd (Core.identTimeout u) s
def execShaft (f : LnHdr) (m : ShaftMsg) (s : State) : Host.Outcome State Fault Refusal := coreCmd (Core.shaftRx f m) s
def execShaftConsume (s : State) : Host.Outcome State Fault Refusal := coreCmd Core.shaftConsume s
def execExportSend (s : State) : Host.Outcome State Fault Refusal := coreCmd Core.exportSend s
def execExportFrame (f : LnHdr) (es : List ExportVal) (s : State) : Host.Outcome State Fault Refusal := coreCmd (Core.exportRx f es) s
def execImportStale (tag : Tag) (s : State) : Host.Outcome State Fault Refusal := coreCmd (Core.importStale tag) s
def execTrigger (f : LnHdr) (trig : Nat) (t : Time) (s : State) : Host.Outcome State Fault Refusal := coreCmd (Core.chainTrigger f trig t) s
def execRelayAck (u cont chunk code : Nat) (s : State) : Host.Outcome State Fault Refusal := coreCmd (Core.relayAck u cont chunk code) s
def execRelayResendTimeout (cont chunk : Nat) (s : State) : Host.Outcome State Fault Refusal := coreCmd (Core.relayTimeout cont chunk) s
def execHist (k : Nat) (s : State) : Host.Outcome State Fault Refusal := coreCmd (Core.hist k) s
def execHistAck (k n : Nat) (s : State) : Host.Outcome State Fault Refusal := coreCmd (Core.histAck k n) s

end Sys2Proof.Machine
end

