-- ==== Sys2Proof/Machine/Island.lean ====
section
/-!
DEFINITION. Machine/Island.lean: the safety island of 17_safety_island (R729 to R774): inputs, test pulses, functions, dark
tests, brakes, connections, lock-out and reset. Times are samples of 10 µs of channel W's reference; channel W's exact limits
take effect (R733, notes/assumptions/60.md).
-/
namespace Sys2Proof.Machine

/-! ## Access -/

def Dev.onIsl (f : Island → Island) (d : Dev) : Dev := { d with isl := f d.isl }
def Island.onIn (i : Nat) (f : SafeIn → SafeIn) (x : Island) : Island := { x with ins := SMap.upd {} x.ins i f }
def Island.onFn (n : Nat) (f : SafeFn → SafeFn) (x : Island) : Island := { x with fns := SMap.upd {} x.fns n f }
def Island.onTp (s : Nat) (f : SafeTp → SafeTp) (x : Island) : Island := { x with tps := SMap.upd {} x.tps s f }
def Island.onBrk (k : Nat) (f : SafeBrk → SafeBrk) (x : Island) : Island := { x with brks := SMap.upd {} x.brks k f }
def Island.onConn (n : Nat) (f : SafeConn → SafeConn) (x : Island) : Island := { x with conns := SMap.upd {} x.conns n f }
def Island.inp (x : Island) (i : Nat) : SafeIn := SMap.get {} x.ins i
def Island.fn (x : Island) (n : Nat) : SafeFn := SMap.get {} x.fns n
def Island.tp (x : Island) (s : Nat) : SafeTp := SMap.get {} x.tps s
def Island.brk (x : Island) (k : Nat) : SafeBrk := SMap.get {} x.brks k
def Island.conn (x : Island) (n : Nat) : SafeConn := SMap.get {} x.conns n

/-- The running block, or an empty one (R737). -/
def Island.blk (x : Island) : SafetyBlock := x.block.getD {}
def Island.inDef (x : Island) (i : Nat) : SafeInDef := x.blk.inputs.getD i {}
def Island.tpDef (x : Island) (s : Nat) : SafeTpDef := x.blk.tps.getD s {}
def Island.fnDef (x : Island) (n : Nat) : SafeFnDef := x.blk.fns.getD n {}
def Island.brkDef (x : Island) (k : Nat) : SafeBrkDef := x.blk.brks.getD k {}
def Island.connDef (x : Island) (n : Nat) : SafeConnDef := x.blk.conns.getD n {}

/-- LOCKED (R764). -/
def Island.locked (x : Island) : Bool := x.p.locked || x.w.locked

/-- Paths of the island (R774). -/
def islPath : Nat := 0x0DFFFFFF
def inPath (i : Nat) : Nat := 0x0D000000 + i
def outPath (n : Nat) : Nat := 0x0D001000 + n
def brkPath (k : Nat) : Nat := 0x0D002000 + k
def tpPath (s : Nat) : Nat := 0x0D003000 + s

/-- The management core reports an event of the island (R774). -/
def Dev.report (code p : Nat) (d : Dev) : Dev := d.onCore fun c => c.raise code p

/-- A function over the first n numbers. -/
def forD (n : Nat) (f : Nat → Dev → Dev) (d : Dev) : Dev := (List.range n).foldl (fun e i => f i e) d

/-! ## Pins -/

/-- Drives both pins of a safe output (R730); a change is observed (R22). -/
def Dev.outPins (n : Nat) (p w : Bool) (d : Dev) : Dev :=
  let f := d.isl.fn n
  if f.pinP = p ∧ f.pinW = w then d else
  let d1 := d.onIsl fun x => x.onFn n fun g => { g with pinP := p, pinW := w, pinAt := x.now, mism := 0 }
  let d2 := if f.pinP ≠ p then d1.onCore (Core.emit (.pin 4 n p)) else d1
  let d3 := if f.pinW ≠ w then d2.onCore (Core.emit (.pin 5 n w)) else d2
  if (f.pinP && f.pinW) = (p && w) then d3 else d3.onCore fun c => c.produceHw (40 + n) (if p && w then 1 else 0) c.now

/-- The pins that a function's state and dark test give. -/
def Dev.outDrive (n : Nat) (d : Dev) : Dev :=
  let f := d.isl.fn n
  let on := (f.st == .on || f.st == .ss1) && !d.isl.locked
  d.outPins n (on && !(f.dark.isSome && !f.darkCh)) (on && !(f.dark.isSome && f.darkCh))

/-- A brake is released while its function is ON or in SS1 and the program requests it (R751). -/
def Dev.brkDrive (k : Nat) (d : Dev) : Dev :=
  let b := d.isl.brk k
  let f := d.isl.fn (d.isl.brkDef k).func
  let r := (f.st == .on || f.st == .ss1) && b.req && !d.isl.locked
  if b.released = r then d
  else (d.onIsl fun x => x.onBrk k fun y => { y with released := r, changedAt := x.now }).onCore (Core.emit (.pin 7 k r))

/-- Every pin follows its function. -/
def Dev.drive (d : Dev) : Dev := forD 4 Dev.brkDrive (forD 8 Dev.outDrive d)

/-! ## Brake tests (R752 to R755) -/

/-- The axis of a test returns to STANDSTILL with I at HOLD_I; an axis that a stop already took stays as it is (R753). -/
def Core.brakeRelease (a : Nat) (c : Core) : Core :=
  if (c.axis a).st = .brakeTest then
    (c.still a .standstill).onAxis a fun x => { x with holding := true, current := c.axFld A.AX_CURRENT a 15 0 }
  else c

/-- The test ends without a verdict (R755). -/
def Dev.brkAbandon (k : Nat) (d : Dev) : Dev :=
  if (d.isl.brk k).test.isNone then d else
  ((d.onIsl fun x => x.onBrk k fun b => { b with test := none }).onCore (Core.brakeRelease (d.isl.brkDef k).axis)).report
    0x0D08 (brkPath k)

/-- A stop, a stall or an ABORT of the axis has ended the test (R755). -/
def Dev.brkLost (k : Nat) (d : Dev) : Dev :=
  if (d.isl.brk k).test.isSome ∧ (d.core.axis (d.isl.brkDef k).axis).st ≠ .brakeTest then d.brkAbandon k else d

/-! ## Lock-out (R763, R764) -/

/-- QSTOP of the axes of a function (R747), rank 1 of R467. -/
def Dev.fnQstop (n : Nat) (d : Dev) : Dev :=
  d.onCore fun c => forL ((d.isl.fnDef n).qstopAxes.filter fun a => c.image.axes.contains a) (fun a k => k.qstop a) c

/-- A function goes OFF. -/
def Dev.fnOff (n : Nat) (d : Dev) : Dev :=
  let f := d.isl.fn n
  let d1 := d.onIsl fun x => x.onFn n fun g => { g with st := .off, dark := none }
  if f.st = .on then d1.fnQstop n else d1

/-- Every function OFF, every pin off. -/
def Dev.allOff (d : Dev) : Dev := (forD 8 Dev.fnOff d).drive

/-- A channel takes a cause, unless it is LOCKED already (R764). -/
def Chan.lock (c : Chan) (cause detail : Nat) : Chan :=
  if c.locked then c else { c with locked := true, cause := cause, detail := detail }

/-- A fault: logged; on entering LOCKED everything is driven off (R734, R764). -/
def Dev.fault (byW : Bool) (cause detail p : Nat) (d : Dev) : Dev :=
  let was := d.isl.locked
  let r : FaultRec := { cause := cause, path := p, channelW := byW, time := d.core.now, detail := detail }
  let d1 := d.onIsl fun x => { x with
    faults := (r :: x.faults).take 16, faultAt := some x.now, p := x.p.lock cause detail, w := x.w.lock cause detail,
    byW := if x.locked then x.byW else byW }
  if was then (if cause = 10 then d1.report 0x0D82 p else d1)
  else d1.allOff.report (if cause = 10 then 0x0D82 else 0x0D81) (if cause = 10 then p else islPath)

/-- The state of the island's channels after a reset of them: LOCKED with POWER_ON, pins off; the block is to be loaded again (R737). -/
def Dev.freshChans (p w hold : Bool) (d : Dev) : Dev :=
  let fresh : Chan := { inReset := hold }
  d.allOff.onIsl fun x => { x with
    p := if p then fresh else x.p, w := if w then fresh else x.w, block := none, ins := [], fns := [], tps := [], brks := [],
    conns := [], pLost := 0, wLost := 0, chanDis := 0, oscBad := false, now := if w then 0 else x.now, byW := w && !p }

/-- A channel is reset (R731): it enters LOCKED, which is reported and logged (R764). -/
def Dev.resetChans (p w hold : Bool) (d : Dev) : Dev :=
  let r : FaultRec := { cause := 1, path := islPath, channelW := w, time := d.core.now, detail := 0 }
  let d2 := (d.freshChans p w hold).onIsl fun x => { x with faults := (r :: x.faults).take 16 }
  d2.report 0x0D81 islPath

/-- Channel P leaves a reset it was held in. -/
def Dev.releaseP (d : Dev) : Dev := d.onIsl fun x => { x with p := { x.p with inReset := false } }

/-- The start finds the block (R736): the running one continues, another is loaded and locks with NEW_BLOCK. -/
def Dev.loadBlock (b : SafetyBlock) (d : Dev) : Dev :=
  if d.isl.block = some b then d else
  let r : FaultRec := { cause := 2, path := islPath, channelW := false, time := d.core.now, detail := 0 }
  let d1 := d.allOff.onIsl fun x => { x with
    block := some b, ins := [], fns := [], tps := [], brks := [], conns := [],
    p := { x.p with locked := true, cause := 2, detail := 0 }, w := { x.w with locked := true, cause := 2, detail := 0 },
    byW := false, faults := (r :: x.faults).take 16 }
  d1.report 0x0D81 islPath

/-! ## Inputs (R739 to R746) -/

/-- Where a sample lies in the last pulse of a source: in [start, end), then up to and at end + SETTLE. -/
def Island.pulsePos (x : Island) (s : Nat) : Option Nat :=
  match (x.tp s).start with
  | some t => if x.now ≤ t + (x.tpDef s).width + (x.tpDef s).settle then some (x.now - t) else none
  | none => none

/-- The source whose pulse runs, if any: pulses of different sources never overlap (R743). -/
def Island.pulse (x : Island) : Option (Nat × Nat) :=
  ((List.range 4).filterMap fun s => (x.pulsePos s).map fun t => (s, t)).head?

/-- One channel at a sample: the level that counts, and the fault of R744 (4) or R745 (5). -/
def SafeLine.sample (l : SafeLine) (raw : Bool) (filt : Nat) (pulse : Option (Nat × Nat)) (d : SafeTpDef) : SafeLine × Nat :=
  let t := (pulse.map Prod.snd).getD 0
  let inside : Bool := pulse.isSome && decide (d.settle ≤ t) && decide (t < d.width)
  let atEnd : Bool := pulse.isSome && decide (t = d.width + d.settle)
  let hidden : Bool := l.test && pulse.isSome && !atEnd
  let bad : Nat := if l.test ∧ inside ∧ raw then 4 else if l.follow ∧ atEnd ∧ raw then 5 else 0
  let l1 : SafeLine := { l with
    raw := raw, test := l.test && pulse.isSome && !atEnd && bad != 4,
    follow := l.follow && pulse.isSome && !atEnd && !(inside && raw) }
  if hidden then ({ l1 with run := 0 }, bad)
  else if raw = l.lvl then ({ l1 with run := 0 }, bad)
  else if filt ≤ l.run then ({ l1 with lvl := raw, run := 0 }, bad)
  else ({ l1 with run := l.run + 1 }, bad)

/-- Levels and faults of one input at a sample (R741, R744, R745); demands follow after the faults (R767). -/
def Dev.sampleIn (s : SafetyIn) (i : Nat) (d : Dev) : Dev :=
  let f := d.isl.inDef i
  if !f.enable then d else
  let x := d.isl.inp i
  let pulse := d.isl.pulse
  let pd := d.isl.tpDef ((pulse.map Prod.fst).getD 0)
  let (la, fa) := x.a.sample (s.a.getLsbD i) f.filt pulse pd
  let (lb, fb) := x.b.sample (s.b.getLsbD i) f.filt pulse pd
  let now := d.isl.now
  let td := match x.disc with | some t => now - t | none => 0
  let fault : Bool := x.disc.isSome && !x.discFault && decide (f.disc ≤ td)
  let differ : Bool := la.lvl != lb.lvl
  let d1 := d.onIsl fun z => z.onIn i fun y => { y with
    a := la, b := lb,
    disc := if differ then some (x.disc.getD now) else none,
    discFault := differ && (x.discFault || fault),
    lastDisc := if x.disc.isSome && !differ then sat32 (td * 10) else y.lastDisc }
  let d2 := if fault then d1.fault true 3 i (inPath i) else d1
  let d3 := if fa ≠ 0 then d2.fault true fa i (inPath i) else d2
  if fb ≠ 0 then d3.fault true fb i (inPath i) else d3

/-- The read-back of a TP line (R746). -/
def Dev.sampleTp (s : SafetyIn) (n : Nat) (d : Dev) : Dev :=
  let t := d.isl.pulsePos n
  let f := d.isl.tpDef n
  let high := s.tp.getLsbD n
  let bad : Bool := match t with
    | some t => (decide (f.settle ≤ t) && decide (t < f.width) && high) || (decide (t = f.width + f.settle) && !high)
    | none => !high
  let was := (d.isl.tp n).bad
  let d0 := if t = some f.width then d.onCore (Core.emit (.pin 6 n true)) else d
  let d1 := d0.onIsl fun x => x.onTp n fun y => { y with bad := bad }
  if bad ∧ !was then d1.fault true 6 n (tpPath n) else d1

/-- The read-back of an output, and the judgement of its dark test (R748, R749). -/
def Dev.sampleOut (s : SafetyIn) (n : Nat) (d : Dev) : Dev :=
  let f := d.isl.fn n
  let w := (d.isl.fnDef n).darkW
  let rb := s.rb.getLsbD n
  let now := d.isl.now
  let still : Bool := decide (f.pinAt + 20 ≤ now)
  let wrong : Bool := still && ((!f.pinP && !f.pinW && rb) || (f.pinP && f.pinW && f.dark.isNone && !rb))
  let mism := if wrong then f.mism + 1 else 0
  let ends : Bool := match f.dark with | some t => decide (t + w ≤ now) | none => false
  let seen : Bool := f.darkSeen || (match f.dark with | some t => decide (t + w / 2 ≤ now) && decide (now < t + w) && !rb | none => false)
  let d1 := d.onIsl fun x => x.onFn n fun g => { g with
    rb := rb, mism := mism, darkSeen := seen,
    dark := if ends then none else g.dark,
    darkCh := if ends then !g.darkCh else g.darkCh,
    passed := if ends && seen then min 0xFFFF (g.passed + 1) else g.passed,
    onTime := if ends then 0 else if g.st == .on || g.st == .ss1 then g.onTime + 1 else g.onTime }
  let d2 := if mism = 10 then d1.fault true 7 n (outPath n) else d1
  if ends ∧ !seen then d2.fault true 8 n (outPath n) else d2

/-! ## Demands and functions (R740, R747, R750, R761) -/

/-- Demand of an input: counted, reported and observed at its change (R740). -/
def Dev.inDemand (i : Nat) (d : Dev) : Dev :=
  if !(d.isl.inDef i).enable then d else
  let x := d.isl.inp i
  let dem := !(x.a.lvl && x.b.lvl)
  if dem = x.demand then d else
  let d1 := d.onIsl fun z => z.onIn i fun y => { y with
    demand := dem, demands := if dem then (y.demands + 1) % 2 ^ 32 else y.demands }
  (d1.report (if dem then 0x0D01 else 0x0D02) (inPath i)).onCore fun c => c.produceHw (48 + i) (if dem then 1 else 0) c.now

/-- Whether a source demands (R740, R760, R761). -/
def Island.demands (x : Island) : DemandSrc → Bool
  | .input i => (x.inp i).demand
  | .connBit n b => (x.conn n).timeout || !(x.conn n).data.testBit b

/-- Whether a function's sources demand. -/
def Island.fnDemand (x : Island) (n : Nat) : Bool := (x.fnDef n).sources.any x.demands

/-- A function's next state (R747), with the tests that a demand abandons (R750, R755). -/
def Dev.fnStep (n : Nat) (d : Dev) : Dev :=
  if d.isl.blk.fns.length ≤ n then d else
  let dem := d.isl.fnDemand n
  let f := d.isl.fn n
  let def_ := d.isl.fnDef n
  let now := d.isl.now
  let d0 := if dem ∧ !f.dem then
      forD 4 (fun k e => if (e.isl.brkDef k).func = n ∧ k < e.isl.blk.brks.length then e.brkAbandon k else e) d else d
  let set (st : FnState) (e : Dev) : Dev := e.onIsl fun x => x.onFn n fun g => { g with st := st, dem := dem }
  if d0.isl.locked then set .off d0 else
  match f.st with
  | .on =>
    if !dem then set .on d0
    else if f.dark.isSome then
      (((set .off d0).onIsl fun x => x.onFn n fun g => { g with
        dark := none, abandoned := min 0xFFFF (g.abandoned + 1), onTime := (def_.darkInt - 1) * 100000 }).fnQstop n).report
          0x0D05 (outPath n)
    else if def_.stopCat = 1 ∧ 0 < def_.ss1Delay then
      ((set .ss1 d0).onIsl fun x => x.onFn n fun g => { g with ss1At := now }).fnQstop n
    else (set .off d0).fnQstop n
  | .ss1 => if f.ss1At + def_.ss1Delay ≤ now then (set .off d0).onIsl fun x => x.onFn n fun g => { g with dark := none } else set .ss1 d0
  | .off => if dem then set .off d0 else if def_.restart = 0 then set .on d0 else set .waitRestart d0
  | .waitRestart => if dem then set .off d0 else set .waitRestart d0

/-- Every function, then the pins. -/
def Dev.judge (d : Dev) : Dev := (forD 8 Dev.fnStep d).drive

/-- SAFETY_SAMPLE: levels, faults, demands (R767); the reset is SAFE_RST_RELEASE. -/
def Dev.safetySample (s : SafetyIn) (d : Dev) : Dev :=
  if d.isl.w.inReset then d else
  let next (e : Dev) : Dev := e.onIsl fun x => { x with now := x.now + 1 }
  if d.isl.block.isNone then next d else
  let d1 := forD 16 (Dev.sampleIn s) (forD 4 Dev.brkLost d)
  let d2 := forD 8 (fun n e => if n < e.isl.blk.fns.length then e.sampleOut s n else e)
    (forD 4 (fun n e => if n < e.isl.blk.tps.length then e.sampleTp s n else e) d1)
  next (forD 16 Dev.inDemand d2).judge

/-- SS1_DELAY_EXPIRY: SS1 ends OFF (R747). -/
def Dev.ss1Expiry (n : Nat) (d : Dev) : Dev :=
  let f := d.isl.fn n
  if f.st ≠ .ss1 ∨ d.isl.w.inReset then d else
  ((d.onIsl fun x => { x with now := max x.now (f.ss1At + (x.fnDef n).ss1Delay) }).onIsl fun x => x.onFn n fun g =>
    { g with st := .off, dark := none }).drive

/-! ## Test pulses and dark tests -/

/-- The next start of a pulse of a source: 500 µs into its slot, every PERIOD frames (R743). -/
def Island.pulseStart (x : Island) (s : Nat) : Nat :=
  let per := 2000 * (x.tpDef s).period
  let base := 500 * s + 50
  let from_ := match (x.tp s).start with | some t => max x.now (t + 1) | none => x.now
  base + cdiv (from_ - base) per * per

/-- A pulse begins on one channel of an input (R744 to R746): the line, and whether it stays untested. -/
def SafeLine.pulse (l : SafeLine) (own : Bool) : SafeLine × Bool :=
  if own then ({ l with test := l.lvl, follow := false }, !l.lvl) else ({ l with test := false, follow := l.raw }, false)

/-- TEST_PULSE: the line goes low at the source's next pulse start. Its end is a sample's. -/
def Dev.testPulse (s : Nat) (d : Dev) : Dev :=
  if d.isl.blk.tps.length ≤ s ∨ 4 ≤ s ∨ d.isl.w.inReset then d else
  let d1 := (d.onIsl fun x => { x with now := x.pulseStart s }).onIsl fun x => x.onTp s fun t => { t with
    start := some x.now, pulses := min 0xFFFF (t.pulses + 1) }
  let d2 := forD 16 (fun i e =>
    let f := e.isl.inDef i
    if !f.enable then e else
    let (la, ua) := (e.isl.inp i).a.pulse (f.tpA == s)
    let (lb, ub) := (e.isl.inp i).b.pulse (f.tpB == s)
    e.onIsl fun x => (x.onIn i fun y => { y with a := la, b := lb }).onTp s fun t =>
      { t with untested := min 0xFFFF (t.untested + (if ua then 1 else 0) + (if ub then 1 else 0)) }) d1
  d2.onCore (Core.emit (.pin 6 s false))

/-- DARK_TEST: a test that is due drops one channel's pin; samples judge it at start + DARK_W (R749, R750). -/
def Dev.darkTest (n : Nat) (d : Dev) : Dev :=
  let f := d.isl.fn n
  let due : Bool := (f.st == .on || f.st == .ss1) && !d.isl.locked && f.dark.isNone && decide ((d.isl.fnDef n).darkInt * 100000 ≤ f.onTime)
  if !due ∨ 8 ≤ n ∨ d.isl.blk.fns.length ≤ n then d else
  (d.onIsl fun x => x.onFn n fun g => { g with dark := some x.now, darkSeen := false }).outDrive n

/-! ## The reset (R765 to R767) -/

/-- What stands against a reset: a RESULT of R772; 1 accepted. -/
def Island.resetResult (x : Island) : Nat :=
  let ins := (List.range 16).filter fun i => (x.inDef i).enable
  let conns := (List.range x.blk.conns.length).filter fun n => (x.connDef n).inbound
  let present : Bool := decide (x.faultAt = some (x.now - 1)) || x.block.isNone || decide (3 ≤ x.pLost) || decide (4 ≤ x.wLost) ||
    decide (50 ≤ x.chanDis) || x.oscBad ||
    (List.range 8).any (fun n => decide (10 ≤ (x.fn n).mism)) || (List.range 4).any (fun k => (x.brk k).mism || (x.tp k).bad)
  if !x.locked then 1
  else if ins.any fun i => (x.inp i).demand then 3
  else if present then 4
  else if (List.range 4).any fun k => (x.brk k).failed then 5
  else if conns.any fun n => (x.conn n).timeout then 6
  else if x.p.inReset then 7
  else 1

/-- SAFE_RST_RELEASE: the falling edge at the sample just judged, after a press of so many samples by channel W. -/
def Dev.safeRst (samples : Nat) (d : Dev) : Dev :=
  if d.isl.w.inReset then d else
  let d1 := d.onIsl fun x => { x with pressMs := min 0xFFFF (samples / 100) }
  let result := if samples < 10000 ∨ 200000 < samples then 2 else d1.isl.resetResult
  let d2 := d1.onIsl fun x => { x with rstResult := result }
  if result ≠ 1 then d2.report 0x0D04 islPath
  else
    let was := d2.isl.locked
    let d3 := d2.onIsl fun x => { x with p := { x.p with locked := false, cause := 0, detail := 0 },
                                         w := { x.w with locked := false, cause := 0, detail := 0 } }
    let enter (n : Nat) (e : Dev) : Dev :=
      let dem := e.isl.fnDemand n
      let st := (e.isl.fn n).st
      if e.isl.blk.fns.length ≤ n then e
      else e.onIsl fun x => x.onFn n fun g => { g with
        st := if was then (if dem then .off else .on) else if st == .waitRestart && !dem then .on else st, dem := dem }
    ((forD 8 enter d3).drive).report 0x0D03 islPath

/-! ## Checks between the channels (R732) -/

/-- CHANNEL_CROSS_CHECK, every 100 µs. -/
def Dev.crossCheck (k : CrossIn) (d : Dev) : Dev :=
  if d.isl.w.inReset then d else
  let pAlive := k.pAlive && !d.isl.p.inReset
  let d1 := d.onIsl fun x => { x with
    pLost := if pAlive then 0 else x.pLost + 1, wLost := if k.wAlive then 0 else x.wLost + 1,
    chanDis := if k.agree then 0 else x.chanDis + 1 }
  let d2 := if d1.isl.pLost = 3 then d1.fault true 11 0 islPath else d1
  let d3 := if d2.isl.wLost = 4 then d2.fault false 13 0 islPath else d2
  if d3.isl.chanDis = 50 then d3.fault true 14 0 islPath else d3

/-- OSCILLATOR_CHECK over 1 ms. -/
def Dev.oscCheck (hz : Nat) (byW : Bool) (d : Dev) : Dev :=
  let bad : Bool := decide (hz < 98000000) || decide (102000000 < hz)
  let d1 := d.onIsl fun x => { x with oscBad := bad }
  if bad then d1.fault byW 12 0 islPath else d1

/-- TARN5_ECC_ERROR: corrected errors are only counted. -/
def Dev.tarn5Ecc (uncorr : Bool) (d : Dev) : Dev :=
  if uncorr then d.fault false 15 0 islPath
  else (d.onIsl fun x => { x with eccCorr := sat32 (x.eccCorr + 1) }).onCore fun c => c.raiseEvery (3600 * second) 0x0D0B islPath

/-! ## Brakes -/

/-- A test tag that rises starts a test of an engaged brake whose axis stands (R752). -/
def Dev.brkStart (k : Nat) (pos : Int) (d : Dev) : Dev :=
  let f := d.isl.brkDef k
  if (d.isl.brk k).released ∨ (d.isl.brk k).test.isSome ∨ (d.core.axis f.axis).st ≠ .standstill ∨ !d.core.image.axes.contains f.axis
  then d else
  (d.onIsl fun x => x.onBrk k fun b => { b with test := some x.now, p0 := pos, dev := 0 }).onCore fun c =>
    c.onAxis f.axis fun x => { x with
      st := .brakeTest, mode := .none, hasTgt := false, testFrom := c.now, testI := f.testI, stillFrom := none, holding := false }

/-- BRAKE_REQUEST_READ: REQ_TAG and TEST_TAG from the tag store, and the read-back of the brake (R751, R752). -/
def Dev.brakeRead (k : Nat) (rb : Bool) (pos : Int) (d : Dev) : Dev :=
  if d.isl.blk.brks.length ≤ k ∨ 4 ≤ k ∨ d.isl.p.inReset then d else
  let f := d.isl.brkDef k
  let req := decide (d.core.tagVal f.reqTag ≠ 0)
  let test := decide (d.core.tagVal f.testTag ≠ 0)
  let rose : Bool := test && !(d.isl.brk k).testTag
  let d0 := d.brkLost k
  let d1 := (d0.onIsl fun x => x.onBrk k fun b => { b with req := req, testTag := test, rb := rb }).brkDrive k
  let b := d1.isl.brk k
  let wrong : Bool := decide (b.changedAt + 5000 ≤ d1.isl.now) && rb != b.released
  let d2 := d1.onIsl fun x => x.onBrk k fun b => { b with mism := wrong }
  let d3 := if wrong ∧ !b.mism then d2.fault true 9 k (brkPath k) else d2
  if rose then d3.brkStart k pos else d3

/-- BRAKE_TEST_END: a position more than BRK_WIN away fails the test at once; otherwise it passes at its end (R754). -/
def Dev.brakeEnd (k : Nat) (pos : Int) (d : Dev) : Dev :=
  let d0 := d.brkLost k
  let f := d0.isl.brkDef k
  match (d0.isl.brk k).test with
  | none => d0
  | some t =>
    let dev := (pos - (d0.isl.brk k).p0).natAbs
    let ovr := decide (f.brkWin < dev)
    let at_ := if ovr then t + 5000 else t + 5000 + 100 * f.testMs
    let d1 := (d0.onIsl fun x => ({ x with now := max x.now at_ }).onBrk k fun b => { b with
      test := none, dev := sat32 (max b.dev dev), failed := ovr }).onCore (Core.brakeRelease f.axis)
    if ovr then d1.fault true 10 k (brkPath k)
    else (d1.onIsl fun x => x.onBrk k fun b => { b with lastPass := x.now, overdue := false }).report 0x0D06 (brkPath k)

/-- BRAKE_TEST_OVERDUE: BRK_INT since the last passing test (R755). -/
def Dev.brakeOverdue (k : Nat) (d : Dev) : Dev :=
  if d.isl.blk.brks.length ≤ k ∨ (d.isl.brk k).overdue then d else
  ((d.onIsl fun x => { x with now := max x.now ((x.brk k).lastPass + (x.brkDef k).brkInt * 360000000) }).onIsl fun x =>
    x.onBrk k fun b => { b with overdue := true }).report 0x0D07 (brkPath k)

/-! ## Connections (R756 to R762) -/

/-- The inbound connection of a SAFE_ID on Ashlar or Lintel. -/
def Island.inbound (x : Island) (id : Nat) (lintel : Bool) : Option Nat :=
  (List.range x.blk.conns.length).find? fun n =>
    (x.connDef n).inbound && (x.connDef n).safeId == id && (x.connDef n).viaLintel == lintel

/-- Whether a delivered pair is valid but for its advance: SCRC with the frame's CLAIM, and SAFE_STATE = 0 (R757, R758). -/
def connAccepts (f : SafeConnDef) (claim : Nat) (s : SafeMsg) : Bool :=
  decide (s.scrc = safeCrc f.seed s.safeId s.seq claim s.len s.flags s.data) && !s.flags.testBit 0

/-- A delivered pair (R758, R760): validity, the advance of SAFE_SEQ, recovery; then the functions. -/
def Dev.pair (n claim : Nat) (s : SafeMsg) (d : Dev) : Dev :=
  let x := d.isl.conn n
  let adv := match x.seq with | some l => (s.seq + 2 ^ 32 - l) % 2 ^ 32 | none => 1
  let ok : Bool := connAccepts (d.isl.connDef n) claim s && decide (1 ≤ adv) && decide (adv ≤ 8)
  if !ok then d.onIsl fun z => z.onConn n fun y => { y with valid := 0 }
  else
    let back : Bool := x.timeout && decide (1 ≤ x.valid)
    let d1 := d.onIsl fun z => z.onConn n fun y => { y with
      seq := some s.seq, last := z.now, valid := y.valid + 1, data := s.data % 2 ^ (8 * (z.connDef n).dataLen),
      jumps := if 1 < adv then min 255 (y.jumps + 1) else y.jumps, timeout := y.timeout && !back }
    (if back then d1.report 0x0D0A islPath else d1).judge

/-- What a pair of copies delivers to the island. -/
def Dev.deliverPair (claim : Nat) (lintel : Bool) (s : Option SafeMsg) (d : Dev) : Dev :=
  match s with
  | some v => match d.isl.inbound v.safeId lintel with
    | some n => if d.isl.w.inReset then d else d.pair n claim v
    | none => d
  | none => d

/-- CONNECTION_TIMEOUT: no valid pair for WD_US; the connection's bits demand (R760). -/
def Dev.connTimeout (n : Nat) (d : Dev) : Dev :=
  if d.isl.blk.conns.length ≤ n ∨ !(d.isl.connDef n).inbound ∨ (d.isl.conn n).timeout ∨ d.isl.w.inReset then d else
  (((d.onIsl fun x => { x with now := max x.now ((x.conn n).last + (x.connDef n).wdUs / 10) }).onIsl fun x =>
    x.onConn n fun y => { y with timeout := true, valid := 0 }).report 0x0D41 islPath).judge

/-- The container that an outbound connection sends next (R756, R757, R759): DATA is free, as the manual maps no signal to a bit. -/
def Dev.nextSafe (n : Nat) (d : Dev) : SafeMsg × Core :=
  let f := d.isl.connDef n
  let peer : Bool := (List.range d.isl.blk.conns.length).any fun m =>
    (d.isl.connDef m).inbound && (d.isl.connDef m).safeId == f.safeId && (d.isl.connDef m).viaLintel == f.viaLintel && (d.isl.conn m).timeout
  let dead : Bool := d.isl.locked || peer
  let (v, c1) := d.core.freeNat
  let data := if dead then 0 else v % 2 ^ (8 * f.dataLen)
  let seq := match (d.isl.conn n).seq with | some q => (q + 1) % 2 ^ 32 | none => 1
  let claim := if f.viaLintel then d.core.lnClaim else d.core.claimNow
  ({ safeId := f.safeId, seq := seq, data := data, len := f.dataLen, flags := flg dead 0, claim := claim, target := f.target,
     scrc := safeCrc f.seed f.safeId seq claim f.dataLen (flg dead 0) data }, c1)

/-- Copies A and B of an outbound container (R641, R673, R756). -/
def Dev.sendSafe (n : Nat) (d : Dev) : Dev :=
  let f := d.isl.connDef n
  let (s, c1) := d.nextSafe n
  let d1 : Dev := { d with core := c1, isl := d.isl.onConn n fun y => { y with seq := some s.seq } }
  let one (copy : Nat) (e : Dev) : Dev :=
    e.onCore fun c =>
      if f.viaLintel then c.lnSend copy 5 ([s.target, s.safeId, copy, s.seq, safeLen s.len] ++ safeWords s)
      else c.sendSafeCopy (f.port / 2 * 2) copy s
  one 1 (one 0 d1)

/-- The outbound containers of a port cycle of an even port, or of a tick (R756). -/
def Dev.sendAll (lintel : Bool) (p : Nat) (d : Dev) : Dev :=
  forD d.isl.blk.conns.length (fun n e =>
    let f := e.isl.connDef n
    if !f.inbound ∧ f.viaLintel = lintel ∧ (lintel ∨ f.port / 2 * 2 = p) then e.sendSafe n else e) d

/-- PORT_CYCLE_START, with the safety containers of a port that cycles. -/
def Dev.portCycle (p : Nat) (d : Dev) : Dev :=
  let d1 := d.onCore (Core.portCycle p)
  if (d1.core.port p).st = .cycling then d1.sendAll false p else d1

/-- SAFE_UP. -/
def Dev.safeUp (s : SafeMsg) (d : Dev) : Dev :=
  let (c, v) := d.core.safeUp s
  ({ d with core := c } : Dev).deliverPair ((v.map (·.claim)).getD 0) false v

/-- SAFE on Lintel. -/
def Dev.lnSafe (f : LnHdr) (s : SafeMsg) (d : Dev) : Dev :=
  let (c, v) := d.core.lnSafe f s
  ({ d with core := c } : Dev).deliverPair f.claim true v

/-- MIRROR_UPDATE: Tarn 5 takes the island's state (R770). -/
def Dev.mirrorUpdate (d : Dev) : Dev := if d.isl.p.inReset then d else d.onCore fun c => { c with mirror := d.isl }

/-! ## The commands -/

def execSafetySample (x : SafetyIn) (s : State) : Host.Outcome State Fault Refusal := devCmd (Dev.safetySample x) s
def execSs1DelayExpiry (n : Nat) (s : State) : Host.Outcome State Fault Refusal := devCmd (Dev.ss1Expiry n) s
def execTestPulse (n : Nat) (s : State) : Host.Outcome State Fault Refusal := devCmd (Dev.testPulse n) s
def execDarkTest (n : Nat) (s : State) : Host.Outcome State Fault Refusal := devCmd (Dev.darkTest n) s
def execSafeRstRelease (samples : Nat) (s : State) : Host.Outcome State Fault Refusal := devCmd (Dev.safeRst samples) s
def execChannelCrossCheck (c : CrossIn) (s : State) : Host.Outcome State Fault Refusal := devCmd (Dev.crossCheck c) s
def execOscillatorCheck (hz : Nat) (byW : Bool) (s : State) : Host.Outcome State Fault Refusal := devCmd (Dev.oscCheck hz byW) s
def execTarn5EccError (uncorr : Bool) (s : State) : Host.Outcome State Fault Refusal := devCmd (Dev.tarn5Ecc uncorr) s
def execBrakeRequestRead (k : Nat) (rb : Bool) (pos : Int) (s : State) : Host.Outcome State Fault Refusal :=
  devCmd (Dev.brakeRead k rb pos) s
def execBrakeTestEnd (k : Nat) (pos : Int) (s : State) : Host.Outcome State Fault Refusal := devCmd (Dev.brakeEnd k pos) s
def execBrakeTestOverdue (k : Nat) (s : State) : Host.Outcome State Fault Refusal := devCmd (Dev.brakeOverdue k) s
def execConnectionTimeout (c : Nat) (s : State) : Host.Outcome State Fault Refusal := devCmd (Dev.connTimeout c) s
def execMirrorUpdate (s : State) : Host.Outcome State Fault Refusal := devCmd Dev.mirrorUpdate s
def execPortCycleStart (p : Nat) (s : State) : Host.Outcome State Fault Refusal := devCmd (Dev.portCycle p) s
def execSafeUp (f : SafeMsg) (s : State) : Host.Outcome State Fault Refusal := devCmd (Dev.safeUp f) s
def execSafe (f : LnHdr) (x : SafeMsg) (s : State) : Host.Outcome State Fault Refusal := devCmd (Dev.lnSafe f x) s

end Sys2Proof.Machine
end

