-- ==== Sys2Proof/Machine/Swap.lean ====
section
/-!
DEFINITION. Machine/Swap.lean: on-line change (R339 to R348, R295, R388, R476, R561, R599, R721, R797): the package's checks, ARM and
DISARM, and the swap.
-/
namespace Sys2Proof.Machine

/-! ## Checks at load (R339, R343, R344) -/

/-- Op-store words that an image's schedule or its codes use on a tile. -/
def usedOps (i : Image) (t : Nat) : List Nat :=
  let runs := ((imgWins i t).map fun w => (w.opFirst, w.opCount)) ++
    ((i.codes.filter fun k => k.tileMask.testBit t).map fun k => (k.opFirst.getD t 0, k.opCount))
  (runs.flatMap fun r => (List.range r.2).map (r.1 + ·)).eraseDups

/-- Reason 3: no word that the running program uses is changed. -/
def opsKept (a b : Image) : Bool :=
  (List.range 16).all fun t => (usedOps a t).all fun k => (a.ops.getD t []).getD k 0 == (b.ops.getD t []).getD k 0

/-- What sections 0x000C and 0x000E place: registers of blocks 0x01 and 0x03 to 0x05 and of the module windows. -/
def linkPlaces (i : Image) : List RegSetting :=
  i.placed.filter fun r => [1, 3, 4, 5].contains (r.addr / 0x10000) || decide (0x04000000 ≤ r.addr)

/-- Reason 4: sections 0x000C, 0x000E and 0x000F are unchanged. -/
def linksKept (a b : Image) : Bool :=
  decide (a.modules = b.modules) && decide (a.chain = b.chain) && a.leader == b.leader && decide (a.exports = b.exports) &&
    decide (a.imports = b.imports) && decide (a.shaft = b.shaft) && decide (a.pair = b.pair) && decide (linkPlaces a = linkPlaces b) &&
    decide (a.hostKeys = b.hostKeys) && a.safetyRef == b.safetyRef

/-- T_x(t) in ns (R343). -/
def xferTime (i : Image) (t : Nat) : Nat := 40 + 2 * i.xfer.getD t 0

/-- The longest SLACK window of a tile in the HOUSE range. -/
def longSlack (i : Image) (t : Nat) : Nat :=
  (((imgWins i t).filter fun w => w.kind == 4 && decide (i.schedule.commitEnd + releaseNs i ≤ w.start)).map (·.len)).foldl max 0

/-- The first reason that refuses a result image at load; 0 none. -/
def Core.olcReason (p : Image) (c : Core) : Nat :=
  let a := c.image
  if !c.imageOk p then 1
  else if a.schedule.baseK ≠ p.schedule.baseK then 2
  else if !opsKept a p then 3
  else if !linksKept a p then 4
  else if (List.range 16).any fun t => decide (imgTc p < xferTime p t) then 5
  else 0

/-- A package is delivered (R340): refused with reason 8 unless none is being loaded, armed or swapped. -/
def Core.olcDeliver (p : Image) (c : Core) : Core :=
  match c.prog.olc.st with
  | .none | .ready => c.onOlc fun o => { o with st := .loading, pkg := some p, cleared := false, willSkip := false }
  | st => c.olcRefuse st 8

/-- OLC_LOAD_COMPLETE: READY, or a refusal that discards the package (R339, R340). -/
def Core.olcLoaded (c : Core) : Core :=
  match c.prog.olc.st, c.prog.olc.pkg with
  | .loading, some p =>
    let r := c.olcReason p
    if r ≠ 0 then (c.onOlc fun o => { o with pkg := none, xferNs := 0 }).olcRefuse .none r
    else c.onOlc fun o => { o with
      st := .ready, reason := 0, xferNs := ((List.range 16).map (xferTime p)).foldl max 0
      willSkip := (List.range 16).any fun t => decide (longSlack c.image t < xferTime p t) }
  | _, _ => c

/-- The package held is discarded (R348). -/
def Core.olcDiscard (c : Core) : Core :=
  match c.prog.olc.st with
  | .swapping => c
  | _ => c.onOlc fun o => { o with st := .none, pkg := none, xferNs := 0, willSkip := false, cleared := false }

/-- ARM; answers the status (R341, R347, R357, R721). -/
def Core.olcArm (c : Core) : Core × Nat :=
  if !(c.running || c.md.mode == .standby) then (c.onOlc fun o => { o with reason := 6 }, 0x09)
  else if c.prog.olc.st ≠ .ready then (c, 0x0F)
  else if c.pairOn && c.mr.role == .active && c.mr.partnerKnown && c.mr.beat.inSync && !c.mr.beat.olcReady then (c, 0x0F)
  else
    let at_ := (secOf c.now / 2 ^ 32 * 2 ^ 32 + c.regN A.PG_OLC_SWAP_SEC) * second + ns (c.regN A.PG_OLC_SWAP_NS)
    (c.onOlc fun o => { o with st := .armed, reason := 0, swapAt := at_, armedAt := c.now, cleared := false }, 0)

/-- DISARM: ARMED returns to READY (R357). -/
def Core.olcDisarm (c : Core) : Core := if c.prog.olc.st = .armed then c.onOlc fun o => { o with st := .ready, cleared := false } else c

/-! ## Instances (R345) -/

/-- An instance's storage: its words or bytes as numbers. -/
def Core.instRead (c : Core) : InstKind → List Nat
  | .var _ a n => leBytes (c.t1Read a n) n
  | .timer _ t w => (List.range 4).map fun k => ((c.tile t).word (w + k)).toNat
  | .edge _ t w => [((c.tile t).word w).toNat]

def Core.instWrite (k : InstKind) (v : List Nat) (c : Core) : Core :=
  match k with
  | .var _ a n => c.t1Write a (leNum v) n
  | .timer _ t w => forN 4 (fun j d => d.onTile t fun x => x.setWord (w + j) (wd (v.getD j 0))) c
  | .edge _ t w => c.onTile t fun x => x.setWord w (wd (v.getD 0 0))

/-- Whether an instance of the old program is the same for the new one: type, and size of a variable. -/
def kindFits : InstKind → InstKind → Bool
  | .var t _ n, .var u _ m => t == u && n == m
  | .timer t _ _, .timer u _ _ => t == u
  | .edge t _ _, .edge u _ _ => t == u
  | _, _ => false

/-- The pairs carried: the new instance and what the old one holds. -/
def Core.carried (c : Core) (p : Image) : List (InstKind × List Nat) :=
  p.insts.filterMap fun n =>
    ((c.image.insts.find? fun o => o.ident == n.ident && kindFits o.kind n.kind).map fun o => (n.kind, c.instRead o.kind))

/-! ## Items (R295) -/

/-- Items matched by STABLE_ID: states, queues, the runs in progress; removed ones are counted and reported. -/
def Core.swapItems (p : Image) (c : Core) : Core :=
  let old := c.image.items
  let find (i : Nat) : Option Nat := (old[i]?).bind fun o => p.items.findIdx? fun n => n.stableId == o.stableId
  let prio (l : List ItemDef) (i : Nat) : Nat := ((l[i]?).map (·.priority)).getD 0
  let gone := (List.range old.length).filter fun i => (find i).isNone
  let queue (q : Nat) : List Nat :=
    ((c.readyOf q).filterMap fun i => (find i).filter fun j => prio p.items j == q) ++
    (List.range 8).flatMap fun r => if r = q then [] else (c.readyOf r).filterMap fun i => (find i).filter fun j => prio p.items j == q
  let c1 := c.onWq fun w => { w with
    items := (List.range old.length).foldl (fun m i => match find i with | some j => SMap.set {} m j (SMap.get {} w.items i) | none => m) []
    ready := (List.range 8).foldl (fun m q => SMap.set [] m q (queue q)) []
    lastTile := [], dup := sat32 (w.dup + gone.length) }
  let lost := (List.range 16).foldl (fun n t => n + (c.tile t).itemCommit.length) 0
  let c2 := forN 16 (fun t d => d.onTile t fun x => { x with
    itemCommit := [], run := x.run.map fun r => { r with item := (find r.item).getD 0x10000, discard := true } }) c1
  (forL gone (fun i d => d.itemEvent 0x0742 i) c2).commitLost lost

/-! ## Registers, loops, axes, streams, units, forces -/

/-- Bits of an address whose fields two images place differently. -/
def fldDiff (a : Nat) (diff : Word) : Word :=
  if diff = 0 then 0 else
  match regAt a with
  | some h => h.flds.foldl (fun m f => if diff &&& f.mask ≠ 0 then m ||| f.mask else m) 0
  | none => diff

/-- The result image's placements: a field that both images place alike keeps its present value. -/
def Core.swapRegs (p : Image) (c : Core) : Core :=
  let d := c.placeAll p
  { d with regs := c.regs.foldl (fun m e =>
      let diff := fldDiff e.1 (c.imgWord e.1 ^^^ d.imgWord e.1)
      SMap.set 0 m e.1 ((c.reg e.1 ^^^ d.imgWord e.1) &&& ~~~ diff)) [] }

/-- Loops after the swap: a changed one takes its new table, ends its injection, and loses its bins when N or SOURCE changes; a new
one starts, CLOSED taken as MANUAL (R388, R423, R431). `b` is the core before the swap. -/
def Core.swapLoops (b : Core) (p : Image) (c : Core) : Core :=
  let old := b.image
  let gone := old.loops.filter fun n => !p.loops.contains n
  forL p.loops (fun n d =>
    if !old.loops.contains n then
      (d.loopStart n none).onLoop n fun l => { l with mode := if l.mode = .closed then .manual else l.mode, reclose := false }
    else
      let d1 := if (loopsChanged old p).contains n then (d.injEnd n 5).onLoop n fun l => { l with
          nodes := (p.nodes.filter fun q => q.1 == n).foldl (fun m q => SMap.set 0 m q.2.1 q.2.2) [], nodeReq := [], coefOld := [] }
        else d
      if b.rcN n = d.rcN n ∧ b.rcSrc n = d.rcSrc n then d1 else d1.rcWipe n) (forL gone (fun n d => d.injEnd n 5) c)

/-- An axis as a cold restart starts it (R146, R475); `warm` keeps what a warm restart keeps (R494, R498). -/
def Core.axisStart (warm : Bool) (a : Nat) (c : Core) : Core :=
  let sw (s : Switch) : Switch := { raw := s.raw, deb := s.raw }
  c.onAxis a fun x => {
    stepPos := x.stepPos, enc := x.enc, encLevels := x.encLevels, lastEnc := x.lastEnc
    encBase := if warm then x.encBase else 0, actBase := if warm then x.actBase else 0
    homed := warm && x.homed, homeLatch := if warm then x.homeLatch else 0
    dirPos := x.dirPos, dirSince := x.dirSince, limp := sw x.limp, limn := sw x.limn, home := sw x.home, encz := sw x.encz
    stillFrom := some c.now }

/-- Stream entries after the swap, and geometry that waits for a start (R561). Fine windows of entries that change or go close
(R550), and a stream of both images keeps the registers of its geometry. `b` is the core before the swap. -/
def Core.swapStreams (b : Core) (p : Image) (c : Core) : Core :=
  let old := b.image
  let same (x : Entry) : Bool := p.entries.any fun e => e.stream == x.stream && e.tag == x.tag && e.deadband == x.deadband &&
    e.heartbeat == x.heartbeat && e.mode == x.mode && e.k == x.k && e.div == x.div && e.fineTag == x.fineTag
  let c0 := forL (number 0 c.spr.entries) (fun q d => if same q.2 then d else (d.closeFine q.1).1) c
  let carry (e : EntryDef) : Entry := match c0.spr.entries.find? fun x => x.stream == e.stream && x.tag == e.tag with
    | some x => { x with deadband := e.deadband, heartbeat := e.heartbeat, mode := e.mode, k := e.k, div := e.div, fineTag := e.fineTag }
    | none => entryFresh e
  let geom (k : Nat) : Bool := decide (imgWindow old (rsA A.RS_CFG k) 4 ≠ imgWindow p (rsA A.RS_CFG k) 4 ∨
    imgWindow old (rsA A.RS_PEER_CFG k) 8 ≠ imgWindow p (rsA A.RS_PEER_CFG k) 8)
  let c1 := c0.onRec fun r => { r with entries := p.entries.map carry }
  let held (k : Nat) : List Nat := [rsA A.RS_CFG k, rsA A.RS_PEER_CFG k, rsA A.RS_STAGE_QUOTA k]
  forL (p.streams.filter fun k => old.streams.contains k && geom k) (fun k d =>
    ((forL (held k) (fun a e => e.setReg a (b.reg a)) d).onStream k fun s => { s with geomPending := true }).raise 0x0B05 (path 0xB k 0)) c1

/-- Capture units whose declaration changed are disarmed, and arm again with AUTO_ARM (R599). -/
def Core.swapUnits (old p : Image) (c : Core) : Core :=
  let changed (u : Nat) : Bool := decide ((old.units.find? fun x => x.1 == u) ≠ (p.units.find? fun x => x.1 == u) ∨
    imgWindow old (0x03000000 + 0x100 * u) 0x100 ≠ imgWindow p (0x03000000 + 0x100 * u) 0x100)
  forN 64 (fun u d => if !changed u then d else
    let e := d.disarm u
    if (p.units.any fun x => x.1 == u) ∧ e.flag (cpA A.CP_CFG u) 9 then (e.arm u e.now).1 else e) c

/-- Forces whose tag the result does not hold are dropped (R338). -/
def Core.swapForces (c : Core) : Core :=
  let gone := c.prog.forces.filter fun f => !c.forceable f.tag
  forL gone (fun f d => ((d.forceRelease f.tag).onProg fun p => { p with forceDropTag := f.tag }).raise 0x0805 (pgPath 2)) c

/-! ## The swap (R345, R346, R797) -/

/-- The result image becomes the running program, and state crosses. -/
def Core.swapTo (p : Image) (c : Core) : Core :=
  let old := c.image
  let keep := c.carried p
  let c1 := (c.swapItems p).swapRegs p
  let c2 := (c1.onUp fun u => { u with runCfg := some p }).placeMemory
  let c3 := forL keep (fun q d => d.instWrite q.1 q.2) c2
  let c4 := (Core.swapStreams c p (Core.swapLoops c p c3)).swapUnits old p
  let c5 := forL (p.axes.filter fun a => !old.axes.contains a) (fun a d => d.axisStart false a) c4
  let c6 := (c5.placeTags).swapForces
  let c7 := forL c6.prog.forces (fun f d => d.markForced f.tag true) c6
  let now := c7.retainBlocks
  let slot := !c.up.runCfgSlot
  let c8 := (c7.onJr fun j => { j with shadow := now, staging := [], rebase := some now }).onMr fun m => { m with blkLast := now }
  let c9 := c8.onOlc fun o => { o with
    carried := keep.length, dropped := (old.insts.filter fun x => !(p.insts.any fun n => n.ident == x.ident && kindFits x.kind n.kind)).length
    last := c.now, pkg := none, cleared := false, xferNs := 0, willSkip := false }
  let c10 := c9.onUp fun u => { u with
    runCfgSlot := slot
    cfgA := if slot then u.cfgA else some p, cfgB := if slot then some p else u.cfgB }
  ((c10.onBoot fun b => { b with cfgPrev := b.cfgActive, cfgActive := some slot }).raise 0x0107 (path 1 0 0)).pendingCheck.drivePins

/-- A swap completes (R344, R346). -/
def Core.swapDone (skipped : Bool) (c : Core) : Core :=
  ((c.onOlc fun o => { o with st := .none }).raiseIf skipped 0x0803 (pgPath 3)).raise 0x0806 (pgPath 3)

/-- The boundary's swap: at once in Standby or when the transfer ran in the last old cycle, else over one skipped cycle. -/
def Core.swapNow (c : Core) : Core :=
  match c.prog.olc.st, c.prog.olc.pkg with
  | .armed, some p =>
    if c.md.mode = .standby ∧ !c.olcFits p then c.olcRefuse .ready 7 else
    let skip := c.prog.olc.willSkip && c.running
    let c1 := (c.onOlc fun o => { o with st := .swapping }).swapTo p
    if skip then c1.onProg fun q => { q with skipNext := true } else c1.swapDone false
  | _, _ => c

/-- Whether a base-cycle start is the swap boundary (R341, R342, R347). -/
def Core.swapDue (c : Core) : Bool :=
  c.prog.olc.st == .armed && (c.prog.olc.cleared || c.md.mode == .standby)

/-- OLC_SWAP: the swap boundary, in a state in which it has come. -/
def Core.olcSwap (c : Core) : Core :=
  if !c.swapDue ∨ (c.running ∧ !c.prog.ended) then c
  else (c.advanceTo (if c.prog.begun then c.prog.cycleStart + c.baseLen else c.now)).swapNow

/-! ## The standby of a pair (R721) -/

/-- PACKAGE: the standby loads a forwarded package whose base it runs. -/
def Core.packageRx (base : Nat) (p : Image) (c : Core) : Core :=
  if !c.pairOn ∨ c.mr.role ≠ .standby ∨ !c.mr.partnerKnown ∨ base ≠ c.image.hash then c else c.olcDeliver p

/-- A package goes on to the standby. -/
def Core.packageTx (base : Nat) (p : Image) (c : Core) : Core :=
  if c.pairOn && c.mr.role == .active && c.mr.link && c.mr.partnerKnown then
    (c.onMr fun m => { m with olcSent := true }).morPut (.package [base / 2 ^ 192, p.hash / 2 ^ 192]) else c

/-- The switch-in of an epoch with SWAP: R345 on the mirrored state, and the result's layout from then on. -/
def Core.standbySwap (c : Core) : Core :=
  match c.prog.olc.st, c.prog.olc.pkg with
  | .ready, some p =>
    let fs := forcesOf c.mr.mBlocks (cdiv (retItems c.image) 64)
    let c1 := ((c.placeMemory).restoreItems c.mr.mBlocks 0 c.image.retain).onProg fun q => { q with forces := fs }
    let c2 := (c1.swapTo p).swapDone false
    c2.onMr fun m => { m with mBlocks := c2.retainBlocks }
  | _, _ => c

/-- EPOCH_END (R697, R721). -/
def Core.epochEndRx (x : EpochEndMsg) (c : Core) : Core :=
  let (c1, inn) := c.epochEnd x
  if inn ∧ x.swap then c1.standbySwap else c1

/-! ## The commands -/

def execOlcLoadComplete (s : State) : Host.Outcome State Fault Refusal := coreCmd Core.olcLoaded s
def execOlcSwap (s : State) : Host.Outcome State Fault Refusal := coreCmd Core.olcSwap s
def execPackageFrame (h : MorHdr) (p : Package) (s : State) : Host.Outcome State Fault Refusal :=
  coreCmd (Core.morFrame h (Core.packageRx p.base p.img)) s
def execEpochEnd (f : EndFrame) (s : State) : Host.Outcome State Fault Refusal :=
  coreCmd (Core.morFrame f.h (Core.epochEndRx f.m)) s

end Sys2Proof.Machine
end

