-- ==== Sys2Proof/Machine/Start.lean ====
section
/-!
DEFINITION. Machine/Start.lean: the start sequence (R136 to R148, R794, R795), from the ROM's choice to Standby, Minimal or Recovery, and
the commands that restart or hold the core. A start is one command: what it meets comes with it (StartEnv), and device time runs on
by its duration (notes/assumptions/70.md).
-/
namespace Sys2Proof.Machine

/-! ## What a restart keeps (R3, R62, R105, R146) -/

/-- The bits of a register that a warm start keeps. -/
def keptMask (a : Nat) : Word :=
  match regAt a with
  | some h => h.flds.foldl (fun m f => if f.kept then m ||| f.mask else m) 0
  | none => 0

/-- The present bits of `mask`, as stored against another image word. -/
def keepWord (v w mask : Word) : Word := (v ^^^ w) &&& mask

/-- The values that outlive a restart, as the copy in use holds them (R795). -/
def Core.settingsNow (c : Core) : Settings :=
  let old := if c.up.setCopy then c.up.setB else c.up.setA
  { lnFp := (List.range 4).foldl (fun m u => SMap.set 0 m u (c.lnPort u).knownFp) [], mrFp := c.mr.knownFp
    pairWait := if c.reg A.MR_PAIR_WAIT = c.imgWord A.MR_PAIR_WAIT then old.pairWait else some (c.reg A.MR_PAIR_WAIT) }

/-- Settings are kept in flash as the host changes them. -/
def Core.saveSettings (c : Core) : Core :=
  if c.up.runFw.isNone ∨ c.up.runCfg.isNone then c else
  let s := c.settingsNow
  c.onUp fun u => if u.setCopy then { u with setB := s } else { u with setA := s }

/-- What a journal keeps in the MRAM over a restart; a FINAL record that the reset cuts short stays behind invalid (R333). -/
def Journal.atRest (img : Nat) (j0 : Journal) : Journal :=
  let j := j0.cutFinal img
  { hdr0 := j.hdr0, hdr1 := j.hdr1, regA := j.regA, regB := j.regB, seq := j.seq, writeFail := j.writeFail,
    finalIncomplete := j.finalIncomplete, pfw := j.pfw, capture := j.capture, capacity := j.capacity, rate := j.rate }

/-- What the chain's ports keep over a reset: the stored fingerprints; without loss of VCORE their links too, and the frames and relayed
chunks in transit (R655, R664). -/
def Lintel.rebooted (l : Lintel) (powered : Bool) : Lintel :=
  let port (p : LnPort) : LnPort := if powered then
      { link := p.link, knownFp := p.knownFp, waiting := p.waiting, busy := p.busy, bulkFrom := p.bulkFrom }
    else { knownFp := p.knownFp }
  let kept : Lintel := { ports := SMap.mapAll {} (fun _ => port) l.ports }
  if powered then { kept with seen := l.seen, seq := l.seq, pieces := l.pieces, relay := l.relay } else kept

/-- RESET_OUT_N and SVC_PHY_RST_N: low in reset, high from step 3 of a start on (R810, R814, R825). -/
def Core.boardPins (level : Bool) (c : Core) : Core :=
  let c1 := if c.pw.resetN = level then c else (c.onPw fun p => { p with resetN := level }).emit (.pin 9 0 level)
  if c.pw.phyN = level then c1 else (c1.onPw fun p => { p with phyN := level }).emit (.pin 10 0 level)

/-- The core in reset (R136 step 1): every block at its start, but for Plumb, the boot flash, the MRAM, the pins' levels and the
island's mirror. Registers hold their kept bits until the kind of start is known. -/
def Core.rebooted (cause : Nat) (c0 : Core) : Core :=
  let c := (c0.saveSettings).pinsOff c0.mr.pinsLive
  let (nonce, free) := (Config.freeNat c.free, c.free + 1)
  let u := c.up
  let c1 : Core := {
    regs := (c.regs.keys ++ c.img.keys).eraseDups.foldl (fun m a => SMap.set 0 m a (keepWord (c.reg a) (coldOf a) (keptMask a))) []
    host := { nextIdent := c.host.nextIdent, lastEv := c.host.lastEv, sgmii := c.host.sgmii }
    md := { cause := cause }
    plumb := { c.plumb with tin := [] }
    prog := { jr := c.prog.jr.atRest c.image.imageId }
    mot := c.mot
    mr := { takeovers := c.mr.takeovers, toTime := c.mr.toTime, toLag := c.mr.toLag, knownFp := c.mr.knownFp, activePin := c.mr.activePin }
    ln := c.ln.rebooted (cause ≠ 0 ∧ cause ≠ 1 ∧ cause ≠ 5)
    up := { u with
      runFw := none, runCfg := none, pendingAct := false, down := u.down.filter (fun d => d.2.st == .held), named := 0, namedKind := 0, refuse := 0, refusals := 0
      relayed := 0, abandoned := 0, dbgLevel := 0, dbgTicks := 0, dbgNonce := nonce, parts := [] }
    mem := { dramMib := c.mem.dramMib, nvm0 := c.mem.nvm0, nvm1 := c.mem.nvm1 }
    pw := { c.pw with ep05 := none, ep06 := false, ep07 := false, ep41 := false, ep81 := false, zeroFrom := none, tempMax := 0, testHold := false }
    mirror := c.mirror, out := c.out, free := free }
  ((c1.raiseIf (u.dbgLevel != 0) 0x010C (path 1 2 0)).activePin).boardPins false

/-- The core held in reset. -/
def Core.holdCore (cause : Nat) (c : Core) : Core := ((c.rebooted cause).onMd fun m => { m with held := true }).activePin

/-- Plumb at a cold restart: timed outputs disarmed, and its registers at their Cold values (R105, R108, R116, R124). -/
def Core.coldPlumb (c : Core) : Core :=
  let c1 := forN 16 (fun m d => (d.toutDisarm m).onTout m fun o => { o with missed := 0 }) c
  c1.onPlumb fun p => { p with
    slewRemain := 0, slewing := false, holdAge := 0
    ports := SMap.mapAll {} (fun _ x => { x with pathSteps := 0, asymUnverified := false }) p.ports }

/-- BLK_EVENT without an event since the reset. -/
def staleCode (a : Nat) (x : Word) : Bool := decide (a < 0x100000) && a % 0x10000 == 8 && bits x 31 16 == 0

/-- The registers of a cold start: what was kept goes; LAST_CODE of an event since the reset stays. -/
def coldRegs (m : SMap Word) : SMap Word :=
  m.foldl (fun r e => SMap.set 0 r e.1
    (if staleCode e.1 e.2 then 0 else if e.1 < 0x100000 ∧ e.1 % 0x10000 = 8 then e.2 else e.2 &&& ~~~ (keptMask e.1))) []

/-- Bits of a word that an entry of section 0x000D has set. -/
def entryMask (i : Image) (a : Nat) : Word := i.settings.foldl (fun m r => if r.addr = a then m ||| r.mask else m) 0

/-- The registers of a warm start under the image just placed: an entry of section 0x000D wins (R43), other kept bits keep their
value, the rest takes the image's. -/
def Core.warmRegs (c : Core) : SMap Word :=
  (c.regs.keys ++ c.img.keys).eraseDups.foldl (fun m a =>
    let x := SMap.get 0 c.regs a
    SMap.set 0 m a ((keepWord (x ^^^ coldOf a) (c.imgWord a) (keptMask a) ||| (x &&& ~~~ (keptMask a))) &&& ~~~ (entryMask c.image a))) []

/-- A start that does not reach step 10 restores nothing. -/
def Core.coldCore (c : Core) : Core :=
  let c1 : Core := { c.coldPlumb with regs := coldRegs c.regs }
  forL c1.mot.axes.keys (fun a d => d.axisStart false a) c1

/-! ## The ROM (R138, R142, R794, R800) -/

def Update.fwOf (u : Update) (b : Bool) : Option Firmware := if b then u.fwB else u.fwA
def Update.cfgOf (u : Update) (b : Bool) : Option Image := if b then u.cfgB else u.cfgA

/-- Whether a firmware set is valid (R785). -/
def firmwareOk (f : Firmware) : Bool := f.hashesOk && f.steppings.contains Config.stepping && f.combos.contains f.versions && f.sigOk

/-- Whether the ROM can start the set of a slot: its hash and signature verify, and MIN_SEC admits it (R787). -/
def Update.startable (u : Update) (env : StartEnv) (b : Bool) : Bool :=
  match u.fwOf b with
  | some f => (if b then env.fwBOk else env.fwAOk) && decide (u.boot.minSec ≤ f.secVersion)
  | none => false

/-- The boot record in force: of the valid records that the copies hold, the one of higher SEQ (R136 step 3, R778). Without a valid
record no slot is known to be valid, and the ROM goes to Recovery: the model's choice, notes/assumptions/120.md. -/
def Update.bootPick (u : Update) (env : StartEnv) : Option BootRec :=
  match env.recAOk, env.recBOk with
  | true, true => some (if u.recA.seq < u.recB.seq then u.recB else u.recA)
  | true, false => some u.recA
  | false, true => some u.recB
  | false, false => none

/-- What the ROM chooses: Recovery, another start, or the set of FW_ACTIVE, with or without a fallback. -/
inductive RomPick where
  | recovery | again | go (fell : Bool)
  deriving DecidableEq, Repr

/-- Step 3: the recovery conditions, the count of a trial or its fallback, and the slot. -/
def Core.romPick (strap : Bool) (env : StartEnv) (c0 : Core) : Core × RomPick :=
  let c := c0.onUp fun u => { u with boot := (u.bootPick env).getD u.boot }
  let b := c.up.boot
  if (c0.up.bootPick env).isNone then (c0, .recovery)
  else if b.reqRecovery then (c.onBoot fun b => { b with reqRecovery := false }, .recovery)
  else if strap ∧ env.recovery then (c, .recovery)
  else if b.trial then
    if b.trialStarts = 3 ∨ b.startFails = 3 then
      let c1 := c.onBoot fun b => { b with
        fwActive := b.fwPrev.getD b.fwActive, cfgActive := if b.cfgPrev.isSome then b.cfgPrev else b.cfgActive
        trial := false, startFails := 0 }
      if c1.up.startable env c1.up.boot.fwActive then ((c1.onMd fun m => { m with cause := 6 }).raise 0x0109 (path 1 0 0), .go true)
      else (c1, .recovery)
    else
      let c1 := c.onBoot fun b => { b with trialStarts := b.trialStarts + 1 }
      if c1.up.startable env b.fwActive then (c1.raise 0x0104 (path 1 0 0), .go false) else (c1, .again)
  else if c.up.startable env b.fwActive then (c, .go false)
  else if c.up.startable env (!b.fwActive) then (c.onBoot fun b => { b with fwActive := !b.fwActive }, .go false)
  else (c, .recovery)

/-! ## Settings at step 4 (R795) -/

def BootRec.setOf (b : BootRec) (s : Bool) : Option Bool := if s then b.setB else b.setA
def BootRec.withSet (b : BootRec) (s : Bool) (v : Option Bool) : BootRec := if s then { b with setB := v } else { b with setA := v }

/-- The settings copy of the starting set, a migration for a trial set without one; none when a fallback finds no readable copy. -/
def Core.takeSettings (fell : Bool) (env : StartEnv) (c : Core) : Option Core :=
  let b := c.up.boot
  let s := b.fwActive
  let load (copy : Bool) (read : Bool) (d : Core) : Core :=
    let v : Settings := if read then (if copy then d.up.setB else d.up.setA) else {}
    let d1 := (d.onUp fun u => { u with setCopy := copy }).onMr fun m => { m with knownFp := v.mrFp }
    forN 4 (fun n e => e.onLnPort n fun p => { p with knownFp := SMap.get 0 v.lnFp n }) d1
  match b.setOf s with
  | some copy => if fell ∧ !env.settingsOk then none else some (load copy env.settingsOk c)
  | none =>
    if fell then none
    else if b.trial then
      let old := (b.fwPrev.bind b.setOf).getD true
      let c1 := c.onUp fun u => if old then { u with setA := u.setB } else { u with setB := u.setA }
      some (load (!old) true ((c1.onBoot fun b => b.withSet s (some (!old))).raise 0x0106 (path 1 0 0)))
    else
      let copy : Bool := b.setOf (!s) == some false
      let c1 := c.onUp fun u => if copy then { u with setB := {} } else { u with setA := {} }
      some (load copy true (c1.onBoot fun b => b.withSet s (some copy)))

/-! ## The check of the safety parameter block (R735, R738, R762) -/

def inRange (lo hi n : Nat) : Bool := decide (lo ≤ n) && decide (n ≤ hi)

/-- A safe input: sources exist and differ, and DISC covers a pulse of each source it uses. -/
def safeInOk (b : SafetyBlock) (x : SafeInDef) : Bool :=
  let src (s : Nat) : Bool := s == 4 || (decide (s < 4) && match b.tps[s]? with
    | some t => decide (t.width + 2 * t.settle ≤ x.disc)
    | none => false)
  !x.enable || ((x.tpA != x.tpB || x.tpA == 4) && src x.tpA && src x.tpB && decide (x.filt ≤ 200) && inRange 100 500000 x.disc && x.disc % 50 == 0)

def safeTpOk (t : SafeTpDef) : Bool :=
  inRange 1 100 t.period && inRange 25 200 t.width && inRange 2 50 t.settle && decide (t.settle + 10 ≤ t.width)

def safeFnOk (b : SafetyBlock) (f : SafeFnDef) : Bool :=
  inRange 1 8 f.sources.length && decide (f.stopCat ≤ 1) && decide (f.ss1Delay ≤ 3000000) && f.ss1Delay % 100 == 0 && decide (f.restart ≤ 1) &&
    decide (f.qstopAxes.length ≤ 8) && f.qstopAxes.all (fun a => decide (a < 192)) && inRange 1 60 f.darkInt && inRange 10 40 f.darkW &&
    f.sources.all fun s => match s with
      | .input i => decide (i < b.inputs.length)
      | .connBit n k => match b.conns[n]? with
        | some c => c.inbound && decide (k < 8 * c.dataLen)
        | none => false

/-- The rest of the block on the image that refers to it. -/
def Core.safeBlockOk (b : SafetyBlock) (c : Core) : Bool :=
  decide (b.inputs.length ≤ 16) && decide (b.tps.length ≤ 4) && decide (b.fns.length ≤ 8) && decide (b.brks.length ≤ 4) && decide (b.conns.length ≤ 64) &&
    b.inputs.all (safeInOk b) && b.tps.all safeTpOk && b.fns.all (safeFnOk b) &&
    b.brks.all (fun k => decide (k.func < b.fns.length) && decide (k.axis < 192) && decide (k.testI < 2 ^ 16) && inRange 100 5000 k.testMs &&
      inRange 1 168 k.brkInt && (c.axEnc k.axis || b.conns.any fun x => x.inbound && x.posAxis == some k.axis && decide (8 ≤ x.dataLen))) &&
    b.conns.all fun x => inRange 1 24 x.dataLen && inRange 250 1000000 x.wdUs && decide (x.safeId < 2 ^ 16) &&
      (if x.viaLintel then decide (125 < x.wdUs) else decide (x.port < 8) && decide (2 * c.portNs x.port < 1000 * x.wdUs))

/-- Whether the devices of every Lintel connection share a LIN ring of the plan (R673). -/
def Core.safeRingsOk (b : SafetyBlock) (c : Core) : Bool :=
  b.conns.all fun x => !x.viaLintel || onLinRing c.image c.devNum x.target

/-! ## Ends of a start -/

/-- Minimal (R140, R143). A start that R141 ends there has failed as R139 has it; one that R140 ends there has not (R160).
START_MS reads 0 after it, notes/assumptions/120.md. -/
def Core.toMinimal (reason : Nat) (c0 : Core) : Core :=
  let c := c0.onUp fun u => { u with startOpen := reason = 1 ∨ reason = 5 }
  ((((c.coldCore.onMd fun m => { m with mode := .minimal, reason := reason }).activePin).raise 0x0001 0).raise 0x0081 0).onAshSt fun _ => {}

/-- Recovery (R129, R800). -/
def Core.toRecovery (c : Core) : Core := ((c.coldCore.onMd fun m => { m with mode := .recovery }).activePin).raise 0x0001 0

/-- Entry to Standby: streams with AUTO_START and units with AUTO_ARM that are still IDLE start, and the ACTIVE pin follows (R551, R599). -/
def Core.standbyEntry (c : Core) : Core :=
  let c1 := forL c.image.streams (fun k d => if d.flag (rsA A.RS_CFG k) 29 ∧ (d.stream k).st = .idle then d.rsStart k else d) c
  let c2 := forL (c1.image.units.map Prod.fst) (fun u d =>
    if d.flag (cpA A.CP_CFG u) 9 ∧ (d.unit u).st = .idle ∧ (d.unit u).captures = 0 then (d.arm u d.now).1 else d) c1
  c2.activePin

/-! ## Steps 9 to 12 -/

/-- Step 9: an image's registers, memory, tags, loops and stream entries. -/
def Core.placeImage (i : Image) (slot : Bool) (c : Core) : Core :=
  let c1 := ((c.onUp fun u => { u with runCfg := some i, runCfgSlot := slot }).placeAll i).placeMemory
  c1.onRec fun r => { r with entries := i.entries.map entryFresh }

/-- The halves of a word that a masked entry leaves. -/
def halvesUnder (old : Word) (r : RegSetting) : Word := (old &&& ~~~ r.mask) ||| (r.value &&& r.mask)

/-- One entry of section 0x000D for a register whose contents typed state holds, with the selections that entries before it made
(R43, R193, R297). -/
def Core.setTyped (p : SMap Word × Core) (r : RegSetting) : SMap Word × Core :=
  match regAt r.addr with
  | none => p
  | some h =>
    let (sel, c) := p
    let pick (a : Nat) : Nat := (SMap.get 0 sel a).toNat
    if (selMask h.key).isSome then (SMap.set 0 sel h.key (halvesUnder (SMap.get 0 sel h.key) r &&& usedMask h), c)
    else if h.key = A.PB_PORT_ASYM then (sel, c.onPtpPort h.i fun q => { q with asymUnverified := false })
    else if h.key = A.LE_MS_LEN then
      (sel, { c with lp := { c.lp with msLen := SMap.set 0 c.lp.msLen h.i (halvesUnder (wd (SMap.get 0 c.lp.msLen h.i)) r).toNat } })
    else if h.key = A.LE_MS_DATA then
      let k := pick A.LE_MS_SEL * 4096 + 2 * h.i
      let w := halvesUnder (halves (SMap.get 0 c.lp.ms k) (SMap.get 0 c.lp.ms (k + 1))) r
      (sel, { c with lp := { c.lp with ms := SMap.set 0 (SMap.set 0 c.lp.ms k (loQ w)) (k + 1) (hiQ w) } })
    else if h.key = A.LE_TBL_NODE then
      let n := pick A.LE_TBL_SEL
      let w := halvesUnder (wd (SMap.get 0 (c.loop n).nodes (2 * h.i + 1) * 65536 + SMap.get 0 (c.loop n).nodes (2 * h.i))) r
      let high (m : SMap Nat) : SMap Nat := if h.i = 32 then m else SMap.set 0 m (2 * h.i + 1) (bits w 31 16)
      (sel, if c.image.loops.contains n then c.onLoop n fun l => { l with nodes := high (SMap.set 0 l.nodes (2 * h.i) (bits w 15 0)) } else c)
    else if h.key = A.LE_BIN then
      let n := pick A.LE_BIN_SEL
      let b := (c.loop n).lrn.bins
      let w := halvesUnder (halves (SMap.get 0 b (2 * h.i)) (SMap.get 0 b (2 * h.i + 1))) r
      let high (m : SMap Int) : SMap Int := if 2 * h.i + 1 < c.rcN n then SMap.set 0 m (2 * h.i + 1) (hiQ w) else m
      (sel, if c.image.loops.contains n ∧ 2 * h.i < c.rcN n then c.onLrn n fun x => { x with bins := high (SMap.set 0 x.bins (2 * h.i) (loQ w)) } else c)
    else if h.key = A.RR_ENT_DEADBAND then
      (sel, c.onRec fun x => { x with entries := x.entries.modify (pick A.RR_ENT_SEL) fun e => { e with deadband := halvesUnder e.deadband r } })
    else if h.key = A.RR_ENT_CFG then
      (sel, c.onRec fun x => { x with entries := x.entries.modify (pick A.RR_ENT_SEL) fun e =>
        { e with heartbeat := bits (halvesUnder (wd (e.heartbeat * 65536)) r) 31 16 } })
    else p

/-- Section 0x000D on typed state, in order, from selections of 0 (R43). -/
def Core.settingsTyped (c : Core) : Core := (c.image.settings.foldl Core.setTyped (([] : SMap Word), c)).2

/-- Whether the journal can serve a warm start of the running image (R145, R326). -/
def Core.journalFits (c : Core) : Bool :=
  !c.prog.jr.writeFail && ((c.prog.jr.valid.head?).map (·.imageId)) == some c.image.imageId

/-- Step 10 of a cold start: the journal is cleared (R326). -/
def Core.journalClear (ok : Bool) (c : Core) : Core :=
  let now := c.retainBlocks
  let c1 := c.onJr fun j =>
    let h : JHeader := { seq := j.header.seq + 1, region := false, imageId := c.image.imageId, valid := ok }
    let b : JRec := { type := 1, seq := j.seq + 1, imageId := c.image.imageId, capture := c.now, blocks := now, valid := ok }
    { j with hdr0 := h, hdr1 := h, regA := [b], regB := [], seq := j.seq + 1, shadow := now, writeFail := !ok, capture := c.now, shown := 0 }
  c1.raiseIf (!ok) 0x0846 (pgPath 1)

/-- A running timer keeps its elapsed time and ages by the device time since the journal's capture (R146). -/
def Core.ageTimer (cap : Time) (r : RetainItem) (c : Core) : Core :=
  match r with
  | .timer t w =>
    let off : Int := ((cap % c.baseLen) / 65536 : Nat)
    let gone : Int := if c.now < cap then (cap / 65536 : Nat) else 0
    c.onTile t fun x =>
      if (x.word (w + 2)).getLsbD 1 then x.setDword w (BitVec.ofInt 64 ((x.dword w).toNat + off - gone)) else x
  | _ => c

/-- Step 10 of a warm start (R146): retained items, forces; a running loop whose integrator was kept recloses from it. -/
def Core.journalRestore (c : Core) : Core :=
  let j := c.prog.jr
  let m := j.state
  let i := c.image
  let last := (j.valid.getLast?).getD { type := 1, seq := 0, imageId := 0, capture := 0, blocks := [] }
  let fs := forcesOf m (cdiv (retItems i) 64)
  let c1 := forL i.retain (Core.ageTimer last.capture) (c.restoreItems m 0 i.retain)
  let c2 := forL i.retain (fun r d => match r with | .loopI n => d.onLoop n fun l => { l with reclose := false } | _ => d) c1
  let c3 := forL fs (fun f d => d.markForced f.tag true) (c2.onProg fun p => { p with forces := fs })
  let now := c3.retainBlocks
  c3.onJr fun j => { (j.setRegion j.region j.valid) with seq := last.seq, shadow := now, capture := last.capture, shown := last.capture }

/-- A FINAL record that is present and invalid (R333). -/
def Journal.brokenFinal (j : Journal) : Bool := j.active.any fun r => r.type == 3 && !r.valid

/-- Steps 9 and 10: placement, the kind of start, and what it restores. `kind` is the host's; else AUTO_WARM decides (R144). -/
def Core.restore (kind : Option Bool) (i : Image) (slot : Bool) (env : StartEnv) (c : Core) : Core :=
  let c1 := c.placeImage i slot
  let asked := kind.getD (c1.flag A.DEV_START_CTL 1)
  let warm := asked && c1.journalFits
  let c2 : Core := if warm then { c1 with regs := c1.warmRegs } else { c1.coldPlumb with regs := coldRegs c1.regs }
  let s := if c2.up.setCopy then c2.up.setB else c2.up.setA
  let c3 := match s.pairWait with | some v => c2.setReg A.MR_PAIR_WAIT v | none => c2
  let c4 := forN 16 (fun m d => d.toutShow m (c.toutLevel m (c.tout m).pulse.isSome))
    (forL i.loops (fun n d => d.loopStart n none) c3.placeTags).settingsTyped
  let c5 := forL (c4.mot.axes.keys ++ i.axes).eraseDups (fun a d => d.axisStart warm a) c4
  let broken := c5.prog.jr.brokenFinal
  let c6 := (c5.onJr fun j => { j with finalIncomplete := j.finalIncomplete || broken }).raiseIf broken 0x0844 (pgPath 1)
  let c7 := if warm then c6.journalRestore else (c6.journalClear env.mramOk).raiseIf asked 0x0005 0
  c7.onMd fun m => { m with warmLast := warm, flyArmed := warm }

/-- Step 11: the ports enumerate the modules that answer. -/
def Core.startPorts (env : StartEnv) (c : Core) : Core :=
  forN 8 (fun p d =>
    let up := env.links.contains p
    let d1 := d.onPort p fun x => { x with linkUp := up }
    if !d1.lineRole p then d1
    else if up then d1.enumAll p env.modules else d1.onPort p fun x => { x with st := .linkDown }) c

/-- Step 11: the identities of the Lintel neighbours (R662), over the links that stayed up and those that come up. -/
def Core.startChain (env : StartEnv) (c : Core) : Core :=
  forL env.neighbours (fun e d => if d.lnUnit e.1 then (d.lnUp e.1).identAnswer e.1 e.2 else d)
    (forN 4 (fun u d => if d.lnUnit u && (d.lnPort u).link then d.identAsk u else d) c)

/-- Step 11: the partner's identity; false when pairing stays unresolved (R715). -/
def Core.startPair (env : StartEnv) (c : Core) : Core × Bool :=
  if !c.image.pair.en then (c, true) else
  let c1 := c.onMr fun m => { m with link := env.partnerFp.isSome || env.partner.isSome }
  match env.partnerFp with
  | none => (c1, true)
  | some fp =>
    let c2 := c1.judgePartner fp
    (c2, c2.mr.partnerKnown && !((env.partner.map fun b => b.role == 1 && !b.partnerKnown).getD false))

/-- Step 12: Standby, and the role that the partner's last heartbeat gives (R685). LAST_FAIL keeps its value, and START_MS ends at
0xFFFF: notes/assumptions/120.md. -/
def Core.startEnd (env : StartEnv) (c0 : Core) : Core :=
  let c := c0.onUp fun u => { u with startOpen := false }
  let c1 := if c.up.boot.startFails = 0 then c else c.onBoot fun b => { b with startFails := 0 }
  let pair := c1.image.pair.en
  let c2 := c1.onMd fun m => { m with mode := .standby, startMs := min 0xFFFF env.ms, autoRun := !pair && c1.flag A.DEV_START_CTL 0 }
  let c3 := (((c2.slewAtStandby).standbyEntry.raise 0x0001 0).raise 0x0002 0)
  if !pair then c3 else
  match env.partnerFp, env.partner with
  | some _, some b => (c3.onMr fun m => { m with partnerHeard := true, beat := b, claimSeen := max b.claim b.claimSeen }).takeRole b
  | _, _ => c3.onMr fun m => { m with waitFrom := some c3.plumb.elapsed }

/-! ## The whole sequence -/

/-- Steps 7 to 12 on a device whose firmware runs. -/
def Dev.startImage (kind : Option Bool) (env : StartEnv) (f : Firmware) (d : Dev) : Dev :=
  let c := d.core
  let slot := c.up.boot.cfgActive.getD false
  match c.up.boot.cfgActive.bind c.up.cfgOf with
  | none => d.onCore (Core.toMinimal 2)
  | some i =>
    if !(if slot then env.cfgBOk else env.cfgAOk) ∨ !f.formats.contains i.format then d.onCore (Core.toMinimal 2) else
    let a := c.up.safeA
    let b := c.up.safeB
    let slotB : Bool := ((b.map fun x => x.hash == i.safetyRef).getD false) && !((a.map fun x => x.hash == i.safetyRef).getD false)
    let found := (if slotB then b else a).filter fun x => x.hash == i.safetyRef
    let bad : Bool := i.safetyRef != 0 && !((found.map fun x => env.blockOk && (c.asIf i).safeBlockOk x).getD false)
    if bad then d.onCore (Core.toMinimal 6) else
    let d1 := match (if i.safetyRef = 0 then none else found) with
      | none => d
      | some x =>
        let fresh := decide (d.isl.block ≠ some x)
        let e := (d.loadBlock x).onCore fun k => k.onUp fun u => { u with
          safeSlot := slotB, islandW := if fresh then f.versions.getD 5 0 else u.islandW }
        if env.blockOkW then e else e.fault true 16 0 islPath
    let rings : Bool := (found.map fun x => (d1.core.asIf i).safeRingsOk x).getD true
    if !d1.core.imageOk i ∨ (i.safetyRef ≠ 0 ∧ !rings) then d1.onCore (Core.toMinimal 2) else
    d1.onCore fun k =>
      let k1 := ((k.restore kind i slot env).startPorts env).startChain env
      let (k2, ok) := k1.startPair env
      if !ok then k2.toMinimal 7 else k2.startEnd env

/-- One pass of the sequence after another until it ends; a failed start records its cause and starts over (R139): after a watchdog
with that cause, after lost power as from power-on, otherwise with the cause of the start that failed (notes/assumptions/120.md). The
kind of such a start is AUTO_WARM's (R144). Every pass that starts over counts TRIAL_STARTS or START_FAILS, so that ten
passes suffice. -/
def Dev.startPass (kind : Option Bool) (full strap : Bool) (env : StartEnv) : Nat → Dev → Dev
  | 0, d => d.onCore (Core.toMinimal 1)
  | n + 1, d =>
    let again (e : Dev) : Dev := Dev.startPass none full false env n (e.onCore fun c => c.rebooted c.md.cause)
    let failed (fail : Nat) (e : Dev) : Dev :=
      let e1 := e.onCore fun c => (c.onBoot fun b => { b with lastFail := fail }).rebooted (if fail = 4 then 4 else if fail = 5 then 0 else c.md.cause)
      Dev.startPass none (full && fail == 1 || fail == 5) false { env with fails := env.fails.drop 1 } n e1
    let (c, pick) := d.core.romPick strap env
    match pick with
    | .recovery => { d with core := (c.boardPins true).toRecovery }
    | .again => again { d with core := c }
    | .go fell =>
      let b := c.up.boot
      let slot := b.fwActive
      let f := (c.up.fwOf slot).getD {}
      let c1 := (c.boardPins true).onBoot fun b => { b with boots := (b.boots + 1) % 2 ^ 32, startFails := min 3 (b.startFails + 1) }
      let c2 := (c1.onUp fun u => { u with
        startOpen := true, runFw := some f, runFwSlot := slot, islandP := if u.islandP = 0 then f.versions.getD 4 0 else u.islandP
        islandW := if u.islandW = 0 then f.versions.getD 5 0 else u.islandW }).raiseIf d.core.up.startOpen 0x0004 0
      let d2 : Dev := { d with core := c2 }
      if b.startFails = 3 then d2.onCore (Core.toMinimal (if b.lastFail = 2 then 5 else 1))
      else
      let cc := c2.raise 0x0001 0
      if !firmwareOk f then { d with core := cc.toMinimal 3 }
      else match cc.takeSettings fell env with
      | none => { d with core := cc.toMinimal 4 }
      | some c3 =>
        let c4 := (c3.onMem fun m => { m with dramMib := env.dramMib, nvm0 := env.nvm0, nvm1 := if env.nvm1 = env.nvm0 then env.nvm1 else 0 }).onJr fun j =>
          { j with capacity := env.mramBytes, rate := env.mramRate }
        let c5 := ((c4.onHost fun h => { h with link := env.svcLink }).onUp fun u => { u with retries := min 0xFFFF (u.retries + env.retries) }).raiseIf
          (decide (0 < env.retries)) 0x0145 (path 1 0 0)
        let d3 : Dev := { d with core := c5.raiseIf (env.nvm1 != 0 && env.nvm1 != env.nvm0) 0x0E42 (path 14 8 0) }
        match env.fails with
        | k :: _ => if k = 0 ∨ 5 < k ∨ (k = 1 ∧ !full) then d3.startImage kind env f else failed k d3
        | [] => d3.startImage kind env f

/-- TEST_EN sampled high holds the core and channel P in reset (R827). -/
def Dev.testHold (d : Dev) : Dev :=
  (d.onCore fun c => ((c.onMd fun m => { m with held := true }).onPw fun p => { p with testHold := true }).activePin).onIsl fun x =>
    { x with p := { x.p with inReset := true } }

/-- The start sequence of a core in reset; device time runs on by its duration. The straps count where PORST_N has been released. -/
def Dev.start (kind : Option Bool) (full strap : Bool) (env : StartEnv) (d : Dev) : Dev :=
  if strap && env.testEn then d.testHold else
  (d.onCore fun c => (c.advanceTo (c.now + env.ms * ms)).onHost fun h => { h with sgmii := if strap then env.sgmii else h.sgmii }).startPass
    kind full strap env 10

/-- A restart of the core alone (R127). -/
def Dev.restart (cause : Nat) (kind : Option Bool) (env : StartEnv) (d : Dev) : Dev :=
  (d.onCore (Core.rebooted cause)).start kind false false env

/-- Channel P is reset with the core and loads its firmware again (R731, R786). -/
def Dev.resetP (hold : Bool) (d : Dev) : Dev := (d.resetChans true false hold).onCore fun c => c.onUp fun u => { u with islandP := 0 }

/-! ## The commands -/

/-- POWER_ON: supplies within limits and PORST_N released; not while both keep-alive inputs are out (R835). Channel P starts
in LOCKED (R835), which it enters only if it was in RUN. -/
def Dev.powerOn (env : StartEnv) (d : Dev) : Dev :=
  if d.core.pw.kaLost then d else
  let d1 := d.onCore fun c => (c.rebooted 0).onPw fun p => { p with on := true, hold := false, uv := false }
  (if d.isl.locked then (d1.freshChans true false false).onCore fun c => c.onUp fun u => { u with islandP := 0 }
   else d1.resetP false).start none true true env

/-- PORST_N_ASSERT: a pulse of 10 µs or more resets core and channel P (R814, R731); not while another cause holds the core. -/
def Dev.porst (lenNs : Nat) (env : StartEnv) (d : Dev) : Dev :=
  if lenNs < 10000 ∨ (d.core.md.held ∧ !d.core.pw.testHold) then d
  else ((d.onCore (Core.rebooted 1)).resetP false).start none false true env

/-- WATCHDOG_EXPIRY (R130, R139). -/
def Dev.watchdog (env : StartEnv) (d : Dev) : Dev :=
  if d.core.md.held then d else
  (d.onCore fun c => if c.md.mode = .configure then c.onBoot fun b => { b with lastFail := 4 } else c).restart 4 none env

/-- VCORE_RESTORED: the reset of R817 ends. -/
def Dev.vcoreBack (env : StartEnv) (d : Dev) : Dev :=
  if !d.core.pw.uv ∨ d.core.pw.kaLost ∨ !d.core.pw.on ∨ d.core.pw.hold then d
  else (d.onCore fun c => (c.rebooted 5).onPw fun p => { p with uv := false }).start none true false env

/-- KEEP_ALIVE_LOSS: Plumb and channel W lose supply; the core and channel P are held (R835). -/
def Dev.keepAliveLoss (d : Dev) : Dev :=
  ((d.onCore fun c => (c.holdCore 0).onPw fun p => { p with kaLost := true, vkaA := false, vkaB := false }).resetChans true true true).onCore fun c =>
    c.onUp fun u => { u with islandP := 0, islandW := 0 }

/-- KEEP_ALIVE_RETURN: device time restarts (R63) and a full start runs, unless another supply is out, whose return starts the core
(R136 step 1). -/
def Dev.keepAliveBack (env : StartEnv) (d : Dev) : Dev :=
  if !d.core.pw.kaLost then d else
  let d1 := d.onCore fun c =>
    let c1 : Core := { (c.rebooted 0) with plumb := {} }
    (c1.onHost fun h => { h with lastEv := [] }).onPw fun p => { p with kaLost := false, vkaA := true, hold := false, uv := false }
  if !d.core.pw.on then
    (d1.onCore fun c => c.onMd fun m => { m with held := true }).onIsl fun x => { x with w := { x.w with inReset := false } }
  else (d1.onIsl fun x => { x with p := { x.p with inReset := false }, w := { x.w with inReset := false } }).start none true true env

/-- THERMAL_HOLD_RELEASE: the junction below 110 °C after a hold (R819). -/
def Dev.thermalBack (env : StartEnv) (d : Dev) : Dev :=
  if !d.core.pw.hold ∨ d.core.pw.kaLost ∨ !d.core.pw.on then d
  else ((d.onCore fun c => (c.rebooted 8).onPw fun p => { p with hold := false }).releaseP).start none true false env

/-- POWER_LOSS: the core is off and channel P reset; a FINAL record being written stays incomplete (R333, R799). -/
def Dev.powerLoss (d : Dev) : Dev :=
  let d1 := d.onCore fun c =>
    let c1 := if c.md.mode = .configure ∧ !c.md.held then c.onBoot fun b => { b with lastFail := 5 } else c
    (c1.holdCore 0).onPw fun p => { p with on := false }
  d1.resetP true

def execPowerOn (env : StartEnv) (s : State) : Host.Outcome State Fault Refusal := devCmd (Dev.powerOn env) s
def execPorstNAssert (lenNs : Nat) (env : StartEnv) (s : State) : Host.Outcome State Fault Refusal := devCmd (Dev.porst lenNs env) s
def execWatchdogExpiry (env : StartEnv) (s : State) : Host.Outcome State Fault Refusal := devCmd (Dev.watchdog env) s
def execVcoreRestored (env : StartEnv) (s : State) : Host.Outcome State Fault Refusal := devCmd (Dev.vcoreBack env) s
def execKeepAliveLoss (s : State) : Host.Outcome State Fault Refusal := devCmd Dev.keepAliveLoss s
def execKeepAliveReturn (env : StartEnv) (s : State) : Host.Outcome State Fault Refusal := devCmd (Dev.keepAliveBack env) s
def execThermalHoldRelease (env : StartEnv) (s : State) : Host.Outcome State Fault Refusal := devCmd (Dev.thermalBack env) s
def execPowerLoss (s : State) : Host.Outcome State Fault Refusal := devCmd Dev.powerLoss s

end Sys2Proof.Machine
end

