-- ==== Sys2Proof/Machine/Update.lean ====
section
/-!
DEFINITION. Machine/Update.lean: receiving, checking, activating and confirming containers, identity and the debug port
(18_update_and_identity). What needs a host request is called from the host's rows.
-/
namespace Sys2Proof.Machine

def btPath : Nat := path 1 0 0
def upPath : Nat := path 1 1 0
def idPath : Nat := path 1 2 0

/-! ## Destinations (R780, R791, R792) -/

/-- The destination of a kind: 0 firmware, 1 configuration, 2 safety, 3 token, 4 owner table. -/
def contDest (kind : Nat) : Nat := if kind ≤ 2 then 0 else if kind ≤ 5 then 1 else kind - 4

def Core.download (c : Core) (d : Nat) : Download := SMap.get {} c.up.down d
def Core.onDownload (d : Nat) (f : Download → Download) (c : Core) : Core :=
  c.onUp fun u => { u with down := SMap.upd {} u.down d f }

/-- Whether chunk 0 addresses this device (R792). -/
def Core.addressed (c : Core) (h : ContHdr) : Bool :=
  (h.target == c.devNum || (h.target == 0xFFFF && c.flag A.UP_RELAY_CTL 0 && c.md.mode != .recovery)) &&
    (h.targetFp == Config.identityFp || (h.targetFp == 0 && h.kind != 7))

/-- The firmware slot that a set is written to (R780, R800). -/
def Core.fwTarget (c : Core) : Bool :=
  let u := c.up
  if c.md.mode = .recovery then
    if u.fwA.isNone then false else if u.fwB.isNone then true else !u.boot.fwActive
  else !u.runFwSlot

/-- The configuration slot that an image is written to. -/
def Core.cfgTarget (c : Core) : Bool :=
  if c.up.runCfg.isSome then !c.up.runCfgSlot else match c.up.boot.cfgActive with | some b => !b | none => false

/-- References that hold a safety slot: the running image's, and the pending one's (R798). -/
def Core.safeRefs (c : Core) : List Nat :=
  let pend := if c.up.pendingAct then (c.up.boot.cfgActive.bind c.up.cfgOf).toList else []
  let run := match c.up.runCfg with | some i => [i] | none => (c.up.boot.cfgActive.bind c.up.cfgOf).toList
  ((run ++ pend).map (·.safetyRef)).filter (· != 0)

/-- The safety slot free for a block (R798). -/
def Core.safeTarget (c : Core) : Option Bool :=
  let held (b : Option SafetyBlock) : Bool := (b.map fun x => c.safeRefs.contains x.hash).getD false
  if !held c.up.safeA then some false else if !held c.up.safeB then some true else none

/-- Whether the destination is free (R782 test 9, R791, R797, R798). -/
def Core.destFree (c : Core) (cont : Nat) (h : ContHdr) : Bool :=
  let d := c.download (contDest h.kind)
  let busy : Bool := (d.st == .receiving || d.st == .rebuilding || d.st == .verifying) && d.cont != cont
  !busy && !(c.up.boot.trial && decide (h.kind ≤ 5)) && (h.kind != 6 || c.safeTarget.isSome)

/-- Tests 7 to 9 of R782, for a container addressed to this device; 0 none fails. -/
def Core.localTest (c : Core) (cont : Nat) (h : ContHdr) : Nat :=
  let base : Option Nat := if h.kind = 2 then c.up.runFw.map (·.hash) else c.up.runCfg.map (·.hash)
  if (h.kind = 2 ∨ h.kind = 4 ∨ h.kind = 5) ∧ base ≠ some h.base then 7
  else if h.kind ≤ 2 ∧ h.secVersion < c.up.boot.minSec then 8
  else if !c.destFree cont h then 9 else 0

/-- Bytes of an area that takes n MiB of a 2,048 Mbit NVM0, at the capacity fitted (R775). -/
def Core.flashPart (c : Core) (n : Nat) : Nat := n * c.mem.nvm0 * 512

/-- Whether LENGTH and RESULT_LEN fit the limits of a kind: slot, staging, or a fixed length (R775, R780, R782 test 3). -/
def Core.sizeOk (c : Core) (h : ContHdr) : Bool :=
  let fw := c.flashPart 24 - 8192
  let cfg := c.flashPart 64 - 8192
  let stage := c.flashPart 32
  let (body, result) : Nat × Nat := match h.kind with
    | 1 => (fw, fw) | 2 => (stage, fw) | 3 => (cfg, cfg) | 4 => (stage, cfg) | 5 => (stage, cfg)
    | 6 => (248 * 1024, 248 * 1024) | 7 => (4096, 4096) | _ => (128, 128)
  decide (h.length ≤ body) && decide (h.resultLen ≤ result)

/-- The first test of R782 that chunk 0 fails on this device; 0 none. -/
def Core.refuseTest (c : Core) (cont : Nat) (h : ContHdr) : Nat :=
  let t := c.headTest h
  if t = 1 ∨ t = 2 then t
  else if !c.sizeOk h then 3
  else if t ≠ 0 then t
  else if c.addressed h then c.localTest cont h else 0

/-! ## Reception (R782, R789 to R792) -/

/-- A refusal: UP_STATUS.REFUSE and 0x0141. -/
def Core.refuse (code : Nat) (c : Core) : Core :=
  (c.onUp fun u => { u with refuse := code, refusals := sat32 (u.refusals + 1) }).raise 0x0141 upPath

/-- UP_STATUS describes a container. -/
def Core.nameCont (cont : Nat) (c : Core) : Core :=
  if c.up.named = cont then c else c.onUp fun u => { u with named := cont, namedKind := 0, refuse := 0 }

/-- The slot's hash is zeroed before the first byte is written (R789); a set's slot has no settings copy then. -/
def Core.zeroSlot (kind : Nat) (c : Core) : Core :=
  if kind = 1 ∨ kind = 2 then
    let s := c.fwTarget
    (c.onUp fun u => if s then { u with fwB := none } else { u with fwA := none }).onBoot fun b => b.withSet s none
  else if 3 ≤ kind ∧ kind ≤ 5 then
    let s := c.cfgTarget
    (c.onUp fun u => if s then { u with cfgB := none } else { u with cfgA := none }).onBoot id
  else if kind = 6 then
    let s := c.safeTarget.getD false
    (c.onUp fun u => if s then { u with safeB := none } else { u with safeA := none }).onBoot id
  else c

/-- A download whose chunks are all held goes on: a delta or package is rebuilt, anything else verified. -/
def Download.step (d : Download) : Download :=
  if d.st = .receiving ∧ (List.range d.hdr.chunks).all (fun k => d.got.contains k) then
    { d with st := if d.hdr.kind = 2 ∨ d.hdr.kind = 4 ∨ d.hdr.kind = 5 then .rebuilding else .verifying }
  else d

/-- The reception of a container that passed its tests begins. -/
def Core.beginCont (x : ContChunk) (c : Core) : Core :=
  let d := c.download (contDest x.hdr.kind)
  if d.cont = x.cont ∧ d.st ≠ .none then c
  else ((c.zeroSlot x.hdr.kind).onDownload (contDest x.hdr.kind) fun _ =>
    ({ st := .receiving, cont := x.cont, hdr := x.hdr, got := [0] } : Download).step).onUp fun u => { u with namedKind := x.hdr.kind, refuse := 0 }

/-- The destination that receives a container. -/
def Core.destOf (c : Core) (cont : Nat) : Option Nat :=
  (c.up.down.find? fun d => d.2.cont == cont && d.2.st != .none).map Prod.fst

/-- A chunk goes on toward its target (R678, R792). -/
def Core.passOn (x : ContChunk) (target chunks : Nat) (c : Core) : Core :=
  if c.ln.store.contains (x.cont, x.chunk) ∨ c.md.mode = .recovery then c else
  let c1 := c.onLn fun l => { l with store := (x.cont, x.chunk) :: l.store }
  forL (c1.relayUnits target none) (fun u d => d.relaySend u { target := target, chunks := chunks, d := x }) c1

/-- A complete chunk arrives; answers the status of CONT_DATA. `host` chunks that are not for this device alone are relayed. -/
def Core.contChunk (host : Bool) (x : ContChunk) (c0 : Core) : Core × Nat :=
  let c := c0.nameCont x.cont
  if x.chunk = 0 then
    let h := x.hdr
    let t := c.refuseTest x.cont h
    let on : Bool := host && c.headTest h == 0 && h.target != c.devNum
    let c1 := if on then ((c.onLn fun l => { l with given := l.given.filter fun e => e.1 != x.cont }).passOn x h.target h.chunks).onLn fun l =>
        { l with heads := (x.cont, h.target, h.chunks, h.length) :: l.heads.filter (fun e => e.1 != x.cont) } else c
    let c2 := c1.onUp fun u => { u with namedKind := h.kind }
    if t ≠ 0 then (c2.refuse t, if t = 9 then 0x0F else 0x08)
    else if c2.addressed h then (c2.beginCont x, 0)
    else (c2.onUp fun u => { u with refuse := 0 }, 0)
  else
    let head := if host then c.ln.heads.find? fun e => e.1 == x.cont else none
    let mine := c.destOf x.cont
    if head.isNone ∧ mine.isNone then (c, 0x08)
    else if !x.hashOk then (c.onUp fun u => { u with refuse := 0 }, 0x08)
    else
      let c1 := match head with | some (_, target, chunks, _) => c.passOn x target chunks | none => c
      (match mine with
        | some d => c1.onDownload d fun y =>
            if y.st = .receiving ∧ x.chunk < y.hdr.chunks ∧ !y.got.contains x.chunk then { y with got := y.got ++ [x.chunk] }.step else y
        | none => c1, 0)

/-- LENGTH of a container whose chunk 0 has passed here, kept or relayed. -/
def Core.contLen (cont : Nat) (c : Core) : Option Nat :=
  match c.destOf cont with
  | some d => some (c.download d).hdr.length
  | none => (c.ln.heads.find? fun e => e.1 == cont).map fun e => e.2.2.2

/-- Bytes of a chunk (R781); of a body chunk only where chunk 0 has passed. -/
def Core.chunkLen (x : ContChunk) (c : Core) : Option Nat :=
  if x.chunk = 0 then some (5429 + 32 * (x.hdr.chunks - 1))
  else (c.contLen x.cont).map fun n => min 65536 (n - 65536 * (x.chunk - 1))

/-- Up to where bytes are present without a hole, from a position on. -/
def present (l : List (Nat × Nat)) : Nat → Nat → Nat
  | 0, pos => pos
  | f + 1, pos => match l.find? fun r => decide (r.1 ≤ pos) && decide (pos < r.1 + r.2) with
    | some r => present l f (r.1 + r.2)
    | none => pos

/-- Bytes of a chunk from the host, in any order of OFFSET: it is checked once they are all present (R790). Bytes outside their chunk
are BAD_VALUE (notes/assumptions/133.md). -/
def Core.contData (x : ContChunk) (c0 : Core) : Core × Nat :=
  let c := c0.nameCont x.cont
  match c.chunkLen x with
  | none => (c, 0x08)
  | some n =>
    if n < x.offset + x.len then (c.onUp fun u => { u with refuse := 0 }, 0x08) else
    let mine (e : Nat × Nat × Nat × Nat) : Bool := e.1 == x.cont && e.2.1 == x.chunk
    let l := (x.cont, x.chunk, x.offset, x.len) :: c.up.parts
    let here := (l.filter mine).map fun e => e.2.2
    if present here here.length 0 < n then (c.onUp fun u => { u with parts := l }, 0)
    else (c.onUp fun u => { u with parts := u.parts.filter fun e => !mine e }).contChunk true x

/-- Bytes of incomplete chunks of a container are dropped. -/
def Core.dropParts (cont : Nat) (c : Core) : Core := c.onUp fun u => { u with parts := u.parts.filter fun e => e.1 != cont }

/-- STATE and the chunks held and in all, of a container. -/
def Core.contState (c : Core) (cont : Nat) : Nat × Nat × Nat :=
  match c.destOf cont with
  | some d =>
    let x := c.download d
    ((match x.st with | .none => 0 | .receiving => 1 | .rebuilding => 2 | .verifying => 3 | .held => 4), x.got.length, x.hdr.chunks)
  | none => (0, 0, 0)

/-- The response body of CONT_DATA and CONT_STATUS. -/
def Core.contBody (c : Core) (cont : Nat) : List Nat :=
  let (st, got, all) := c.contState cont
  [st, if c.up.named = cont then c.up.refuse else 0, got, all]

/-- CONT_CANCEL: a partial download is discarded (R791). -/
def Core.contCancel (cont : Nat) (c : Core) : Core :=
  let c1 := (c.nameCont cont).dropParts cont
  match c1.destOf cont with
  | some d => if (c1.download d).st = .held then c1 else c1.onDownload d fun _ => {}
  | none => c1

/-- ABORT of unit 1: every partial download is discarded (R215). -/
def Core.dropDownloads (c : Core) : Core := c.onUp fun u => { u with parts := [], down := u.down.filter fun d => d.2.st == .held }

/-! ## Verification (R783 to R785, R797, R800, R803, R804) -/

/-- The download ends without a result. -/
def Core.failCont (d code ev : Nat) (c : Core) : Core :=
  ((c.onDownload d fun _ => {}).onUp fun u => { u with refuse := code, refusals := sat32 (u.refusals + 1) }).raise ev upPath

/-- A verified result: HELD, 0x0101, and 0x0102 when it was rebuilt. -/
def Core.heldCont (d : Nat) (c : Core) : Core :=
  let k := (c.download d).hdr.kind
  ((c.onDownload d fun y => { y with st := .held }).raise 0x0101 upPath).raiseIf (k == 2 || k == 4 || k == 5) 0x0102 upPath

/-- The nonce is renewed (R804). -/
def Core.renewNonce (c : Core) : Core :=
  let (n, c1) := c.freeNat
  c1.onUp fun u => { u with dbgNonce := n }

/-- A debug token (R804). -/
def Core.token (kennus : Bool) (nonce level life : Nat) (c : Core) : Core :=
  let ok : Bool := nonce == c.up.dbgNonce && inRange 1 (min 2 (c.fld A.UP_RELAY_CTL 9 8)) level && inRange 1 480 life &&
    (level != 2 || (kennus && (c.md.mode == .standby || c.md.mode == .minimal)))
  let c1 := if ok then (c.onUp fun u => { u with dbgLevel := level, dbgTicks := life * 60 * 64000 }).raise 0x010B idPath
    else c.raise 0x0144 idPath
  c1.renewNonce

/-- The debug port closes. -/
def Core.dbgClose (c : Core) : Core :=
  if c.up.dbgLevel = 0 then c else (c.onUp fun u => { u with dbgLevel := 0, dbgTicks := 0 }).raise 0x010C idPath

/-- CONTAINER_VERIFY: answers the core, and whether Recovery starts the set it received (R800). -/
def Core.contVerify (cont : Nat) (v : VerifyIn) (c : Core) : Core × Bool :=
  match c.destOf cont with
  | none => (c, false)
  | some d =>
    let x := c.download d
    let h := x.hdr
    if x.st ≠ .rebuilding ∧ x.st ≠ .verifying then (c, false)
    else if !v.flashOk then ((c.raise 0x0143 upPath).failCont d 10 0x0142, false)
    else if !resultGood h v then (c.failCont d 10 0x0142, false)
    else match v.payload with
    | .firmware f =>
      if d ≠ 0 then (c.failCont d 10 0x0142, false)
      else if !firmwareOk f ∨ f.format ≠ 1 ∨ f.secVersion ≠ h.secVersion then (c.failCont d 11 0x0141, false)
      else
        let s := c.fwTarget
        let g : Firmware := { f with hash := h.result }
        let c1 := (c.onUp fun u => if s then { u with fwB := some g } else { u with fwA := some g }).onBoot id
        if c.md.mode = .recovery then
          ((c1.heldCont d).onBoot fun b => { b with
            fwActive := s, fwPrev := none, trial := true, trialStarts := 0 }, true)
        else (c1.heldCont d, false)
    | .image i =>
      if d ≠ 1 then (c.failCont d 10 0x0142, false)
      else
        let s := c.cfgTarget
        let j : Image := { (match resultBytes h v with | some l => Image.ofBytes l i | none => i) with hash := h.result }
        let c1 := ((c.onUp fun u => if s then { u with cfgB := some j } else { u with cfgA := some j }).onBoot fun b =>
          { b with owners := if h.kind = 3 ∧ b.owners.isEmpty then [h.signerFp] else b.owners }).heldCont d
        if h.kind = 5 then ((c1.olcDeliver j).packageTx h.base j, false) else (c1, false)
    | .safety b =>
      if d ≠ 2 then (c.failCont d 10 0x0142, false)
      else
        let s := c.safeTarget.getD false
        let g : SafetyBlock := { b with hash := h.result }
        (((c.onUp fun u => if s then { u with safeB := some g } else { u with safeA := some g }).onBoot id).heldCont d, false)
    | .token k n l t =>
      if d ≠ 3 then (c.failCont d 10 0x0142, false)
      else (((c.raise 0x0101 upPath).token k n l t).onDownload d fun _ => {}, false)
    | .owners l =>
      if d ≠ 4 then (c.failCont d 10 0x0142, false)
      else ((((c.raise 0x0101 upPath).onBoot fun b => { b with owners := l.take 4 }).raise 0x010D idPath).onDownload d fun _ => {}, false)

/-- CONTAINER_VERIFY. -/
def Dev.contVerify (cont : Nat) (v : VerifyIn) (env : StartEnv) (d : Dev) : Dev :=
  let (c, go) := d.core.contVerify cont v
  let d1 : Dev := { d with core := c }
  if go then d1.restart 6 none env else d1

/-- RELAY: what the neighbour's chunk brings, kept when this device is addressed. -/
def Core.relayIn (u : Nat) (m : RelayMsg) (c : Core) : Core :=
  let (c1, keep) := c.relayRx u m
  if keep ∧ !(c1.md.mode = .recovery ∧ m.d.chunk = 0 ∧ m.d.hdr.kind ≠ 1) then (c1.contChunk false m.d).1 else c1

/-! ## Activation and confirmation (R786, R793, R796) -/

/-- CONT_ID of a result hash. -/
def contId (hash : Nat) : Nat := hash / 2 ^ 192

/-- The slot of a held set or image outside the running slot. -/
def Core.heldFw (id : Nat) (c : Core) : Option Bool :=
  let x := c.download 0
  let s := !c.up.runFwSlot
  if x.st = .held ∧ x.cont = id ∧ ((c.up.fwOf s).map (·.hash)) = some x.hdr.result then some s else none
def Core.heldCfg (id : Nat) (c : Core) : Option Bool :=
  let x := c.download 1
  let s := c.cfgTarget
  if x.st = .held ∧ x.cont = id ∧ x.hdr.kind ≠ 5 ∧ ((c.up.cfgOf s).map (·.hash)) = some x.hdr.result then some s else none

/-- The slots in force before a pending activation. -/
def BootRec.baseFw (b : BootRec) (pend : Bool) : Bool := if pend then b.fwPrev.getD b.fwActive else b.fwActive
def BootRec.baseCfg (b : BootRec) (pend : Bool) : Option Bool := if pend ∧ b.cfgPrev.isSome then b.cfgPrev else b.cfgActive

/-- REFUSE of an ACTIVATE; 0 accepted. -/
def Core.actTest (a : ActivateReq) (c : Core) : Nat :=
  let fw := c.heldFw a.fw
  let cfg := c.heldCfg a.cfg
  let b := c.up.boot
  let f : Firmware := ((if a.fw ≠ 0 then fw.bind c.up.fwOf else c.up.fwOf b.fwActive)).getD {}
  let i := (if a.cfg ≠ 0 then cfg else b.cfgActive).bind c.up.cfgOf
  let tuple := f.versions.take 4 ++ [c.up.islandP, c.up.islandW]
  if (a.fw ≠ 0 ∧ fw.isNone) ∨ (a.cfg ≠ 0 ∧ cfg.isNone) ∨ (a.fw = 0 ∧ a.cfg = 0) then 13
  else if a.fw ≠ 0 ∧ !f.combos.contains tuple then 12
  else match i with
  | none => 0
  | some i =>
    if !f.formats.contains i.format then 15
    else if i.safetyRef ≠ 0 ∧ !(c.up.safeA.toList ++ c.up.safeB.toList).any (fun x => x.hash == i.safetyRef) then 14
    else 0

/-- ACTIVATE; answers the status, and whether a restart follows. -/
def Core.activate (a : ActivateReq) (c : Core) : Core × Nat × Bool :=
  let b := c.up.boot
  let pend := c.up.pendingAct
  if c.md.mode ≠ .minimal ∧ c.md.mode ≠ .standby ∧ !c.running then (c, 0x09, false)
  else if a.restart ≠ 0 ∧ a.restart ≠ 0x10 ∧ a.restart ≠ 0x11 then (c, 0x08, false)
  else if a.fw = 0 ∧ a.cfg = 0 ∧ pend then
    ((c.onBoot fun b => { b with fwActive := b.baseFw true, cfgActive := b.baseCfg true, trial := false }).onUp fun u =>
      { u with pendingAct := false }, 0, a.restart != 0)
  else
    let t := c.actTest a
    if t ≠ 0 then (c.onUp fun u => { u with refuse := t }, 0x08, false)
    else
      let fw0 := b.baseFw pend
      let cfg0 := b.baseCfg pend
      let fw1 := if a.fw ≠ 0 then (c.heldFw a.fw).getD fw0 else b.fwActive
      let cfg1 := if a.cfg ≠ 0 then c.heldCfg a.cfg else b.cfgActive
      let c1 := c.onBoot fun b => { b with
        fwActive := fw1, fwPrev := if fw1 = fw0 then none else some fw0
        cfgActive := cfg1, cfgPrev := if cfg1 = cfg0 then none else cfg0
        trial := true, trialStarts := 0, startFails := 0 }
      ((c1.onUp fun u => { u with pendingAct := a.restart == 0, refuse := 0 }).raise 0x0103 btPath, 0, a.restart != 0)

/-- CONFIRM; answers the status (R787, R796). -/
def Core.confirm (c : Core) : Core × Nat :=
  if c.md.mode ≠ .standby ∧ !c.running then (c, 0x09)
  else if !c.up.boot.trial then (c, 0x08)
  else
    let sec := ((c.up.fwOf c.up.boot.fwActive).map (·.secVersion)).getD 0
    ((c.onBoot fun b => { b with trial := false, minSec := max b.minSec sec }).raise 0x0105 btPath, 0)

/-- The certificate by words (R802). -/
def certWord (i : Nat) : Word :=
  if i = 0 then 0x00010192 else if i = 1 then 0xB0000000
  else if i = 2 then wd (Config.serial / 2 ^ 32) else if i = 3 then wd Config.serial
  else Config.certWord i

/-- DEBUG_LIFETIME_END: the ticks of LIFETIME_MIN have been issued (R804). -/
def Core.dbgEnd (c : Core) : Core :=
  if c.up.dbgLevel = 0 then c
  else if c.up.dbgTicks = 0 then c.dbgClose
  else (c.advanceTo (c.nextTick + (c.up.dbgTicks - 1) * tickLen)).dbgClose

def execContainerVerify (cont : Nat) (v : VerifyIn) (env : StartEnv) (s : State) : Host.Outcome State Fault Refusal :=
  devCmd (Dev.contVerify cont v env) s
def execRelay (unit : Nat) (m : RelayMsg) (s : State) : Host.Outcome State Fault Refusal := coreCmd (Core.relayIn unit m) s
def execDebugLifetimeEnd (s : State) : Host.Outcome State Fault Refusal := coreCmd Core.dbgEnd s

end Sys2Proof.Machine
end

