-- ==== Sys2Proof/Machine/Power.lean ====
section
/-!
DEFINITION. Machine/Power.lean: keep-alive inputs and feeds, the pace governor, temperature, the Plumb PLL and DRAM errors
(19_pins_power_package, R719, R720, R106).
-/
namespace Sys2Proof.Machine

/-! ## Keep-alive inputs and feeds (R719, R720) -/

/-- An event of the management core, which is not there while the core is held. -/
def Core.tell (code p : Nat) (c : Core) : Core := c.raiseIf (!c.md.held) code p

/-- One keep-alive input goes out or returns (R719). -/
def Core.vkaChange (b ok : Bool) (c : Core) : Core :=
  let was := if b then c.pw.vkaB else c.pw.vkaA
  if was = ok then c else
  let c1 := c.onPw fun p => if b then { p with vkaB := ok } else { p with vkaA := ok }
  (c1.produceHw (if b then 36 else 35) (if ok then 1 else 0) c.now).tell (if ok then 0x0F02 else 0x0F01) (path 15 0 (if b then 1 else 0))

/-- KEEP_ALIVE_INPUT_CHANGE: the loss of the second input is that of the keep-alive supply (R62, R835); while it is out, the return
of an input is KEEP_ALIVE_RETURN's. -/
def Dev.vkaChange (b ok : Bool) (d : Dev) : Dev :=
  if d.core.pw.kaLost then d else
  let e := d.onCore (Core.vkaChange b ok)
  if e.core.pw.vkaA ∨ e.core.pw.vkaB then e else e.keepAliveLoss

/-- Whether the active unit yields for a lost feed. -/
def Core.feedYields (c : Core) : Bool :=
  c.pairOn && c.mr.role == .active && c.flag A.MR_CFG 2 && c.mr.partnerKnown && c.mr.missRun == 0 && c.mr.beat.inSync &&
    c.mr.beat.feedA && c.mr.beat.feedB

/-- FEED_CHANGE. -/
def Core.feedChange (b ok : Bool) (c : Core) : Core :=
  let was := if b then c.pw.feedB else c.pw.feedA
  if was = ok then c else
  let c1 := c.onPw fun p => if b then { p with feedB := ok } else { p with feedA := ok }
  let c2 := (c1.produceHw (if b then 34 else 33) (if ok then 1 else 0) c.now).tell (if ok then 0x0F04 else 0x0F03) (path 15 0 (if b then 3 else 2))
  if !ok ∧ c2.feedYields then c2.yieldStart else c2

/-! ## The pace governor (R236, R817, R818) -/

/-- Whether a sample is at or above a stated trip point, which may lie up to 8 mV lower. -/
def atTrip (s mv : Nat) : Bool :=
  if s ≤ mv then true else if mv + 8 < s then false else decide (s ≤ mv + Config.trip s % 9)

/-- The band that a sample leads to from the present one. -/
def nextBand (band mv : Nat) : Nat :=
  let raw := if atTrip 700 mv then 0 else if atTrip 680 mv then 1 else if atTrip 660 mv then 2 else 3
  if band ≤ raw then raw
  else if 705 < mv then 0
  else if 680 ≤ mv then min band 1
  else if 665 < mv then min band 2
  else band

/-- Throttle limit of a band and of a request, in tenths of a per cent. -/
def bandLimit (band : Nat) : Nat := match band with | 0 => 0 | 1 => 250 | 2 => 375 | _ => 500
def Core.reqLimit (c : Core) : Nat := if c.pw.paceReq ∧ c.flag A.PW_PACE_CTL 8 then 125 * (c.fld A.PW_PACE_CTL 1 0 + 1) else 0

/-- The throttle after a sample: one step of 12.5 per cent toward the limit, 50 per cent at once, and at most 25 per cent or the
request's level at 0.68 V and above. -/
def nextThrottle (now band req mv : Nat) : Nat :=
  let lim := max (bandLimit band) req
  let moved := if bandLimit band = 500 then 500 else if now < lim then min lim (now + 125) else max lim (now - 125)
  if 680 ≤ mv then min moved (max 250 req) else moved

/-- The episode of 0x0602: it ends after 1 ms of elapsed time without such an interval (R236, R833). -/
def Core.cornerCheck (c : Core) : Core :=
  let mean := (c.pw.last5.foldl (· + ·) 0) / 5
  let c1 := c.onFab fun f => { f with max1us := max f.max1us mean }
  if c.pw.last5.foldl (· + ·) 0 ≤ 1250 then c1 else
  let new : Bool := match c.fab.cornerLast with | some t => decide (t + ms ≤ c.plumb.elapsed) | none => true
  ((c1.setFld A.FB_PACE 31 31 1).onFab fun f => { f with cornerLast := some c.plumb.elapsed }).raiseIf new 0x0602 (path 6 allOf allOf)

/-- The reset of R817: the core is held until VCORE is restored. -/
def Core.uvReset (c : Core) : Core :=
  (c.onPw fun p => { p with uvResets := sat32 (p.uvResets + 1) }).holdCore 5 |>.onPw fun p => { p with uv := true }

/-- The episodes of 0x0F06 and 0x0F07 that have ended: the throttle has been zero for 1 ms of elapsed time (R818, R833). -/
def Core.paceEpisodes (c : Core) : Core :=
  match c.pw.zeroFrom with
  | some z => if z + ms ≤ c.plumb.elapsed then c.onPw fun p => { p with ep06 := false, ep07 := false } else c
  | none => c

/-- PACE_SAMPLE. -/
def Core.paceSample (mv : Nat) (c0 : Core) : Core :=
  let c := c0.paceEpisodes
  let p := c.pw
  let band := nextBand p.band mv
  let low := !atTrip 620 mv
  let thr := nextThrottle c.fab.throttle (if low then 3 else band) c.reqLimit mv
  let zero := if thr = 0 then some (p.zeroFrom.getD c.plumb.elapsed) else none
  let begins := !atTrip 700 mv && !p.ep07
  let c1 := (c.onPw fun p => { p with
    vcore := mv, band := band, below := if low then min 2 (p.below + 1) else 0
    last5 := (thr :: p.last5).take 5, zeroFrom := if begins then none else zero, ep07 := p.ep07 || begins }).onFab fun f => { f with throttle := thr }
  if c.md.held then c1
  else if low ∧ p.below = 1 then c1.uvReset
  else (c1.raiseIf begins 0x0F07 (path 15 1 0)).cornerCheck

/-- PACE_REQ_CHANGE: the limit acts from the next sample. -/
def Core.paceReq (level : Bool) (c0 : Core) : Core :=
  let c := c0.paceEpisodes
  let begins := level && !c.pw.paceReq && !c.pw.ep06
  (c.onPw fun p => { p with paceReq := level, ep06 := p.ep06 || begins, zeroFrom := if begins then none else p.zeroFrom }).raiseIf
    (begins && !c.md.held) 0x0F06 (path 15 1 0)

/-! ## Temperature (R819) -/

/-- The junction, and the lowest-numbered sensor that reads it. -/
def junction (l : List Int) : Int × Nat :=
  (number 0 l).foldl (fun (b : Int × Nat) e => if b.1 < e.2 then (e.2, e.1) else b) (l.headD 0, 0)

/-- TEMP_SAMPLE: eight sensors in 1/16 °C. -/
def Dev.tempSample (temps : List Int) (d : Dev) : Dev :=
  let l := (List.range 8).map fun n => temps.getD n (d.core.pw.temps.getD n 0)
  let (t, n) := junction l
  let at_ := path 15 2 n
  let p := d.core.pw
  let warn : Int := 16 * (d.core.regN A.PW_TEMP_WARN : Nat)
  let e05 : Option Int := match p.ep05 with | some w => if t ≤ w - 48 then none else some w | none => none
  let e41 := p.ep41 && decide (1632 < t)
  let e81 := p.ep81 && decide (1792 < t)
  let b05 : Bool := e05.isNone && decide (warn ≤ t)
  let b41 : Bool := !e41 && decide (1680 < t)
  let b81 : Bool := !e81 && decide (1840 ≤ t)
  let c1 := d.core.onPw fun p => { p with
    temps := l, tempMax := max p.tempMax t, ep05 := if b05 then some warn else e05, ep41 := e41 || b41, ep81 := e81 || b81 }
  let c2 := forL (number 0 l) (fun e c => if p.temps.getD e.1 0 = e.2 then c else c.produceHw (64 + e.1) (BitVec.ofInt 64 e.2) c.now) c1
  let c3 := if c2.md.held then c2 else
    let k := ((c2.raiseIf b05 0x0F05 at_).raiseIf b41 0x0F41 at_).raiseIf b81 0x0F81 at_
    if b81 ∧ k.running then k.onMd fun m => { m with faults := m.faults ++ [.thermal] } else k
  let d1 : Dev := { d with core := c3 }
  if 2000 ≤ t ∧ !p.hold then
    (d1.onCore fun c => (c.holdCore 8).onPw fun p => { p with hold := true }).resetP true
  else d1

/-! ## The PLL and DRAM (R106, R829) -/

/-- PLL_LOCK_LOSS. -/
def Core.pllLoss (c : Core) : Core :=
  let c1 := (c.onPlumb fun p => { p with pllLocked := false }).tell 0x0281 (path 2 0 allOf)
  if c1.running then c1.onMd fun m => { m with faults := m.faults ++ [.pll] } else c1

/-- DRAM_ECC_ERROR. -/
def Core.dramError (addr : Nat) (uncorr : Bool) (c : Core) : Core :=
  if c.md.held then c
  else if uncorr then
    (c.onMem fun m => { m with eccUncorr := sat32 (m.eccUncorr + 1), eccAddr := addr % 2 ^ 64 }).raise 0x0E41 (path 14 6 0)
  else (c.onMem fun m => { m with eccCorr := sat32 (m.eccCorr + 1) }).raiseEvery second 0x0E01 (path 14 6 0)

def execKeepAliveInputChange (input ok : Bool) (s : State) : Host.Outcome State Fault Refusal := devCmd (Dev.vkaChange input ok) s
def execFeedChange (feed present : Bool) (s : State) : Host.Outcome State Fault Refusal := coreCmd (Core.feedChange feed present) s
def execPaceSample (mv : Nat) (s : State) : Host.Outcome State Fault Refusal := coreCmd (Core.paceSample mv) s
def execPaceReqChange (level : Bool) (s : State) : Host.Outcome State Fault Refusal := coreCmd (Core.paceReq level) s
def execTempSample (temps : List Int) (s : State) : Host.Outcome State Fault Refusal := devCmd (Dev.tempSample temps) s
def execPllLockLoss (s : State) : Host.Outcome State Fault Refusal := coreCmd Core.pllLoss s
def execDramEccError (addr : Nat) (uncorr : Bool) (s : State) : Host.Outcome State Fault Refusal := coreCmd (Core.dramError addr uncorr) s

end Sys2Proof.Machine
end

