-- ==== Sys2Proof/Machine/Datagram.lean ====
section
/-!
DEFINITION. Machine/Datagram.lean: datagrams on SVC (R161 to R168, R176 to R182, R185): what is accepted, how messages are assembled and
cut into fragments, headers and sealed payloads of what is sent.
-/
namespace Sys2Proof.Machine

/-! ## The network functions of SVC (R162, R163, R225) -/

/-- Whether IPv4 and IPv6 are enabled; without a running image both are (notes/assumptions/122.md). -/
def Core.v4On (c : Core) : Bool := c.up.runCfg.isNone || c.flag A.HA_NET_CTL 31
def Core.v6On (c : Core) : Bool := c.up.runCfg.isNone || c.flag A.HA_NET_CTL 30

/-- The link-local address: the MAC address as a modified EUI-64 (R162). -/
def linkLocal : Nat :=
  let hi := Config.mac / 2 ^ 24 % 2 ^ 24
  0xFE80 * 2 ^ 112 + (hi ^^^ 0x020000) * 2 ^ 40 + 0xFFFE * 2 ^ 24 + Config.mac % 2 ^ 24

/-- The static global IPv6 address (R224). -/
def Core.v6Addr (c : Core) : Nat := (List.range 4).foldl (fun n i => n * 2 ^ 32 + c.regN (A.HA_IPV6_ADDR + 4 * i)) 0

/-- Whether a frame names this device. -/
def Core.ours (c : Core) (n : NetIn) : Bool :=
  match n.dst with
  | .all => true
  | .v4 a => c.v4On && a == c.regN A.HA_IPV4_ADDR
  | .v6 a => c.v6On && (a == linkLocal || (a != 0 && a == c.v6Addr))

/-- Untagged, or the one VLAN of the image with priority 0. -/
def Core.vlanOk (c : Core) (n : NetIn) : Bool :=
  if c.flag A.HA_NET_CTL 29 then n.vlan == some (c.fld A.HA_NET_CTL 27 16, 0) else n.vlan.isNone

/-- The management port: 19278 unless the image names another. -/
def Core.mgmtPort (c : Core) : Nat := if c.fld A.HA_NET_CTL 15 0 = 0 then 19278 else c.fld A.HA_NET_CTL 15 0

/-- A datagram dropped under R162 or R168. -/
def Core.rxDrop (c : Core) : Core := c.bump A.HA_RX_DROP

/-- A frame on SVC: address resolution and echo requests for this device are answered, other traffic is dropped; true where it is a
datagram for the management port (R162). What has crossed the chain was taken by its gateway. -/
def Core.netIn (d : Dgram) (c : Core) : Core × Bool :=
  let n := d.net
  if d.viaChain then (c, true)
  else if !c.vlanOk n ∨ n.fragment then (c.rxDrop, false)
  else match n.use with
    | .mgmt => if c.ours n ∧ n.port = c.mgmtPort then (c, true) else (c.rxDrop, false)
    | .arp => (if c.ours n then c.emit (.net 1 d.src) else c, false)
    | .ndp => (if c.ours n then c.emit (.net 2 d.src) else c, false)
    | .echo => (if c.ours n then c.emit (.net 3 d.src) else c, false)
    | .other => (c.rxDrop, false)

/-- The header tests of R168 for a datagram of a type, with the bounds of R165. VERSION of a SESSION_INIT is judged by the handshake,
whose reason 7 names it (R179, notes/assumptions/85.md). A SEQ below FRAG_INDEX names no fragment 0 and is dropped with them: the
model's choice, notes/assumptions/85.md. -/
def headerOk (type : Nat) (d : Dgram) : Bool :=
  d.magic == 0x4B54 && (d.version == 1 || type == 0x10) && d.type == type && d.length == d.udpLen && decide (d.length ≤ 1200) &&
    decide (d.frag < d.frags) && decide (d.frags ≤ 14) && decide (d.frag ≤ d.seq)

/-- A datagram of a type arrives: true where it is accepted. -/
def Core.dgramIn (type : Nat) (d : Dgram) (c : Core) : Core × Bool :=
  match c.netIn d with
  | (c1, false) => (c1, false)
  | (c1, true) => if headerOk type d then (c1, true) else (c1.rxDrop, false)

/-! ## Reassembly (R167) -/

/-- A fragment enters the message of its key that starts at SEQ − FRAG_INDEX; the payload bytes of a message that is complete. `len` is
what the fragment carries of the message. -/
def Core.assemble (key : Nat) (d : Dgram) (len : Nat) (c : Core) : Core × Option Nat :=
  if d.frags = 1 then (c, some len) else
  let base := d.seq - d.frag
  let old := (c.host.reasm.find? fun r => r.key == key && r.base == base).getD
    { key := key, base := base, count := d.frags, have_ := [], first := c.plumb.elapsed }
  let rest := c.host.reasm.filter fun r => !(r.key == key && r.base == base)
  let got := if old.have_.any fun e => e.1 == d.frag then old.have_ else (d.frag, len) :: old.have_
  if old.count ≤ got.length then (c.onHost fun h => { h with reasm := rest }, some ((got.map Prod.snd).foldl (· + ·) 0))
  else (c.onHost fun h => { h with reasm := rest ++ [{ old with have_ := got }] }, none)

/-- The key of a handshake message under reassembly. -/
def hsKey (d : Dgram) : Nat := 16 + 2 * (d.src * 2 ^ 32 + d.session) + (if d.type = 0x10 then 0 else 1)

/-! ## Datagrams sent (R165, R176, R181, R182) -/

/-- Pieces of a datagram in MGMT frames (R674). -/
def dgPieces (d : Dgram) : Nat := max 1 (cdiv (24 + d.length) 256)

/-- SOURCE: the number on the chain; 0 off it (notes/assumptions/122.md). -/
def Core.sourceNum (c : Core) : Nat := if c.image.chain = [] then 0 else c.devNum

/-- The fields of a header as the wire carries them: MAGIC, VERSION, TYPE, TARGET and so on; TARGET is 0xFFFF toward a host. -/
def DgHdr.words (h : DgHdr) : List Nat := [0x4B54, 1, h.type, 0xFFFF, h.source, h.session, h.seq, h.frag, h.frags, h.length]

/-- The headers of a message of `bytes` payload bytes in fragments of `per`, each with `extra` bytes beside (R167, R181). -/
def Core.headers (c : Core) (dest type session seq bytes per extra : Nat) : List DgHdr :=
  let n := max 1 (cdiv bytes per)
  (List.range n).map fun i =>
    { dest := dest, type := type, source := c.sourceNum, session := session, seq := seq + i, frag := i, frags := n,
      length := (if i + 1 < n then per else bytes - i * per) + extra }

/-- A message outside sessions, of `bytes` bytes: its headers, then its content with the host address first. -/
def Core.sendPlain (dest type session bytes : Nat) (ws : List Nat) (c : Core) : Core :=
  { c with out := c.out ++ (c.headers dest type session 0 bytes 1200 0).map Out.dgram ++ [.datagram type (dest :: ws)] }

/-- SESSION_REJECT and RELAY_ERROR bodies are 4 bytes, a BEACON 52, a SESSION_ACCEPT 6,381 (R169, R176, R221). -/
def plainBytes (type : Nat) : Nat := match type with | 0x02 => 52 | 0x11 => 6381 | _ => 4

/-- The body bytes of a response (R191 to R199, R207, R209, R211, R214, R790). -/
def bodyBytes (op : Nat) (body : List Nat) : Nat :=
  if body = [] then 0 else match op with
  | 0x02 => 4 + cdiv (body.length - 1) 4 * 4
  | 0x04 | 0x06 | 0x41 => 4
  | 0x07 => 40
  | 0x08 => 3493
  | 0x20 | 0x21 => 8
  | _ => 4 * body.length

/-- Datagrams that a message of an opcode takes: 1,184 bytes of plaintext each, after 12 bytes of inner header (R167, R181, R185). -/
def respFrags (op : Nat) (body : List Nat) : Nat := max 1 (cdiv (12 + bodyBytes op body) 1184)

/-- The SECURE datagrams of a message with `bytes` plaintext bytes: the nonce is the IV prefix and SEQ, the additional data the header
(R181). -/
def Core.secureHdrs (c : Core) (sess bytes : Nat) (plain : List Nat) : List Out :=
  let s := c.session sess
  (c.headers s.addr 0x20 s.ident s.txSeq bytes 1184 16).map fun h =>
    .dgram { h with sealed := some (Config.gcm s.txKey (s.txIv * 2 ^ 64 + h.seq) h.words (plain ++ [h.frag])) }

/-- The keys of a session from its transcript (R178). -/
def Session.keyed (s : Session) (hostKey : Nat) : Session :=
  let th2 := Config.sha3 [s.th1, hostKey]
  let okm := Config.hkdf (s.hostNonce * 2 ^ 256 + s.devNonce) s.secret [th2]
  let cut (first n : Nat) : Nat := okm / 2 ^ (8 * (72 - first - n)) % 2 ^ (8 * n)
  { s with rxKey := cut 0 32, txKey := cut 32 32, rxIv := cut 64 4, txIv := cut 68 4 }

end Sys2Proof.Machine
end

