-- ==== Sys2Proof/Machine/Cycle.lean ====
section
/-!
DEFINITION. Machine/Cycle.lean: the base-cycle start: the end of the cycle before, swaps, takeovers and mode changes at the boundary
(R130 to R135, R206 to R208, R305, R306, R312 to R315), the input latch's host values (R47), and the flying restart (R148 to R150).
-/
namespace Sys2Proof.Machine

/-! ## Responses and sessions (R183, R186, R190, R195) -/

/-- A session ends: its subscriptions and stream claims go, its channel is free, and Service that it owned ends (R133, R183, R553). -/
def Core.endSession (s ev : Nat) (c : Core) : Core :=
  if (c.session s).st = .free then c else
  let owner := c.md.mode = .service ∧ c.host.svcOwner = some s
  let c1 := c.onHost fun h => { h with
    sess := SMap.set {} h.sess s {}, subs := h.subs.filter (fun x => x.sess != s), reasm := h.reasm.filter (fun r => r.key != s)
    svcOwner := if h.svcOwner = some s then none else h.svcOwner
    held := h.held.map fun w => if w.sess = s then { w with sess := 16 } else w }
  let c2 := forN 16 (fun k d => if (d.stream k).owner = some s then d.onStream k fun x => { x with owner := none } else d) c1
  let c3 := if owner then c2.onMd fun m => { m with svcEnd := true } else c2
  c3.raise ev (path 1 3 s)

/-- A response leaves: its datagrams, then its content. A session whose next SEQ would exceed 2^48 − 1 ends in its place (R182). -/
def Core.sendResp (sess req op status : Nat) (body : List Nat) (c : Core) : Core :=
  let s := c.session sess
  if 2 ^ 48 < s.txSeq + respFrags op body then c.endSession sess 0x0122
  else
    let hs := c.secureHdrs sess (12 + bodyBytes op body) ([req, op + 0x80, status] ++ body)
    let c1 := c.onSession sess fun x => { x with txSeq := x.txSeq + respFrags op body }
    { c1 with out := c1.out ++ hs ++ [.resp sess req (op + 0x80) status body] }

/-- Sends a response and keeps it for a repeated request (R190); a session that has ended gets none. -/
def Core.respond (sess req op status : Nat) (body : List Nat) (c : Core) : Core :=
  let s := c.session sess
  if s.st = .free ∨ s.st = .handshake then c
  else (c.onSession sess fun x => { x with
    cache := ((req, op, status, body) :: x.cache).take 16, waiting := x.waiting - 1 }).sendResp sess req op status body

/-- The status bytes of a WRITE: COUNT, then one for each item (R192). -/
def writeBody (l : List Nat) : List Nat := l.length :: l

/-- Every CYCLE_ALIGNED write still held is answered ABORTED, its items NOT_APPLIED (R195, R217). -/
def Core.dropHeld (c : Core) : Core :=
  (forL c.host.held (fun h d => d.respond h.sess h.req 0x02 0x11 (writeBody (h.items.map fun _ => 0x10))) c).onHost fun h => { h with held := [] }

/-! ## Mode changes (R128, R132, R133, R293, R374, R470) -/

/-- Injections end with a reason. -/
def Core.endInjections (reason : Nat) (c : Core) : Core := forL c.image.loops (fun n d => d.injEnd n reason) c

/-- Standby is entered. -/
def Core.goStandby (c : Core) : Core :=
  let c1 := (c.freeze.queuesStandby.dropHeld).endInjections 7
  let c2 := forL c1.image.axes (fun a d => if (d.axis a).atRest ∨ (d.axis a).st = .brakeTest then d else d.stop3 a 5) c1
  let c3 := (c2.onMd fun m => { m with mode := .standby, autoRun := false, runLive := false }).onProg fun p => { p with
    phase := .notRunning, skipping := false, skipNext := false, captureOwed := false }
  (((c3.onHost fun h => { h with svcOwner := none }).slewAtStandby).standbyEntry).raise 0x0001 0

/-- Run is entered from Standby; after a takeover the axes go on as they are. -/
def Core.goRun (ovr : Bool) (c : Core) : Core :=
  let c1 := if ovr then c else
    forL c.image.axes (fun a d => match (d.axis a).st with
      | .moving | .syncing | .following | .stopping | .jogging | .homing => d.still a .standstill
      | _ => d) c
  let c2 := (c1.freeze.loopsRun.onAshSt fun x => { x with before := x.out, aborted := [] }).onProg fun p => { p with
    cycle := 0, ovrConsec := 0, skipNext := false, skipping := false }
  (((c2.onMd fun m => { m with mode := .run, autoRun := false, runLive := ovr, runEntered := c.now }).activePin).raise 0x0001 0).stepToSlew

/-- Service is entered; the session that asked owns it (R184). -/
def Core.goService (s : Nat) (c : Core) : Core :=
  ((c.onMd fun m => { m with mode := .service }).onHost fun h => { h with svcOwner := some s }).raise 0x0001 0

/-- Service ends in Run: injections end, jogging axes stop. -/
def Core.endService (c : Core) : Core :=
  let c1 := c.endInjections 4
  let c2 := forL c1.image.axes (fun a d => if (d.axis a).st = .jogging then d.stop3 a 5 else d) c1
  ((c2.onMd fun m => { m with mode := .run }).onHost fun h => { h with svcOwner := none }).raise 0x0001 0

/-- Whether every module marked REQUIRED is OPERATIONAL (R638). -/
def Core.requiredUp (c : Core) : Bool := c.image.modules.all fun m => !m.required || c.inOperation (m.port * 512 + m.slot)

/-- Fault-driven transitions: to Standby, or a yield in their place (R130, R135, R689). -/
def Core.takeFaults (c : Core) : Core :=
  if c.md.faults = [] then c else
  let c1 := c.onMd fun m => { m with faults := [] }
  if !c.running then c1
  else if c.md.faults.contains .abort ∨ !c.yieldsOnFault then c1.goStandby
  else c1.yieldStart

/-- The mode that a transition in progress enters (R130, R152). -/
def Core.modeTarget (c : Core) : Option Mode :=
  match c.md.req with
  | some (m, _) => some m
  | none => if c.md.svcEnd ∧ c.md.mode = .service then some .run else none

/-- The accepted host request, judged against the mode that a fault has left, and against R638 and R684 as they
stand then (R130, R135). -/
def Core.takeReq (c : Core) : Core :=
  let c1 := c.onMd fun m => { m with req := none }
  match c.md.req, c.md.mode with
  | some (.standby, _), .run | some (.standby, _), .service => c1.goStandby
  | some (.run, _), .standby => if c.requiredUp ∧ (!c.image.pair.en ∨ c.mr.role = .active) then c1.goRun false else c1
  | some (.run, _), .service => c1.endService
  | some (.service, s), .run => if (c.session s).st = .open then c1.goService s else c1
  | _, _ => c1

/-- Service ends when its owner has gone or fallen silent (R133). -/
def Core.takeSvcEnd (c : Core) : Core :=
  let c1 := c.onMd fun m => { m with svcEnd := false }
  if c.md.svcEnd ∧ c.md.mode = .service then c1.endService else c1

/-- AUTO_RUN, or the active's own entry to Run, once every required module is up (R130, R638, R684). -/
def Core.takeAuto (c : Core) : Core :=
  if c.md.autoRun ∧ c.md.mode = .standby ∧ c.requiredUp ∧ (!c.image.pair.en ∨ c.mr.role = .active) then c.goRun false else c

/-- T1 of a takeover (R705 step 4). -/
def Core.takeOver (c : Core) : Core :=
  match c.mr.toPending with
  | some .run => (c.takeoverRestore).goRun true
  | some _ => c.takeoverRestore
  | none => c

/-- The mode logic at a boundary: takeover, faults, the request, AUTO_RUN, and an ABORT that waited for the transition (R218). -/
def Core.modeLogic (c : Core) : Core :=
  let c1 := (((c.takeOver.takeFaults).takeReq).takeSvcEnd).takeAuto
  if c1.md.abortAfter then
    let c2 := c1.onMd fun m => { m with abortAfter := false }
    if c2.running then c2.goStandby else c2
  else c1

/-! ## The flying restart (R148, R149) -/

/-- An axis of a flying restart at its first cycle: PENDING at its actual position and velocity, which it keeps until its target
comes; without an actual position FAILED. -/
def Core.flyAxis (a : Nat) (c : Core) : Core :=
  if c.axEnc a || (c.hasActual a && (c.axis a).rep != []) then
    let (p, v0, _) := c.actualAt a c.now
    let v := if c.axEnc a ∧ c.mot.genAt = some c.now then (c.axis a).actVel else v0
    let c1 := (c.onAxis a fun y => { y with pos := p, actual := p, vel := v, acc := 0, jerk := 0, posValid := true }).onMd fun m =>
      { m with fly := SMap.set .none m.fly a .pending, flyLock := SMap.set 0 m.flyLock a 0 }
    if v = 0 then c1
    else (c1.onAxis a fun y => { y with st := .moving, mode := .velocity, hasTgt := true, tgtVel := v, stillFrom := none }).planVel a v
  else (c.onAxis a fun y => { y with posValid := false }).onMd fun m => { m with fly := SMap.set .none m.fly a .failed }

/-- The first base cycle in Run after a warm restart. -/
def Core.flyBegin (c : Core) : Core :=
  if !c.md.flyArmed then c else
  let c1 := forL c.image.axes Core.flyAxis (c.onMd fun m => { m with fly := [], flyLock := [], flyCtl := c.reg A.DEV_FLY_CTL })
  (c1.onMd fun m => { m with flyArmed := false, flying := true }).flyDone

/-- Every later base cycle: a PENDING axis inside its window for LOCK_CYCLES cycles locks. -/
def Core.flyCycle (c : Core) : Core :=
  if !c.md.flying then c else
  (forL c.image.axes (fun a d =>
    if SMap.get .none d.md.fly a ≠ .pending then d
    else
      let n := if (d.axis a).inWindow then SMap.get 0 d.md.flyLock a + 1 else 0
      d.onMd fun m => { m with
        flyLock := SMap.set 0 m.flyLock a n
        fly := if bits c.md.flyCtl 15 8 ≤ n then SMap.set .none m.fly a .locked else m.fly }) c).flyDone

/-- FLY_TIMEOUT: TIMEOUT_MS has passed since Run was entered; the axis fails and quick-stops. -/
def Core.flyTimeout (a : Nat) (c : Core) : Core :=
  if SMap.get .none c.md.fly a ≠ .pending then c
  else ((c.advanceTo (c.md.runEntered + bits c.md.flyCtl 31 16 * ms)).qstop a).flyFail a

/-! ## The cycle (R240, R252, R305, R312 to R315) -/

/-- What the cycle before still owes: windows that were not complete at their ends, and its COMMIT_END. -/
def Core.closeCycle (c : Core) : Core :=
  if !c.prog.begun then c else
  let late (all : Bool) (d : Core) : Core := forN 16 (fun t e => match (e.tile t).win with
    | some v => if !v.complete && (all || decide (v.kind ≤ 2)) then e.windowDeadline t else e
    | none => e) d
  ((late false c).commitEnd |> late true)

/-- The start of the next base cycle: the next multiple of Tc (R66). -/
def Core.nextCycle (c : Core) : Time :=
  let t := alignUp c.baseLen c.now
  if c.prog.begun ∧ c.prog.cycleStart = t then t + c.baseLen else t

/-- The transfer of an on-line change: completed, or begun at its boundary. -/
def Core.swapStep (c : Core) : Core :=
  if c.prog.olc.st = .swapping then c.swapDone true else if c.swapDue then c.swapNow else c

/-- Host writes take effect at the input latch (R47). -/
def Core.tagLatch (c : Core) : Core :=
  let ws := c.prog.tagWrites
  forL ws (fun w d => match tagClass w.1 with
    | 0 => d
    | 1 => d.selRestore w.1 w.2
    | _ => d.setTag w.1 w.2) (c.onProg fun p => { p with tagNow := ws, tagWrites := [] })

/-- Axes with AUTO home at the first Run cycle after a start (R517). -/
def Core.autoHome (c : Core) : Core :=
  if c.md.ranOnce then c else
  forL c.image.axes (fun a d =>
    if d.axFld A.AX_HOME_CFG a 7 7 = 1 ∧ !(d.axis a).posValid ∧ d.homeStatus a = 0 then d.homeBegin a else d)
    (c.onMd fun m => { m with ranOnce := true })

/-- A cycle with its windows: a fresh latch and empty commit buffers, but for entries of work items (R254). -/
def Core.beginNormal (c : Core) : Core :=
  let c1 := c.onProg fun p => { p with skipping := false, phase := .latch, winBase := p.cycleStart, captureOwed := false }
  let c2 := forN 16 (fun t d => d.onTile t fun x => { x with
    waitWins := [], commit := [], win := if x.free then none else x.win.map fun v => { v with old := true } }) c1
  c2.tagLatch

/-- A skipped cycle. -/
def Core.beginSkipped (c : Core) : Core :=
  c.onProg fun p => { p with skipping := true, skipNext := false, phase := .skipped, skipTotal := sat32 (p.skipTotal + 1), tagNow := [] }

/-- The cycle that starts in Run or Service: skipped after an overrun, while a window of the overrun cycle still runs, or for a
transfer. -/
def Core.beginCycle (c : Core) : Core :=
  let busy := c.prog.skipping && !c.prog.skipNext && !((List.range 16).all fun t => (c.tile t).idle)
  let c1 := if busy then c.countOverrun else c
  let c2 := c1.freeze.onProg fun p => { p with cycle := (p.cycle + 1) % 2 ^ 64, cycles := p.cycles + 1, forcesNow := p.forces }
  let c3 := if c2.prog.skipNext then c2.beginSkipped else c2.beginNormal
  let fresh := c3.md.flyArmed
  let c4 := if fresh then c3.flyBegin else c3.flyCycle
  forL c4.axesOn Core.axCycle c4.autoHome

/-- BASE_CYCLE_START. -/
def Core.cycleBegin (c0 : Core) : Core :=
  if c0.md.held ∨ !(c0.md.mode = .standby ∨ c0.running) then c0 else
  let c := c0.closeCycle
  let t := c.nextCycle
  let c0 := (c.advanceTo t).onProg fun p => { p with
    cycleStart := t, begun := true, ended := false, overrun := false, released := false, noRelease := false, ovrCtl := c.reg A.PG_OVR_CTL
    captured := false, captureOwed := p.captureOwed || (p.overrun && !p.captured) }
  let c1 := (forN 16 (fun n d => d.onTile n fun x => { x with preds := 0 }) c0).onHost fun h =>
    { h with held := h.held.map fun x => { x with armed := true } }
  let c2 := (c1.swapStep).modeLogic
  if c2.running then c2.beginCycle else c2

/-! ## The commands -/

def execBaseCycleStart (s : State) : Host.Outcome State Fault Refusal := coreCmd Core.cycleBegin s
def execFlyTimeout (a : Nat) (s : State) : Host.Outcome State Fault Refusal := coreCmd (Core.flyTimeout a) s

/-- SERVICE_TIMEOUT: the owner has sent nothing for DEV_SVC_TIMEOUT; Run is entered at the next boundary (R133). -/
def Core.svcTimeout (c : Core) : Core :=
  match c.host.svcOwner with
  | some s =>
    if c.md.mode ≠ .service then c else
    let c1 := c.advanceTo (c.now + ((c.session s).lastRx + c.regN A.DEV_SVC_TIMEOUT * ms - c.plumb.elapsed))
    c1.onMd fun m => { m with svcEnd := true }
  | none => c

def execServiceTimeout (s : State) : Host.Outcome State Fault Refusal := coreCmd Core.svcTimeout s

end Sys2Proof.Machine
end

