-- ==== Sys2Proof/Machine/Regs.lean ====
section
/-!
DEFINITION. Machine/Regs.lean: what every register reads as (R1 to R8, R30 to R40) and what a read changes: RC fields and latches.
-/
namespace Sys2Proof.Machine

/-- How a register's word arises: from what is stored; its RO, RC and W1C fields from the state, the others stored; or whole from
the state. -/
inductive Live where
  | stored
  | part (w : Word)
  | full (w : Word)
  deriving DecidableEq, Repr

/-- The word that a read returns; a WO field and a reserved bit read 0 (R4, R6). -/
def mergeLive (flds : List Fld) (st : Word) : Live → Word
  | .full w => w
  | .stored => flds.foldl (fun r f => if f.acc = .wo then r else r ||| (st &&& f.mask)) 0
  | .part w => flds.foldl (fun r f => match f.acc with
      | .wo => r
      | .ro | .rc | .w1c => r ||| (w &&& f.mask)
      | _ => r ||| (st &&& f.mask)) 0

/-- Word w of a 256-bit fingerprint or hash, byte 0 most significant. -/
def fpWord (fp w : Nat) : Word := wd (fp / 2 ^ (32 * (7 - w)))
/-- Word 0 the low half, word 1 the high half of a 64-bit number. -/
def word64 (v : Int) (w : Nat) : Word := wi (if w = 0 then v else v / 2 ^ 32)
/-- Signed 32-bit saturation. -/
def sat31 (x : Int) : Word := wi (clampI (-0x7FFFFFFF) 0x7FFFFFFF x)
/-- A count limited to n bits. -/
def satN (n x : Nat) : Nat := min x (2 ^ n - 1)

/-! ## Configured instances (R33, R125) -/

/-- The image places a register in a range. -/
def imgPlaces (i : Image) (base len : Nat) : Bool :=
  (i.placed ++ i.settings).any fun r => decide (base ≤ r.addr) && decide (r.addr < base + len)

def Core.tinOn (c : Core) (n : Nat) : Bool :=
  imgPlaces c.image (A.PB_TIN_CTL + 0x10 * n) 0x10 || imgPlaces c.image (A.PB_TIN_DELAY + 4 * n) 4
def Core.toutOn (c : Core) (m : Nat) : Bool := imgPlaces c.image (A.PB_TOUT_CTL + 0x20 * m) 0x20

/-- Whether a register belongs to a configured instance; one outside the instance windows always does. -/
def Core.configured (c : Core) (h : Hit) : Bool :=
  if h.key < 0x100000 then
    if (0x20200 ≤ h.key ∧ h.key < 0x20210) ∨ (0x20400 ≤ h.key ∧ h.key < 0x20600) ∨ h.key = A.PB_TIN_DELAY then c.tinOn h.i
    else if 0x20600 ≤ h.key ∧ h.key < 0x20800 then c.toutOn h.i
    else true
  else if h.key < 0x02000000 then c.image.loops.contains h.inst
  else if h.key < 0x03000000 then c.image.axes.contains h.inst
  else if h.key < 0x03100000 then c.unitDeclared h.inst
  else if h.key < 0x04000000 then c.image.streams.contains h.inst
  else (c.modDef h.inst).isSome

/-- A session's selection register. -/
def Core.selOf (c : Core) (sess a : Nat) : Nat := (((c.session sess).sel.find? fun p => p.1 == a).map fun p => p.2.toNat).getD 0

/-! ## Block headers (R35 to R40) -/

/-- Units that are not idle (R36). -/
def Core.unitsBusy (c : Core) (b : Nat) : Nat :=
  let count (n : Nat) (p : Nat → Bool) : Nat := ((List.range n).filter p).length
  if b = 0 then flg c.modeTarget.isSome 0
  else if b = 1 then flg (c.up.down.any fun d => d.2.st != .none) 0 + flg (c.host.sess.any fun s => s.2.st != .free) 0
  else if b = 2 then (if c.running then 2 else 0) + flg (c.plumb.tout.any fun t => t.2.st != .idle) 0
  else if b = 3 then (if c.running then count 8 fun p => c.portStateCode p != 0 else 0)
  else if b = 4 then count 4 fun u => (c.lnPort u).link
  else if b = 5 then flg (c.mr.role != .none) 0
  else if b = 6 then count 16 fun t => !(c.tile t).idle
  else if b = 7 then count 8 fun p => !(c.readyOf p).isEmpty || c.wq.items.any (fun i => i.2.phase == .running && c.itemPrio i.1 == p)
  else if b = 8 then flg c.running 0
  else if b = 9 then (c.image.loops.filter fun n => (c.loop n).mode == .closed).length
  else if b = 10 then (c.image.axes.filter fun a => !(c.axis a).atRest).length
  else if b = 11 then (c.image.streams.filter fun k => (c.stream k).st == .running).length
  else if b = 12 then (c.image.units.filter fun u => (c.unit u.1).st != .idle && (c.unit u.1).st != .hold).length
  else if b = 13 then flg (c.mirror.fns.any fun f => f.2.st != .off) 1 / 2 + flg (c.mirror.brks.any fun k => k.2.test.isSome) 0
  else if b = 14 then flg (!c.prog.jr.staging.isEmpty) 0
  else flg (decide (0 < c.fab.throttle)) 0

/-- Units and channels of a block as configured (R27, R38). -/
def Core.unitCount (c : Core) (b : Nat) : Nat × Nat :=
  if c.up.runCfg.isNone then (0, 0)
  else if b = 0 then (1, 1) else if b = 1 then (4, 16) else if b = 2 then (4, 32)
  else if b = 3 then (((List.range 8).filter fun p => c.ashRole p != 0).length, 512)
  else if b = 4 then (((List.range 4).filter fun u => c.lnUnit u).length, 1024)
  else if b = 5 then (flg c.image.pair.en 0, 3) else if b = 6 then (16, 1) else if b = 7 then (8, 1) else if b = 8 then (1, 4)
  else if b = 9 then (c.image.loops.length, 3) else if b = 10 then (c.image.axes.length, 4)
  else if b = 11 then (c.image.streams.length, 1) else if b = 12 then (c.image.units.length, 32)
  else if b = 13 then (4, 16) else if b = 14 then (10, 1) else (3, 8)

/-- A block that cannot do its work: the PLL out of lock, a schedule fault of a port, a number conflict on the chain, a pair whose
units do not match, a check error of a tile, the island locked (notes/assumptions/118.md). -/
def Core.blockFaulted (c : Core) (b : Nat) : Bool :=
  if b = 2 then !c.plumb.pllLocked
  else if b = 3 then c.ash.ports.any fun p => p.2.st == .scheduleFault
  else if b = 4 then c.ln.numConflict
  else if b = 5 then c.mr.state == .mismatch
  else if b = 6 then c.fab.tiles.any fun t => t.2.fault
  else if b = 13 then c.mirror.locked
  else false

/-- A block that works with less than its configuration gives it (notes/assumptions/118.md). -/
def Core.blockDegraded (c : Core) (b : Nat) : Bool :=
  if b = 2 then c.syncState == .holdover
  else if b = 3 then c.ash.ports.any (fun p => p.2.st == .linkDown || p.2.ringBroken) || c.ash.mods.any fun m => m.2.st == .lost
  else if b = 4 then c.ln.topoDiff || c.ln.ringBroken
  else if b = 5 then c.mr.state != .synced
  else if b = 8 then c.prog.jr.writeFail
  else if b = 9 then decide (c.loopsStale ≠ 0)
  else if b = 11 then c.spr.streams.any fun s => s.2.loss.isSome
  else if b = 12 then c.cap.units.any fun u => u.2.overflow
  else if b = 14 then decide (c.mem.eccUncorr ≠ 0)
  else if b = 15 then !(c.pw.vkaA && c.pw.vkaB && c.pw.feedA && c.pw.feedB)
  else false

/-- BLK_STATUS.STATE (R36): configuring before Standby, absent without a configured unit, then faulted, degraded, running or
ready. -/
def Core.blockState (c : Core) (b : Nat) : Nat :=
  if !(c.md.mode == .standby || c.running) then 1
  else if (c.unitCount b).1 = 0 then 0
  else if c.blockFaulted b then 5
  else if c.blockDegraded b then 4
  else if c.running then 3 else 2

def Core.readHdr (c : Core) (h : Hit) : Live :=
  let b := h.key / 0x10000
  let o := h.key % 0x10000
  if o = 0 then .part (wd (b * 2 ^ 24 + 0x100))
  else if o = 4 then .part (wd (c.unitsBusy b * 65536 + c.blockState b) ||| (c.reg h.key &&& 0x100))
  else if o = 0xC then let (u, n) := c.unitCount b; .part (wd (n * 65536 + u))
  else .stored

/-! ## Block 0x00 (R152 to R157) and block 0x01 (R224 to R229, R805, R806) -/

def Core.readDev (c : Core) (h : Hit) : Live :=
  let m := c.md
  let n (st : FlyState) : Nat := (m.fly.filter fun p => p.2 == st).length
  if h.key = A.DEV_MODE then
    .part (wd (m.reason * 2 ^ 24 + ((c.modeTarget.map modeCode).getD 0) * 65536 + flg m.warmLast 9 +
      flg c.modeTarget.isSome 8 + modeCode m.mode))
  else if h.key = A.DEV_START_STATUS then .part (wd (c.up.boot.startFails * 2 ^ 24 + c.up.boot.lastFail * 65536 + satN 16 m.startMs))
  else if h.key = A.DEV_BOOT_COUNT then .part (wd c.up.boot.boots)
  else if h.key = A.DEV_RESTART_CAUSE then .part (wd m.cause)
  else if h.key = A.DEV_FLY_STATUS then
    .part (wd (flg m.flying 24 + n .pending * 65536 + n .locked * 256 + n .failed))
  else .stored

/-- The eight words of an event record (R204). -/
def EvRec.words (e : EvRec) : List Word :=
  [wd e.index, wd (e.code * 65536), wd e.path, 0, wd (secOf e.time / 2 ^ 32), wd (secOf e.time), wd (nsOf e.time),
   wd (fracOf e.time * 65536)]

def roleNum : Role → Nat
  | .none => 0 | .observe => 1 | .operate => 2 | .engineer => 3

def Core.readMgmt (c : Core) (h : Hit) : Live :=
  let s := c.session h.i
  let u := c.up
  let b := u.boot
  let (st, got, all) := c.contState u.named
  if h.key = A.HA_MAC_HI then .part (wd (Config.mac / 2 ^ 32 % 65536))
  else if h.key = A.HA_MAC_LO then .part (wd Config.mac)
  else if h.key = A.HA_LOG_HEAD then .part (match c.host.log with | r :: _ => wd r.index | [] => 0xFFFFFFFF)
  else if h.key = A.HA_SESS_FP then .part (fpWord s.fp 0)
  else if h.key = A.HA_SESS_IDLE then
    .part (if s.st = .free then 0 else wd (sat32 ((c.plumb.elapsed - s.lastRx) / ms)))
  else if h.key = A.HA_LOG then
    .part (match c.host.log.find? (fun r => r.index % 512 == h.i) with | some r => r.words.getD h.w 0 | none => 0)
  else if h.key = A.HA_HOSTKEY_FP then .part (((c.image.hostKeys[h.i]?).map fun k => fpWord k.fp h.w).getD 0)
  else if h.key = A.HA_HOSTKEY_ROLE then .part (wd (((c.image.hostKeys[h.i]?).map fun k => k.role).getD 0))
  else if h.key = A.HA_LINK then .part (wd (flg c.host.sgmii 2 + c.host.link))
  else if h.key = A.HA_SESS_STATUS then
    .part (wd ((c.host.subs.filter fun x => x.sess == h.i).length * 65536 + flg s.viaChain 11 +
      flg (decide (c.host.svcOwner = some h.i)) 10 + roleNum (if s.st = .open then s.role else .none) * 256 +
      (match s.st with | .free => 0 | .handshake => 1 | .open => 2 | .closing => 3)))
  else if h.key = A.BT_SEQ then .part (wd b.seq)
  else if h.key = A.BT_MIN_SEC then .part (wd b.minSec)
  else if h.key = A.BT_FW_SEC then .part (wd ((u.runFw.map (·.secVersion)).getD 0))
  else if h.key = A.BT_FW_MANIFEST then .part (fpWord ((u.runFw.map (·.manifest)).getD 0) h.w)
  else if h.key = A.BT_CFG_HASH then .part (fpWord ((u.runCfg.map (·.hash)).getD 0) h.w)
  else if h.key = A.BT_NVM then .part (wd (flg (decide (c.mem.nvm1 ≠ 0)) 31 + satN 16 u.retries))
  else if h.key = A.UP_CONT_LO then .part (wd u.named)
  else if h.key = A.UP_CONT_HI then .part (wd (u.named / 2 ^ 32))
  else if h.key = A.UP_CHUNKS then .part (wd (got * 65536 + all))
  else if h.key = A.UP_RELAY_FWD then .part (wd (sat32 u.relayed))
  else if h.key = A.UP_RELAY_ABANDON then .part (wd (sat32 u.abandoned))
  else if h.key = A.UP_REFUSED then .part (wd (sat32 u.refusals))
  else if h.key = A.ID_FP then .part (fpWord Config.identityFp h.w)
  else if h.key = A.ID_DBG_NONCE then .part (fpWord u.dbgNonce h.w)
  else if h.key = A.ID_SERIAL_LO then .part (wd Config.serial)
  else if h.key = A.ID_SERIAL_HI then .part (wd (Config.serial / 2 ^ 32))
  else if h.key = A.ID_OWNER_FP then .part (fpWord (b.owners.getD h.i 0) h.w)
  else if h.key = A.ID_CERT then .part (certWord h.i)
  else if h.key = A.BT_STATUS then
    let pendP : Bool := match u.runFw with | some f => f.versions.getD 3 0 != u.islandP || f.versions.getD 4 0 != u.islandW | none => false
    .part (wd (flg b.trial 31 + b.trialStarts * 2 ^ 28 + flg u.runFwSlot 27 + flg u.runCfgSlot 26 + flg u.safeSlot 25 + flg u.setCopy 24 +
      flg u.pendingAct 23 + flg pendP 22))
  else if h.key = A.UP_STATUS then .part (wd (st * 2 ^ 28 + u.namedKind * 2 ^ 24 + u.refuse * 2 ^ 20))
  else if h.key = A.ID_DBG_STATUS then .part (wd (u.dbgLevel * 2 ^ 30 + satN 16 (cdiv u.dbgTicks 3840000)))
  else .stored

/-! ## Block 0x02: Plumb (R108 to R124) -/

/-- Word of a device time: seconds 63:32, seconds 31:0, nanoseconds, fraction. -/
def timeWord (t : Time) (w : Nat) : Word :=
  if w = 0 then wd (secOf t / 2 ^ 32) else if w = 1 then wd (secOf t) else if w = 2 then wd (nsOf t) else wd (fracOf t)

def Core.readPlumb (c : Core) (h : Hit) : Live :=
  let p := c.plumb
  let q := c.ptpPort h.i
  if h.key = A.PB_TIME_SEC_HI then .part (timeWord p.now 0)
  else if h.key = A.PB_TIME_SEC_LO then .part (timeWord p.latch 1)
  else if h.key = A.PB_TIME_NS then .part (timeWord p.latch 2)
  else if h.key = A.PB_TIME_FRAC then .part (timeWord p.latch 3)
  else if h.key = A.PB_OFFSET then .part (sat31 (p.offset.tdiv 65536))
  else if h.key = A.PB_HOLD_AGE then .part (wd (sat32 p.holdAge))
  else if h.key = A.PB_SLEW_REMAIN then .part (sat31 (p.slewRemain.tdiv 65536))
  else if h.key = A.PB_FREQ then .part (wi c.rateNow)
  else if h.key = A.PB_PORT_DELAY then .part (wd (sat32 (q.delay.getD 0).toNat))
  else if h.key = A.PB_TIN_COUNT then .part (wd (c.tin h.i).count)
  else if h.key = A.PB_TIN_LOST then .part (wd (sat32 (c.tin h.i).lost))
  else if h.key = A.PB_TIN_STAMP then .part ((c.tinWords h.i).getD h.w 0)
  else if h.key = A.PB_TICK then .part (wd (secOf p.now % 65536 * 65536 + tickOf p.now % 64000))
  else if h.key = A.PB_SYNC_STATUS then
    let st := match c.syncState with | .freeRun => 0 | .acquiring => 1 | .locked => 2 | .holdover => 3 | .grandmaster => 4
    let mp := ((List.range 12).find? fun k => c.portState k == 9).getD 15
    .part (wd (mp * 2 ^ 28 + flg ((List.range 12).any fun k => (c.ptpPort k).asymUnverified) 11 +
      flg ((List.range 12).any fun k => decide (0 < (c.ptpPort k).remeas)) 10 + flg p.slewing 9 + flg p.timeValid 8 + st))
  else if h.key = A.PB_PORT_STATUS then .part (wd (q.pathSteps * 65536 + flg q.asymUnverified 8 + c.portState h.i))
  else if h.key = A.PB_PORT_LAT then (if h.i < 11 then .full (Config.portLat h.i) else .stored)
  else if h.key = A.PB_PORT_INTV then (if c.lineProfile then .full 0xFAFD0003 else .stored)
  else if h.key = A.PB_TIN_CTL then .part (wd (flg (c.tin h.i).ovf 16 + (c.tin h.i).fifo.length * 256))
  else if h.key = A.PB_TOUT_CTL then
    .part (wd ((match (c.tout h.i).st with | .idle => 0 | .waiting => 1 | .running => 2 | .stopping => 3) * 65536))
  else if h.key = A.PB_TOUT_COUNT then .part (wd (satN 16 (c.tout h.i).missed * 65536))
  else .stored

/-! ## Blocks 0x03 to 0x05 (R646 to R650, R679, R680, R723, R724) -/

def Core.readAsh (c : Core) (h : Hit) : Live :=
  let x := c.port h.i
  if h.key = A.ASH_CLAIM then .part (wd c.claimNow)
  else if h.key = A.ASH_CYCLES then .part (wd x.cycles)
  else if h.key = A.ASH_APPLY_EFF then .part (wd x.applyEff)
  else if h.key = A.ASH_UP_START_EFF then .part (wd x.upStartEff)
  else if h.key = A.ASH_PORT_STATUS then
    .part (wd (c.portStateCode h.i * 2 ^ 28 + flg x.ringBroken 27 + flg x.outranked 26 + (if x.ringBroken then x.breakAfter else 0)))
  else if h.key = A.ASH_MODULES then
    .part (wd (x.found * 2 ^ 22 + ((c.portMods h.i).filter c.inOperation).length * 2 ^ 12 + x.unexpected))
  else if h.key = A.ASH_LOAD then .part (wd (satN 16 x.loadUp * 65536 + satN 16 x.loadDown))
  else .stored

def Core.readMod (c : Core) (h : Hit) : Live :=
  let x := c.mod h.inst
  if h.key = A.MS_STATUS then
    let st := match x.st with | .absent => 0 | .found => 1 | .operational => 2 | .lost => 3 | .mismatch => 4
    .part (wd (st * 2 ^ 28 + flg (((c.modDef h.inst).map (·.required)).getD false) 27 + flg (c.heard h.inst false) 26 + flg (c.heard h.inst true) 25 +
      flg x.lossActive 24 + flg x.claimTie 23 + flg x.linkErr 22 + flg x.sampleLate 21 + flg x.modFault 20 + satN 8 x.age))
  else if h.key = A.MS_SEQ then .part (wd (x.seq % 65536))
  else if h.key = A.MS_VENDOR then .part (wd x.vendor)
  else if h.key = A.MS_PRODUCT then .part (wd x.product)
  else if h.key = A.MS_REVISION then .part (wd x.revision)
  else if h.key = A.MS_SERIAL_LO then .part (wd x.serial)
  else if h.key = A.MS_SERIAL_HI then .part (wd (x.serial / 2 ^ 32))
  else if h.key = A.MS_COUNT then .part (wd (satN 16 x.missed * 65536 + satN 8 x.lost * 256 + satN 8 x.safeErr))
  else if h.key = A.MS_SLOT_A_NS then .part (wd x.slotA)
  else if h.key = A.MS_SLOT_B_NS then .part (wd x.slotB)
  else if h.key = A.MS_DELAY then .part (wd x.delay)
  else if h.key = A.MS_IO_BYTES then .part (wd (x.inBytes * 65536 + x.outBytes))
  else if h.key = A.MS_ERR then .part (wd (satN 8 x.window * 2 ^ 24 + satN 8 x.outOfOrder * 65536 + satN 16 x.repeated))
  else if h.key = A.MS_CLAIM then .part (wd x.claimSeen)
  else .stored

def Core.readLintel (c : Core) (h : Hit) : Live :=
  let l := c.ln
  let p := c.lnPort h.i
  if h.key = A.LN_SHAFT_AGE then .part (wd (sat32 l.shaftAge))
  else if h.key = A.LN_PATH_NS then .part (wd (sat32 l.pathNs))
  else if h.key = A.LN_PATH_MAX then .part (wd (sat32 l.pathMax))
  else if h.key = A.LN_STOMPED then .part (wd (sat32 p.stomped))
  else if h.key = A.LN_BULK_BYTES then .part (wd p.bulkBytes)
  else if h.key = A.LN_NB_FP then .part (fpWord p.nbFp h.w)
  else if h.key = A.LN_KNOWN_FP then .part (fpWord p.knownFp h.w)
  else if h.key = A.LN_STATUS then
    let st := match l.shaftState with | .none => 0 | .ok => 1 | .extrap => 2 | .stale => 3
    .part (wd (st * 2 ^ 28 + flg l.numConflict 27 + flg l.topoDiff 26 + flg l.ringBroken 25 + l.topo * 2 ^ 23 + min 1024 l.devs.length))
  else if h.key = A.LN_PORT_STATUS then
    let st := match p.nb with | .none => 0 | .verifying => 1 | .known => 2 | .new => 3 | .failed => 4
    .part (wd (st * 2 ^ 28 + flg p.link 27 + p.nbNum))
  else .stored

/-- Epochs since the last applied, on a standby (R724). -/
def Core.epochLag (c : Core) : Nat := if c.mr.role = .standby then satN 8 (c.epochOf c.now - c.mr.epochApplied) else 0

/-- Progress of a resync in ‰: blocks received, on a unit that is resyncing; complete otherwise once one has been applied (R723). -/
def Core.resyncProg (c : Core) : Nat :=
  let got := c.mr.staging2.2.foldl (fun n f => n + (f.2.filter fun e => match e with | .block _ _ => true | _ => false).length) 0
  if c.mr.snapDone then 1000 else min 1000 (got * 1000 / max 1 (retBlockCount c.image))

def Core.readMortar (c : Core) (h : Hit) : Live :=
  let m := c.mr
  let ep := if m.role = .standby then m.epochApplied else m.epoch
  if h.key = A.MR_CLAIM then .part (wd m.claim)
  else if h.key = A.MR_CLAIM_SEEN then .part (wd m.claimSeen)
  else if h.key = A.MR_EPOCH_LO then .part (wd ep)
  else if h.key = A.MR_EPOCH_HI then .part (wd (ep / 2 ^ 32))
  else if h.key = A.MR_EPOCH_BYTES then .part (wd m.epochBytes)
  else if h.key = A.MR_EPOCH_MAX then .part (wd m.epochMax)
  else if h.key = A.MR_HB_MISSED then .part (wd (sat32 m.hbMissed))
  else if h.key = A.MR_EPOCH_DISCARDED then .part (wd (sat32 m.discarded))
  else if h.key = A.MR_TAKEOVERS then .part (wd m.takeovers)
  else if h.key = A.MR_TO_SEC then .part (timeWord m.toTime 1)
  else if h.key = A.MR_TO_NS then .part (timeWord m.toTime 2)
  else if h.key = A.MR_TO_LAG then .part (wd m.toLag)
  else if h.key = A.MR_RESYNC_PROG then .part (wd c.resyncProg)
  else if h.key = A.MR_PARTNER_FP then .part (fpWord m.partnerFp h.w)
  else if h.key = A.MR_KNOWN_FP then .part (fpWord m.knownFp h.w)
  else if h.key = A.MR_BUDGET then .part (if c.image.pair.en then wd (imgTc c.image * 11 / 10) else 0)
  else if h.key = A.MR_WORST then .part (if c.image.pair.en then wd (epochWorst c.image) else 0)
  else if h.key = A.MR_STATUS then
    let st := match m.state with
      | .single => 0 | .alone => 1 | .identifying => 2 | .partnerNew => 3 | .mismatch => 4 | .resyncing => 5 | .synced => 6 | .unsynced => 7
    .part (wd (roleCode m.role * 2 ^ 28 + st * 2 ^ 24 + flg m.unitB 23 + flg m.activePin 22 + flg m.binsFull 21 + flg m.partnerKnown 20 +
      flg m.link 19 + flg ((List.range 8).any fun p => (c.port p).shadowLost) 18 + satN 8 m.missRun * 256 + c.epochLag))
  else .stored

/-! ## Blocks 0x06 to 0x08 (R260 to R264, R298 to R303, R350 to R357) -/

def Core.readFabric (c : Core) (h : Hit) : Live :=
  let s := c.image.schedule
  let x := c.tile h.i
  if h.key = A.FB_LATCH_END then .part (wd s.latchEnd)
  else if h.key = A.FB_COMMIT_DEADLINE then .part (wd s.commitDeadline)
  else if h.key = A.FB_COMMIT_END then .part (wd s.commitEnd)
  else if h.key = A.FB_TILE_LATE then .part (wd (sat32 x.late))
  else if h.key = A.FB_TILE_OPS then .part (wd x.ops)
  else if h.key = A.FB_SCHED then .part (wd ((List.range 16).foldl (fun n t => n + (c.windows t).length) 0 * 65536 + s.baseK))
  else if h.key = A.FB_PACE then
    .part ((c.reg A.FB_PACE &&& 0x80000000) ||| wd (c.fab.max1us / 10 * 256 + c.fab.throttle / 10))
  else if h.key = A.FB_TILE_STATUS then
    let w := match x.win with | some v => (if v.complete then none else some v) | none => none
    .part (wd (flg x.fault 31 + (match w with | some v => v.kind * 65536 + v.idx | none => 15 * 65536)))
  else if h.key = A.FB_TILE_USE then .part (wd (satN 16 x.maxUse))
  else .stored

def Core.readQueues (c : Core) (h : Hit) (sess : Nat) : Live :=
  let q := c.wq
  let i := c.selOf sess A.WQ_SEL
  let x := c.item i
  let armed : Option Time := match x.pend with | .release r => some r | _ => if x.phase = .waiting then some x.rel else none
  if h.key = A.WQ_SEL then .full (wd i)
  else if h.key = A.WQ_ITEM_REL_SEC then .part (match armed with | some r => wd (secOf r) | none => 0)
  else if h.key = A.WQ_ITEM_REL_NS then .part (match armed with | some r => wd (nsOf r) | none => 0)
  else if h.key = A.WQ_ITEM_LAT_LAST then .part (wd (sat32 x.latLast))
  else if h.key = A.WQ_ITEM_LAT_MAX then .part (wd (sat32 x.latMax))
  else if h.key = A.WQ_REFUSED then .part (wd (sat32 q.refused))
  else if h.key = A.WQ_LATE_REL then .part (wd (sat32 q.lateRel))
  else if h.key = A.WQ_COMMIT_LOST then .part (wd (sat32 q.commitLost))
  else if h.key = A.WQ_DUP then .part (wd (sat32 q.dup))
  else if h.key = A.WQ_BAD_OP then .part (wd (sat32 q.badOp))
  else if h.key = A.WQ_PRIO_RUNS then .part (wd (SMap.get 0 q.prioRuns h.i))
  else if h.key = A.WQ_PRIO_CANCEL then .part (wd (sat32 (SMap.get 0 q.prioCancel h.i)))
  else if h.key = A.WQ_PRIO_LAST_ITEM then .part (wd (SMap.get 0 q.prioLast h.i))
  else if h.key = A.WQ_STATUS then
    .part (wd (satN 16 (q.items.filter fun p => p.2.phase == .waiting).length * 65536 + c.readyAll))
  else if h.key = A.WQ_ITEM_STATE then
    let st := match x.phase with | .idle => 0 | .waiting => 1 | .ready => 2 | .running => 3
    let lt := SMap.get 0 q.lastTile ((c.itemDef i).map (·.code) |>.getD 0)
    let def_ : Bool := (c.itemDef i).isSome
    .part (wd (st * 2 ^ 30 + flg (x.pend == .ready) 29 + flg (match x.pend with | .release _ => true | _ => false) 28 + flg def_ 27 +
      c.itemPrio i * 2 ^ 24 + (if def_ ∧ lt ≠ 0 then (lt - 1) * 2 ^ 20 + 2 ^ 19 else 0) + flg (x.heldFrom.isSome && !x.holdOver) 18 + x.runs % 65536))
  else if h.key = A.WQ_PRIO_STATUS then
    let l := c.readyOf h.i
    .part (wd ((match l with | [] => 0 | o :: _ => satN 16 ((c.now - (c.item o).readyAt) / us)) * 65536 + l.length))
  else .stored

/-- PG_STATUS.PHASE (R351): the schedule's phases by offset in the cycle. -/
def Core.phaseCode (c : Core) : Nat :=
  if !c.running then 0
  else if c.prog.skipping then 5
  else
    let o := c.now - c.prog.cycleStart
    let s := c.image.schedule
    if o < ns s.latchEnd then 1 else if o < ns s.commitDeadline then 2 else if o < ns s.commitEnd then 3 else 4

def Core.readProg (c : Core) (h : Hit) : Live :=
  let p := c.prog
  let j := p.jr
  let o := p.olc
  let f := p.forces[h.i]?
  if h.key = A.PG_CYCLE_LO then .part (wd p.cycle)
  else if h.key = A.PG_CYCLE_HI then .part (wd (p.cycle / 2 ^ 32))
  else if h.key = A.PG_OVR_TOTAL then .part (wd (sat32 p.ovrTotal))
  else if h.key = A.PG_SKIP_TOTAL then .part (wd (sat32 p.skipTotal))
  else if h.key = A.PG_RET_SIZE then .part (if c.up.runCfg.isSome then wd (retTotal c.image) else 0)
  else if h.key = A.PG_RET_RATE then .part (wd j.rate)
  else if h.key = A.PG_PFW_BYTES then .part (wd j.pfwBytes)
  else if h.key = A.PG_RET_PENDING then .part (wd j.pending)
  else if h.key = A.PG_RET_RECORDS then .part (wd j.records)
  else if h.key = A.PG_RET_LAST_SEC then .part (timeWord j.shown 1)
  else if h.key = A.PG_RET_LAST_NS then .part (timeWord j.shown 2)
  else if h.key = A.PG_RET_LAG_MAX then .part (wd j.lagMax)
  else if h.key = A.PG_FORCE_COUNT then .part (wd p.forces.length)
  else if h.key = A.PG_FORCE_DROP_TAG then .part (wd p.forceDropTag)
  else if h.key = A.PG_OLC_XFER_NS then .part (wd o.xferNs)
  else if h.key = A.PG_OLC_LAST_SEC then .part (timeWord o.last 1)
  else if h.key = A.PG_OLC_LAST_NS then .part (timeWord o.last 2)
  else if h.key = A.PG_OLC_CARRIED then .part (wd o.carried)
  else if h.key = A.PG_OLC_DROPPED then .part (wd o.dropped)
  else if h.key = A.PG_FORCE_TAGW then .part (match f with | some x => wd (2 ^ 31 + flg x.output 30 + x.tag) | none => 0)
  else if h.key = A.PG_FORCE_VLO then .part (match f with | some x => loW x.value | none => 0)
  else if h.key = A.PG_FORCE_VHI then .part (match f with | some x => hiW x.value | none => 0)
  else if h.key = A.PG_STATUS then .part (wd (satN 8 p.ovrConsec * 2 ^ 24 + c.phaseCode * 65536 + flg c.running 0))
  else if h.key = A.PG_RET_STATUS then
    .part (wd (flg j.finalIncomplete 31 + flg j.writeFail 30 + flg j.pfw 29 + flg j.compacting 28 + flg j.region 27 + j.lag))
  else if h.key = A.PG_FORCE_CMD then .full 0
  else if h.key = A.PG_OLC_STATUS then
    let st := match o.st with | .none => 0 | .loading => 1 | .ready => 2 | .armed => 3 | .swapping => 4
    .part (wd (st * 2 ^ 28 + o.reason * 2 ^ 24 + flg o.willSkip 23))
  else .stored

/-! ## Block 0x09 and the loop windows (R392 to R403, R433 to R442) -/

/-- The worst-case lane load in ‰: every loop of a lane due at one tick, 60 ns each (R403). -/
def laneWorst (i : Image) : Nat :=
  (List.range 8).foldl (fun m k => max m ((i.loops.filter fun n => n % 8 == k).length * 60 * 1000 / 15625)) 0

/-- A gain-table node as the host last left it (R377, R403). -/
def Core.nodeNow (c : Core) (n j : Nat) : Nat :=
  (((c.loop n).nodeReq.reverse.find? fun p => p.1 == j).map fun p => p.2).getD (SMap.get 0 (c.loop n).nodes j)

/-- A bin as the host last left it (R422). -/
def Core.binNow (c : Core) (n j : Nat) : Int :=
  (((c.loop n).lrn.binReq.reverse.find? fun p => p.1 == j).map fun p => p.2).getD (SMap.get 0 (c.loop n).lrn.bins j)

def Core.readLoops (c : Core) (h : Hit) (sess : Nat) : Live :=
  let t := c.selOf sess A.LE_TBL_SEL
  let b := c.selOf sess A.LE_BIN_SEL
  let m := c.selOf sess A.LE_MS_SEL
  if h.key = A.LE_LOAD then .part (wd (satN 16 c.lp.loadMax * 65536 + laneWorst c.image))
  else if h.key = A.LE_STALE_NOW then .part (wd c.loopsStale)
  else if h.key = A.LE_INJ_ACTIVE then .part (wd c.loopsInj)
  else if h.key = A.LE_TBL_SEL then .full (wd t)
  else if h.key = A.LE_BIN_SEL then .full (wd b)
  else if h.key = A.LE_MS_SEL then .full (wd m)
  else if h.key = A.LE_TBL_NODE then
    .full (if c.image.loops.contains t then wd ((if h.i = 32 then 0 else c.nodeNow t (2 * h.i + 1)) * 65536 + c.nodeNow t (2 * h.i)) else 0)
  else if h.key = A.LE_BIN then
    .full (if c.image.loops.contains b ∧ 2 * h.i < c.rcN b then
      halves (c.binNow b (2 * h.i)) (if 2 * h.i + 1 < c.rcN b then c.binNow b (2 * h.i + 1) else 0) else 0)
  else if h.key = A.LE_MS_LEN then .full (wd (SMap.get 0 c.lp.msLen h.i))
  else if h.key = A.LE_MS_DATA then .full (halves (c.msSample m (2 * h.i)) (c.msSample m (2 * h.i + 1)))
  else .stored

def Core.readLoop (c : Core) (h : Hit) : Live :=
  let n := h.inst
  let l := c.loop n
  if h.key = A.LP_YU then .part (halves l.u l.y)
  else if h.key = A.LP_RE then .part (halves l.e (c.loopR n))
  else if h.key = A.LP_INTEG_LO then .part (word64 l.i 0)
  else if h.key = A.LP_INTEG_HI then .part (word64 l.i 1)
  else if h.key = A.LP_STATUS then .part l.status
  else if h.key = A.LP_SP then .full (halves (l.spReq.getD l.sp) 0)
  else if h.key = A.LP_MAN_OUT then .full (halves (l.manReq.getD l.man) 0)
  else if h.key = A.LP_STALE_CNT then .part (wd (satN 8 l.ignored * 2 ^ 24 + satN 12 l.frozenEp * 2 ^ 12 + satN 12 l.staleEp))
  else if h.key = A.LP_CFG then .part ((c.reg (lpA A.LP_CFG n) &&& 0xFFF8FFFF) ||| wd (n % 8 * 65536))
  else if h.key = A.INJ_ELAPSED then .part (wd l.inj.j)
  else if h.key = A.RC_STATUS then .part l.rcStatus
  else if h.key = A.RC_POS then .part (wd (((l.lrn.dwell.map Dwell.k).getD 0) * 65536 + l.lrn.leadEff))
  else if h.key = A.INJ_CTL then .full 0
  else if h.key = A.INJ_STATUS then .part l.injStatus
  else .stored

/-! ## The axis windows (R481 to R486, R525 to R529) -/

def Core.readAxis (c : Core) (h : Hit) : Live :=
  let a := h.inst
  let x := c.axis a
  let (pos, vel, acc, act) := x.latch.getD (x.pos, x.vel, x.acc, x.actual)
  let tgt : Int := if !x.hasTgt then 0 else if x.mode = .velocity then x.tgtVel else if x.mode = .position then x.tgt / 2 ^ 32 else 0
  if h.key = A.AX_POS then .part (word64 (pos / 2 ^ 32) h.w)
  else if h.key = A.AX_POS_FRAC then .part (wi pos)
  else if h.key = A.AX_VEL then .part (word64 vel h.w)
  else if h.key = A.AX_ACC then .part (word64 acc h.w)
  else if h.key = A.AX_ACT then .part (word64 (act / 2 ^ 32) h.w)
  else if h.key = A.AX_FERR then .part (wi (clampI (-0x80000000) 0x7FFFFFFF (x.followErr / 2 ^ 32)))
  else if h.key = A.AX_TERR then .part (wi (clampI (-0x80000000) 0x7FFFFFFF (x.trackErr / 2 ^ 32)))
  else if h.key = A.AX_TGT then .part (word64 tgt h.w)
  else if h.key = A.AX_TGT_FRAC then .part (if x.hasTgt ∧ x.mode = .position then wi x.tgt else 0)
  else if h.key = A.AX_REFUSED then .part (wd (sat32 x.refused))
  else if h.key = A.AX_STATUS then .part x.status
  else if h.key = A.AX_JOG then .full (wd x.jogDir)
  else if h.key = A.AX_HOME_LATCH then .part (word64 (x.homeLatch / 2 ^ 32) h.w)
  else if h.key = A.AX_HOME_LATCH_FRAC then .part (wi x.homeLatch)
  else if h.key = A.AX_STEP_POS then .part (word64 x.stepPos h.w)
  else if h.key = A.AX_ENC_COUNT then .part (wi x.enc)
  else if h.key = A.AX_IO_STATUS then .part x.ioStatus
  else if h.key = A.AX_HOME_STATUS then .part (x.homeStatusWord (c.homeMethod a))
  else if h.key = A.AX_LOAD then .part (wd (satN 16 x.current * 65536 + satN 16 x.load))
  else if h.key = A.AX_STEP_LAG then .part (wd (satN 16 x.lagMax * 65536 + satN 16 x.stepQ.length))
  else if h.key = A.AX_IO_COUNT then .part (wd (satN 8 x.stalls * 2 ^ 24 + satN 12 x.encErrs * 2 ^ 12 + satN 12 x.limStops))
  else .stored

/-! ## Block 0x0B and the stream windows (R553, R563 to R568) -/

/-- The counters that a read of RS_OFFERED LO latches, as 64-bit numbers (R563). -/
def Stream.counters (s : Stream) : List Nat :=
  [s.offered, s.written, s.lostIngest, s.lostRing, s.lostLate, s.gaps, s.overwritten]

def Core.readStream (c : Core) (h : Hit) : Live :=
  let k := h.inst
  let s := c.stream k
  let n (i : Nat) : Nat := ((if s.latch = [] then s.counters else s.latch).getD i 0)
  if h.key = A.RS_OFFERED then .part (word64 (n 0) h.w)
  else if h.key = A.RS_WRITTEN then .part (word64 (n 1) h.w)
  else if h.key = A.RS_LOST_INGEST then .part (word64 (n 2) h.w)
  else if h.key = A.RS_LOST_RING then .part (word64 (n 3) h.w)
  else if h.key = A.RS_LOST_LATE then .part (wd (sat32 (n 4)))
  else if h.key = A.RS_GAPS then .part (wd (n 5))
  else if h.key = A.RS_OVERWRITTEN then .part (word64 (n 6) h.w)
  else if h.key = A.RS_RD_PTR then .part (wd s.rdPtr)
  else if h.key = A.RS_WR_PTR then .part (wd s.wrPtr)
  else if h.key = A.RS_SEG_SEQ then .part (wd s.segSeq)
  else if h.key = A.RS_RATE then .part (wd s.rateLast)
  else if h.key = A.RS_ENTRIES then .part (wd (c.spr.entries.filter fun e => e.stream == k).length)
  else if h.key = A.RS_STATUS then
    .part (wd ((match s.st with | .idle => 0 | .running => 1 | .stopped => 2) * 2 ^ 28 + flg s.loss.isSome 27 + flg s.gapUnreported 26 +
      flg s.geomPending 25 + flg s.peerSilent 24 + s.owner.getD 0 * 2 ^ 20 + flg s.owner.isSome 19 +
      min 1000 (s.ring.length * 1000 / max 1 (c.rsSize k))))
  else .stored

def Core.readRecorder (c : Core) (h : Hit) (sess : Nat) : Live :=
  let r := c.spr
  let e := r.entries[c.selOf sess A.RR_ENT_SEL]?
  if h.key = A.RR_RATE then .part (wd r.unitsLast)
  else if h.key = A.RR_RATE_MAX then .part (wd r.unitsMax)
  else if h.key = A.RR_OBS_RATE then .part (wd r.obsLast)
  else if h.key = A.RR_STAGE_USE then
    .part (wd ((List.range 16).foldl (fun n k => n + (c.stream k).staged) 0 + (List.range 64).foldl (fun n u => n + (c.unit u).staged) 0))
  else if h.key = A.RR_META_TAG then .full (wd (c.selOf sess A.RR_META_TAG))
  else if h.key = A.RR_META_LO then .part (loW (c.metaOf (c.selOf sess A.RR_META_TAG)))
  else if h.key = A.RR_META_HI then .part (hiW (c.metaOf (c.selOf sess A.RR_META_TAG)))
  else if h.key = A.RR_AP_SEL then .full (wd (c.selOf sess A.RR_AP_SEL))
  else if h.key = A.RR_ENT_SEL then .full (wd (c.selOf sess A.RR_ENT_SEL))
  else if h.key = A.RR_APERTURE then
    .part ((((c.stream (c.selOf sess A.RR_AP_SEL)).ring[h.i / 4]?).map fun u => unitWord u (h.i % 4)).getD 0)
  else if h.key = A.RR_ENT_TAG then .part ((e.map fun x => wd (x.tag + x.stream * 2 ^ 25)).getD 0)
  else if h.key = A.RR_ENT_DEADBAND then .full ((e.map fun x => x.deadband).getD 0)
  else if h.key = A.RR_ENT_CFG then
    .full ((e.map fun x => wd (x.heartbeat * 65536 + x.div * 2 ^ 12 + x.k * 256 + x.mode)).getD 0)
  else .stored

/-! ## Block 0x0C and the capture windows (R583, R601, R604 to R608) -/

/-- The held capture that a session has selected: unit and basin (R601). -/
def Core.selCapture (c : Core) (sess : Nat) : Option (Nat × Basin) :=
  let v := c.selOf sess A.CP_AP_SEL
  ((c.unit (v % 64)).held[v / 256 % 16]?).map fun b => (v % 64, b)

/-- The read-out of a held capture (R600). -/
def Core.captureWords (c : Core) (u : Nat) (b : Basin) : List Word :=
  capWords c.up.boot.boots (c.fld (cpA A.CP_CFG u) 31 28) (c.rowBytes u) u ((List.range (c.cpTags u)).map (c.cpTag u)) b (c.rowTimes u)

def Core.readCapture (c : Core) (h : Hit) (sess : Nat) : Live :=
  let t := c.trig h.i
  if h.key = A.CP_LOAD then .part (wd c.cpLoad)
  else if h.key = A.CP_WRITE_RATE then .part (wd c.cap.bytesLast)
  else if h.key = A.TL_HEAD then .part (match c.cap.log with | e :: _ => wd e.index | [] => 0xFFFFFFFF)
  else if h.key = A.CP_DISCARDED then .part (wd (sat32 c.cap.discarded))
  else if h.key = A.CP_AP_SEL then .full (wd (c.selOf sess A.CP_AP_SEL))
  else if h.key = A.CP_AP_OFFSET then .full (wd (c.selOf sess A.CP_AP_OFFSET))
  else if h.key = A.TR_COUNT then .part (wd (sat32 t.count))
  else if h.key = A.TR_LAST_SEC then .part (timeWord t.lastTime 1)
  else if h.key = A.TR_LAST_NS then .part (timeWord t.lastTime 2)
  else if h.key = A.TR_LAST_FRAC then .part (timeWord t.lastTime 3)
  else if h.key = A.TL then
    .part (match c.cap.log.find? (fun e => e.index % 64 == h.i) with | some e => e.words.getD h.w 0 | none => 0)
  else if h.key = A.CP_APERTURE then
    .part (match c.selCapture sess with
      | some (u, b) => if c.selOf sess A.CP_AP_OFFSET % 4 = 0 then (c.captureWords u b).getD (c.selOf sess A.CP_AP_OFFSET / 4 + h.i) 0 else 0
      | none => 0)
  else if h.key = A.TR_STATUS then
    .part (wd ((number 0 t.held).foldl (fun n p => n + flg p.2.isSome (16 + p.1)) 0 + satN 8 t.run * 256 + flg (t.armRise || t.armFall) 0))
  else .stored

def Core.readUnit (c : Core) (h : Hit) : Live :=
  let x := c.unit h.inst
  if h.key = A.CP_ROWS then .part (wd ((x.cur.map fun b => b.rows.length).getD 0))
  else if h.key = A.CP_MISSED then .part (wd (sat32 x.missed))
  else if h.key = A.CP_RETRIG then .part (wd (sat32 x.retrig))
  else if h.key = A.CP_CAPTURES then .part (wd x.captures)
  else if h.key = A.CP_SPILL_LOST then .part (wd (sat32 x.spillLost))
  else if h.key = A.CP_STATUS then
    let st := match x.st with | .idle => 0 | .arming => 1 | .armed => 2 | .triggered => 3 | .hold => 4
    .part (wd (st * 2 ^ 28 + x.held.length * 2 ^ 23 + x.refuse * 2 ^ 20 + flg x.overflow 19 + flg x.loadWarn 18))
  else .stored

/-! ## Block 0x0D: the Tarn 5 mirror (R770 to R773); channel W writes SF_W_STATE itself -/

def readIsland (m : Island) (w : Chan) (wOn : Nat) (h : Hit) : Live :=
  let mask (n : Nat) (p : Nat → Bool) : Nat := (List.range n).foldl (fun r i => r + flg (p i) i) 0
  let i := h.i
  let f := m.fn i
  let b := m.brk i
  let on (st : FnState) : Nat := mask 8 fun n => (m.fn n).st == st
  let cause : Nat := if m.byW ∧ m.w.locked then m.w.cause else if m.p.locked then m.p.cause else if m.w.locked then m.w.cause else 0
  let detail : Nat := if m.byW ∧ m.w.locked then m.w.detail else if m.p.locked then m.p.detail else m.w.detail
  if h.key = A.SF_BLOCK_HASH then .part (fpWord m.blk.hash h.w)
  else if h.key = A.SF_IN_DEMAND then
    .part (wd (mask 16 (fun k => (m.inp k).disc.isSome) * 65536 + mask 16 (fun k => (m.inDef k).enable && (m.inp k).demand)))
  else if h.key = A.SF_W_STATE then .part (wd (flg w.locked 31 + (if w.locked then w.cause else 0) * 65536 + wOn))
  else if h.key = A.SF_ECC_CORR then .part (wd m.eccCorr)
  else if h.key = A.SF_IN_DISC then .part (wd (sat32 (10 * (m.inp i).lastDisc)))
  else if h.key = A.SF_IN_DEMANDS then .part (wd (m.inp i).demands)
  else if h.key = A.SF_OUT_DARK then .part (wd (satN 16 f.abandoned * 65536 + satN 16 f.passed))
  else if h.key = A.SF_BRK_LAST_S then .part (wd (sat32 ((m.now - b.lastPass) / 100000)))
  else if h.key = A.SF_BRK_DEV then .part (wd (sat32 b.dev))
  else if h.key = A.SF_TP then .part (wd (satN 16 (m.tp i).untested * 65536 + satN 16 (m.tp i).pulses))
  else if h.key = A.SF_CONN then
    .part (if i < m.blk.conns.length then
      wd (flg ((m.connDef i).inbound && (m.conn i).timeout) 31 + flg (m.connDef i).inbound 30 + satN 8 (m.conn i).jumps * 65536 + (m.connDef i).safeId)
      else 0)
  else if h.key = A.SF_CONN_SEQ then .part (wd ((m.conn i).seq.getD 0))
  else if h.key = A.SF_FAULT then
    .part (match m.faults[i]? with
      | some r => [wd r.cause, wd r.path, wd (flg r.channelW 0), timeWord r.time 0, timeWord r.time 1, timeWord r.time 2,
          wd (fracOf r.time * 65536), wd r.detail].getD h.w 0
      | none => 0)
  else if h.key = A.SF_STATUS then
    .part (wd (flg m.locked 31 + flg m.block.isSome 30 + flg (decide (m.pLost < 3) && !m.p.inReset) 29 + flg (decide (m.wLost < 4) && !m.w.inReset) 28 +
      on .waitRestart * 65536 + on .ss1 * 256 + mask 8 fun n => (m.fn n).pinP && (m.fn n).pinW))
  else if h.key = A.SF_LOCK then .part (if m.locked then wd (cause * 2 ^ 24 + flg m.byW 23 + detail) else 0)
  else if h.key = A.SF_RST then .part (wd (m.rstResult * 2 ^ 28 + satN 16 m.pressMs))
  else if h.key = A.SF_IN then
    let x := m.inp i
    let en := (m.inDef i).enable
    .part (wd (flg en 31 + flg (en && x.demand) 30 + flg (en && !x.a.lvl) 29 + flg (en && !x.b.lvl) 28 + flg x.a.test 27 + flg x.b.test 26))
  else if h.key = A.SF_OUT then
    .part (wd ((match f.st with | .off => 0 | .on => 1 | .ss1 => 2 | .waitRestart => 3) * 2 ^ 28 + flg f.pinP 27 + flg f.pinW 26 + flg f.rb 25 +
      flg f.dark.isSome 24))
  else if h.key = A.SF_BRK then
    .part (wd (flg b.released 31 + flg b.rb 30 + flg b.req 29 + flg b.test.isSome 28 + flg b.failed 27 + flg b.overdue 26 + (m.brkDef i).axis))
  else .stored

/-! ## Blocks 0x0E and 0x0F (R726, R829 to R831) -/

def Core.readMem (c : Core) (h : Hit) : Live :=
  let m := c.mem
  if h.key = A.MM_DRAM_SIZE then .part (wd m.dramMib)
  else if h.key = A.MM_ECC_CORR then .part (wd (sat32 m.eccCorr))
  else if h.key = A.MM_ECC_UNCORR then .part (wd (sat32 m.eccUncorr))
  else if h.key = A.MM_ECC_ADDR_LO then .part (wd m.eccAddr)
  else if h.key = A.MM_ECC_ADDR_HI then .part (wd (m.eccAddr / 2 ^ 32))
  else if h.key = A.MM_NVM0_MBIT then .part (wd m.nvm0)
  else if h.key = A.MM_NVM1_MBIT then .part (wd m.nvm1)
  else if h.key = A.MM_MRAM_KBIT then .part (wd (c.prog.jr.capacity * 8 / 1024))
  else if h.key = A.MM_TARN_COLL then .part (wd (sat32 (SMap.get 0 m.collisions h.i)))
  else .stored

def Core.readPower (c : Core) (h : Hit) : Live :=
  let p := c.pw
  if h.key = A.PW_FEED_STATUS then .part (wd (flg p.feedB 3 + flg p.feedA 2 + flg p.vkaB 1 + flg p.vkaA 0))
  else if h.key = A.PW_VCORE then .part (wd p.vcore)
  else if h.key = A.PW_UV_RESETS then .part (wd (sat32 p.uvResets))
  else if h.key = A.PW_TEMP_MAX then .part (wi p.tempMax)
  else if h.key = A.PW_TEMP then .part (wi (p.temps.getD h.i 0))
  else if h.key = A.PW_PACE_STATUS then .part (wd (p.band * 256 + flg p.paceReq 7 + c.fab.throttle / 10))
  else .stored

/-! ## The read of a word -/

/-- How a register's word arises. -/
def Dev.live (d : Dev) (h : Hit) (sess : Nat) : Live :=
  let c := d.core
  if h.key < 0x100000 then
    let b := h.key / 0x10000
    let o := h.key % 0x10000
    if o < 0x10 ∨ (0x8000 ≤ o ∧ o < 0x8010) then c.readHdr h
    else match b with
      | 0 => c.readDev h | 1 => c.readMgmt h | 2 => c.readPlumb h | 3 => c.readAsh h | 4 => c.readLintel h | 5 => c.readMortar h
      | 6 => c.readFabric h | 7 => c.readQueues h sess | 8 => c.readProg h | 9 => c.readLoops h sess | 11 => c.readRecorder h sess
      | 12 => c.readCapture h sess
      | 13 => readIsland c.mirror d.isl.w ((List.range 8).foldl (fun n i => n + flg (d.isl.fn i).pinW i) 0) h
      | 14 => c.readMem h | 15 => c.readPower h | _ => .stored
  else if h.key < 0x02000000 then c.readLoop h
  else if h.key < 0x03000000 then c.readAxis h
  else if h.key < 0x03100000 then c.readUnit h
  else if h.key < 0x04000000 then c.readStream h
  else c.readMod h

/-- The tag window (R44). -/
def inTagWindow (a : Nat) : Bool := decide (0x10000000 ≤ a) && decide (a < 0x20000000)

/-- The word at an address as a read by a session finds it: 0 at a reserved address (R32), Cold values in the window of an
instance that is not configured (R33). -/
def Dev.readWord (d : Dev) (sess a : Nat) : Word :=
  if inTagWindow a then
    if a % 4 ≠ 0 then 0
    else let v := d.core.tagVal ((a - 0x10000000) / 8); if a % 8 = 0 then loW v else hiW v
  else match regAt a with
    | none => 0
    | some h => if d.core.configured h then mergeLive h.flds (d.core.reg a) (d.live h sess) else mergeLive h.flds (coldOf a) .stored

/-- The status of a read of one word (R32, R48, R193, R403, R422, R601): a tag that nothing assigns has TYPE 0 (R532). -/
def Core.readStatus (c : Core) (sess a : Nat) : Nat :=
  if a % 4 ≠ 0 then 0x07
  else if inTagWindow a then if (c.metaOf ((a - 0x10000000) / 8)).toNat / 2 ^ 60 = 0 then 0x05 else 0
  else match regAt a with
    | none => 0x05
    | some h =>
      if h.key = A.LE_TBL_NODE then (if c.image.loops.contains (c.selOf sess A.LE_TBL_SEL) then 0 else 0x06)
      else if h.key = A.LE_BIN then
        let b := c.selOf sess A.LE_BIN_SEL
        if !c.image.loops.contains b then 0x06 else if c.rcN b ≤ 2 * h.i then 0x05 else 0
      else if h.key = A.CP_APERTURE then
        if c.selOf sess A.CP_AP_OFFSET % 4 ≠ 0 then 0x07 else if (c.selCapture sess).isNone then 0x06 else 0
      else 0

/-! ## What a read changes (R7, R64, R480, R563) -/

/-- The RC fields that typed state holds return to 0. -/
def Core.clearTyped (h : Hit) (sess : Nat) (c : Core) : Core :=
  let i := h.i
  if h.key = A.PB_TIN_LOST then c.onTin i fun x => { x with lost := 0 }
  else if h.key = A.PB_TOUT_COUNT then c.onTout i fun x => { x with missed := 0 }
  else if h.key = A.UP_RELAY_FWD then c.onUp fun u => { u with relayed := 0 }
  else if h.key = A.UP_RELAY_ABANDON then c.onUp fun u => { u with abandoned := 0 }
  else if h.key = A.UP_REFUSED then c.onUp fun u => { u with refusals := 0 }
  else if h.key = A.LN_PATH_MAX then c.onLn fun l => { l with pathMax := 0 }
  else if h.key = A.LN_STOMPED then c.onLnPort i fun p => { p with stomped := 0 }
  else if h.key = A.MR_EPOCH_MAX then c.onMr fun m => { m with epochMax := 0 }
  else if h.key = A.MR_HB_MISSED then c.onMr fun m => { m with hbMissed := 0 }
  else if h.key = A.MR_EPOCH_DISCARDED then c.onMr fun m => { m with discarded := 0 }
  else if h.key = A.FB_TILE_LATE then c.onTile i fun x => { x with late := 0 }
  else if h.key = A.FB_TILE_USE then c.onTile i fun x => { x with maxUse := 0 }
  else if h.key = A.FB_PACE then c.onFab fun f => { f with max1us := 0 }
  else if h.key = A.WQ_ITEM_LAT_MAX then c.onItem (c.selOf sess A.WQ_SEL) fun x => { x with latMax := 0 }
  else if h.key = A.WQ_REFUSED then c.onWq fun q => { q with refused := 0 }
  else if h.key = A.WQ_LATE_REL then c.onWq fun q => { q with lateRel := 0 }
  else if h.key = A.WQ_COMMIT_LOST then c.onWq fun q => { q with commitLost := 0 }
  else if h.key = A.WQ_DUP then c.onWq fun q => { q with dup := 0 }
  else if h.key = A.WQ_BAD_OP then c.onWq fun q => { q with badOp := 0 }
  else if h.key = A.WQ_PRIO_CANCEL then c.onWq fun q => { q with prioCancel := SMap.set 0 q.prioCancel i 0 }
  else if h.key = A.PG_OVR_TOTAL then c.onProg fun p => { p with ovrTotal := 0 }
  else if h.key = A.PG_SKIP_TOTAL then c.onProg fun p => { p with skipTotal := 0 }
  else if h.key = A.PG_RET_LAG_MAX then c.onJr fun j => { j with lagMax := 0 }
  else if h.key = A.LE_LOAD then { c with lp := { c.lp with loadMax := 0 } }
  else if h.key = A.LP_STALE_CNT then c.onLoop h.inst fun l => { l with ignored := 0, frozenEp := 0, staleEp := 0 }
  else if h.key = A.AX_REFUSED then c.onAxis h.inst fun x => { x with refused := 0 }
  else if h.key = A.AX_STEP_LAG then c.onAxis h.inst fun x => { x with lagMax := 0 }
  else if h.key = A.AX_IO_COUNT then c.onAxis h.inst fun x => { x with stalls := 0, encErrs := 0, limStops := 0 }
  else if h.key = A.RR_RATE_MAX then c.onRec fun r => { r with unitsMax := 0 }
  else if h.key = A.CP_DISCARDED then c.onCap fun p => { p with discarded := 0 }
  else if h.key = A.TR_COUNT then c.onTrig i fun t => { t with count := 0 }
  else if h.key = A.CP_MISSED then c.onUnit h.inst fun x => { x with missed := 0 }
  else if h.key = A.CP_RETRIG then c.onUnit h.inst fun x => { x with retrig := 0 }
  else if h.key = A.CP_SPILL_LOST then c.onUnit h.inst fun x => { x with spillLost := 0 }
  else if h.key = A.MS_COUNT then c.onMod h.inst fun x => { x with missed := 0, lost := 0, safeErr := 0 }
  else if h.key = A.MS_ERR then c.onMod h.inst fun x => { x with window := 0, outOfOrder := 0, repeated := 0 }
  else if h.key = A.MM_ECC_CORR then c.onMem fun m => { m with eccCorr := 0 }
  else if h.key = A.MM_ECC_UNCORR then c.onMem fun m => { m with eccUncorr := 0 }
  else if h.key = A.MM_TARN_COLL then c.onMem fun m => { m with collisions := SMap.set 0 m.collisions i 0 }
  else if h.key = A.PW_TEMP_MAX then c.onPw fun p => { p with tempMax := 0 }
  else c

/-- The RC fields of a register. -/
def rcMask (flds : List Fld) : Word := flds.foldl (fun m f => if f.acc = .rc then m ||| f.mask else m) 0

/-- Reading a register clears its RC fields (R7). -/
def Core.readClear (sess a : Nat) (c : Core) : Core :=
  if inTagWindow a then c else
  match regAt a with
  | none => c
  | some h =>
    let m := rcMask h.flds
    if m = 0 ∨ !c.configured h then c else (c.clearTyped h sess).setReg a (c.reg a &&& ~~~ m)

/-- The latch of a READ, or of the first word of a READ_BLOCK (R64, R480, R563). -/
def Core.readLatch (a : Nat) (c : Core) : Core :=
  if a = A.PB_TIME_SEC_HI then c.onPlumb fun p => { p with latch := p.now }
  else match regAt a with
    | some h =>
      if h.key = A.AX_POS ∧ h.w = 0 ∧ c.configured h then c.onAxis h.inst fun x => { x with latch := some (x.pos, x.vel, x.acc, x.actual) }
      else if h.key = A.RS_OFFERED ∧ h.w = 0 ∧ c.configured h then c.onStream h.inst fun s => { s with latch := s.counters }
      else c
    | none => c

end Sys2Proof.Machine
end

