-- ==== Sys2Proof/Machine/Write.lean ====
section
/-!
DEFINITION. Machine/Write.lean: one WRITE item: the tests of R193 and R11 in their order, and what each register does when it is
written; tag-window writes (R44 to R47, R196).
-/
namespace Sys2Proof.Machine

/-! ## Sessions' own registers (R297) -/

def Core.setSel (sess a : Nat) (v : Word) (c : Core) : Core :=
  if 16 ≤ sess then c else c.onSession sess fun s => { s with sel := (a, v) :: s.sel.filter fun p => p.1 != a }

/-! ## Tests on the fields (R5, R9 to R11) -/

/-- Whether a capture unit is idle for RWO fields (R586). -/
def Core.unitIdle (c : Core) (u : Nat) : Bool := (c.unit u).st == .idle || (c.unit u).st == .hold

/-- Whether the unit of an RWO field is closed or busy: R107, R376, R403, R422, R479, R586, R604, R646. -/
def Core.unitClosed (c : Core) (sess : Nat) (h : Hit) : Bool :=
  if h.key < 0x100000 then
    let b := h.key / 0x10000
    if b = 2 then
      if h.key = A.PB_PORT_ASYM ∨ h.key = A.PB_PORT_PTHR then false
      else if 0x20600 ≤ h.key ∧ h.key < 0x20800 then (c.tout h.i).st != .idle
      else c.running
    else if b = 3 then c.running
    else if b = 9 then
      if h.key = A.LE_TBL_NODE then (c.loop (c.selOf sess A.LE_TBL_SEL)).mode == .closed
      else (c.loop (c.selOf sess A.LE_BIN_SEL)).mode == .closed
    else if b = 12 then (if h.key = A.CP_TAG then !c.unitIdle h.i else c.flag (A.TR_CTL + 0x20 * h.i) 0)
    else false
  else if h.key < 0x02000000 then (c.loop h.inst).mode == .closed
  else if h.key < 0x03000000 then !(c.axis h.inst).atRest
  else if h.key < 0x03100000 then !c.unitIdle h.inst
  else c.running

/-- The two words of a 64-bit register as a HI write leaves them. -/
def Core.wide (c : Core) (h : Hit) (a : Nat) (nw : Word) : Nat :=
  let lo := ((c.host.loHeld.find? fun p => p.1 == a - 4).map fun p => p.2).getD (c.reg (a - 4))
  if h.w = 1 then lo.toNat + nw.toNat * 2 ^ 32 else 0

/-- Limits of R445, for which zero is no value. -/
def nonZeroLimits : List Nat :=
  [A.AX_VMAX, A.AX_ACC_LIM, A.AX_DEC, A.AX_STOP_DEC, A.AX_JERK, A.AX_QSTOP_DEC, A.AX_SYNC_ACC, A.AX_SYNC_VEL, A.AX_JOG_VEL]

/-- Values that a chapter refuses beside the ranges of the fields; `nw` is the word that the write would leave. -/
def Core.badValue (c : Core) (h : Hit) (a : Nat) (nw : Word) : Bool :=
  if h.key = A.PB_PORT_CTL then
    let role := bits nw 1 0
    let second := (List.range 12).any fun q => q != h.i && c.ptpRole q == 2
    (c.lineProfile && role == 2 && second) ||
      (decide (h.i < 8) && c.ashRole h.i != 5 && decide (1 < role))
  else if h.key = A.PB_TIME_CTL then
    nw.getLsbD 0 && decide (1 < ((List.range 12).filter fun q => c.ptpRole q == 2).length)
  else if h.key = A.PB_SET_NS then decide (999999999 < nw.toNat)
  else if h.key = A.LP_OUT_LIM then decide (sx 16 (bits nw 31 16) < sx 16 (bits nw 15 0))
  else if h.key = A.LP_STALE_CTL then
    let n := h.inst
    let pk := c.fld (ashA A.ASH_PORT_CFG (modPort (tagIndex (c.lpFld A.LP_FB_TAG n 24 0) / 1024))) 3 0
    let lk := c.lpFld A.LP_CFG n 2 0
    let sn := bits nw 23 16
    sn != 0 && decide (lk < pk) && decide (sn < 2 ^ (pk - lk))
  else if nonZeroLimits.contains h.key then h.w == 1 && c.wide h a nw == 0
  else if h.key = A.AX_MODULUS then
    h.w == 1 && c.axModulo h.inst && (decide (c.wide h a nw < 2) || decide (2 ^ 62 < c.wide h a nw))
  else if h.key = A.AX_BOOST_LIM then decide (bits nw 15 0 < c.axFld A.AX_CURRENT h.inst 31 16)
  else if h.key = A.TR_CFG then
    let k := bits nw 31 28
    decide (8 < k) || (decide (1 ≤ k) && decide (k ≤ 4) && bits nw 27 26 == 0) || (k == 1 && decide (31 < bits nw 21 16)) ||
      (k == 4 && bits nw 15 8 == 0)
  else if h.key = A.TR_HYST then h.w == 1 && badHyst (c.tagType (c.regN (A.TR_TAG + 0x40 * h.i))) (BitVec.ofNat 64 (c.wide h a nw))
  else if h.key = A.CP_PRE_ROWS then decide (c.basinRows h.inst < nw.toNat)
  else if h.key = A.LE_MS_LEN then decide (4096 < nw.toNat)
  else if h.key = A.RR_ENT_CFG then decide (60000 < bits nw 31 16)
  else if h.key = A.AX_JOG then bits nw 1 0 == 3
  else false

/-- Whether a running injection uses a multisine table (R428). -/
def Core.tableUsed (c : Core) (t : Nat) : Bool :=
  c.image.loops.any fun n => ((c.loop n).inj.running || (c.loop n).inj.waiting) && c.injField n 29 28 == 3 && c.injField n 23 21 == t

/-- Refusals of single registers beside those of their fields: statuses, in no order. -/
def Core.ownRefusals (c : Core) (sess : Nat) (h : Hit) (v : Word) : List Nat :=
  if h.key = A.PB_SET_NS then (if c.anySlave then [0x03] else [])
  else if h.key = A.WQ_CMD then
    match c.itemDef (bits v 15 0) with
    | some d => (if d.hostOk then [] else [0x0B]) ++ (if c.running then [] else [0x09])
    | none => 0x08 :: (if c.running then [] else [0x09])
  else if h.key = A.RC_CTL then
    (if bit v 2 ∧ (c.loop h.inst).mode = .closed ∧ (c.loop h.inst).lrn.w ≠ 0 then [0x03] else [])
  else if h.key = A.LE_MS_LEN then (if c.tableUsed h.i then [0x0F] else [])
  else if h.key = A.LE_MS_DATA then (if c.tableUsed (c.selOf sess A.LE_MS_SEL) then [0x0F] else [])
  else if h.key = A.AX_JOG then
    let st := (c.axis h.inst).st
    (if st = .standstill ∨ st = .jogging then [] else [0x03])
  else if h.key = A.AX_HOME_CTL then
    (if bits v 1 0 = 1 then (match c.homeStatus h.inst with | 0 => [] | s => [s]) else [])
  else if h.key = A.RS_CTL then
    (match (c.stream h.inst).owner with | some o => if bit v 2 ∧ o ≠ sess then [0x0C] else [] | none => [])
  else if h.key = A.RS_ACK then
    let s := c.stream h.inst
    (if s.owner = some sess then [] else [0x0C]) ++ (if c.rsDest h.inst = 0 ∨ c.rsDest h.inst = 2 then [0x0B] else []) ++
      (if v.toNat = 0 ∨ s.ring.length < v.toNat then [0x08] else [])
  else if h.key = A.TR_CTL then (if bit v 1 ∧ c.trigKind h.i ≠ 5 then [0x08] else [])
  else []

/-- The order in which statuses answer (R11). -/
def statusOrder : List Nat := [0x01, 0x02, 0x0C, 0x0B, 0x09, 0x03, 0x0F, 0x08]

/-- The first refusal that applies; 0 for none. -/
def firstStatus (l : List Nat) : Nat := ((statusOrder.find? fun s => l.contains s)).getD 0

/-- All refusals of a write to a register (R5, R9 to R11). -/
def Core.refusals (c : Core) (sess : Nat) (h : Hit) (a : Nat) (v mask nw : Word) : List Nat :=
  let cov := h.flds.filter fun f => (f.mask &&& mask) != 0
  (if 0xD0000 ≤ a ∧ a < 0xE0000 then [0x01] else []) ++
  cov.flatMap (fun f => match c.accOf h f with
    | .ro | .rc => [0x01]
    | .rws => if c.md.mode ≠ .service then [0x02] else if c.host.svcOwner ≠ some sess then [0x0C] else []
    | .rwo => if c.unitClosed sess h then [0x03] else []
    | _ => []) ++
  (cov.flatMap fun f => if fldOk nw f || h.flds.length == 1 && f.acc == .wo then [] else [0x08]) ++
  (if cov.isEmpty then [] else (if c.badValue h a nw then [0x08] else []) ++ c.ownRefusals sess h (v &&& mask))

/-! ## What a write does -/

/-- The plain effect: the word is stored. -/
def Core.store (h : Hit) (a : Nat) (v mask : Word) (c : Core) : Core := c.setReg a (storeWrite h (c.reg a) v mask false)

/-- PB_SET_SEC_HI, PB_SET_SEC_LO: the word waits for PB_SET_NS (R84). -/
def Core.storeSet (h : Hit) (a : Nat) (v mask : Word) (c : Core) : Core := c.setReg a (storeWrite h (c.reg a) v mask true)

/-- PB_PORT_ASYM (R74). -/
def Core.asymWritten (p : Nat) (c : Core) : Core := c.onPtpPort p fun q => { q with asymUnverified := false }

/-- PB_TOUT_CMD (R121, R122). -/
def Core.toutCmd (m : Nat) (v : Word) (c : Core) : Core × Nat :=
  if bit v 1 then (c.toutDisarm m, 0) else if bit v 0 then c.toutArm m else (c, 0)

/-- WQ_CMD, past its refusals (R290, R300). -/
def Core.wqCmd (sess : Nat) (v : Word) (c : Core) : Core × Nat :=
  let op := bits v 31 30
  let sec := secOf c.now / 2 ^ 32 * 2 ^ 32 + c.selOf sess A.WQ_REL_SEC
  let nsv := c.selOf sess A.WQ_REL_NS
  if op = 0 then (c, 0)
  else c.queueOp (if op = 1 then 0xD0 else if op = 2 then 0xD1 else 0xD2) (bits v 15 0) (sec * second + ns nsv, decide (nsv ≤ 999999999))

/-- PG_OLC_CMD (R357). -/
def Core.olcCmd (v : Word) (c : Core) : Core × Nat :=
  if bit v 1 then (c.olcDisarm, 0) else if bit v 0 then c.olcArm else (c, 0)

/-- RC_CTL, past its refusals (R420, R421). -/
def Core.rcCtl (n : Nat) (v mask : Word) (c : Core) : Core :=
  let w := v &&& mask
  let c1 := if bit w 2 then c.onLrn n fun x => { x with clearReq := true } else c
  if bit w 0 then c1.onLrn n fun x => { x with abtFrozen := false } else c1

/-- INJ_CTL in Service by its owner (R429, R431, R438). -/
def Core.injCtl (n : Nat) (v : Word) (c : Core) : Core × Nat :=
  if bit v 1 then (c.injEnd n 2, 0) else if bit v 0 then c.injStart n else (c, 0)

/-- A coefficient of a loop: the old word stays noted until the next period start (R377). -/
def Core.coefWrite (h : Hit) (a : Nat) (v mask : Word) (c : Core) : Core :=
  let o := a % 0x100
  let c1 := if (h.flds.any fun f => f.acc == .rwo && (f.mask &&& mask) != 0) then
      c.onLoop h.inst fun l => { l with coefOld := if l.coefOld.any (fun p => p.1 == o) then l.coefOld else l.coefOld ++ [(o, c.reg a)] }
    else c
  c1.store h a v mask

/-- AX_CMD (R467 to R469). -/
def Core.axCmd (a : Nat) (v : Word) (c : Core) : Core :=
  if bits v 1 0 = 0 then c else c.axInput a (.command (bits v 1 0) true)

/-- AX_JOG, past its refusals (R471). -/
def Core.jogWrite (a : Nat) (v : Word) (c : Core) : Core :=
  (c.onAxis a fun x => { x with jogLast := c.now }).axInput a (.jog (bits v 1 0))

/-- AX_HOME_CTL, past its refusals (R517, R523, R528). -/
def Core.homeCtl (a : Nat) (v : Word) (c : Core) : Core :=
  if bit v 1 then (if (c.axis a).st = .homing then c.stop3 a 5 else c) else if bit v 0 then c.homeBegin a else c

/-- A word of a 64-bit register: LO waits for HI, which makes both take effect (R464 to R466). -/
def Core.wideWrite (h : Hit) (a : Nat) (nw : Word) (c : Core) : Core :=
  if h.w = 0 then c.onHost fun x => { x with loHeld := (a, nw) :: x.loHeld.filter fun p => p.1 != a }
  else
    let v := c.wide h a nw
    let c1 := c.onHost fun x => { x with loHeld := x.loHeld.filter fun p => p.1 != a - 4 }
    let sel := if h.key = A.AX_VMAX then 0 else if h.key = A.AX_ACC_LIM then 1 else if h.key = A.AX_DEC then 2
      else if h.key = A.AX_STOP_DEC then 3 else 4
    if sel < 4 then c1.axSetLimit h.inst sel v else c1.setReg64 (a - 4) v

/-- RS_CTL, past its refusals (R551, R553). -/
def Core.rsCtl (sess k : Nat) (v : Word) (c : Core) : Core :=
  let c1 := if bit v 2 then c.onStream k fun s => { s with owner := some sess } else c
  let c2 := if bit v 3 ∧ (c1.stream k).owner = some sess then c1.onStream k fun s => { s with owner := none } else c1
  if bit v 1 then c2.rsStop k else if bit v 0 then c2.rsStart k else c2

/-- RS_ACK, past its refusals (R553). -/
def Core.rsAckWrite (k n : Nat) (c : Core) : Core :=
  c.onStream k fun s => { s with ring := s.ring.drop n, rdPtr := (s.rdPtr + n) % max 1 (c.rsSize k) }

/-- RS_MARK (R560). -/
def Core.rsMarkWrite (k : Nat) (v : Word) (c : Core) : Core := c.putMark k c.now (v.setWidth 64) 0xFFFF 2

/-- TR_CTL, past its refusals: ENABLE, then FIRE (R570, R578). -/
def Core.trCtl (x : Nat) (v mask : Word) (c : Core) : Core :=
  let c1 := if bit mask 0 then c.trEnable x (bit v 0) else c
  if bit (v &&& mask) 1 ∧ c1.trigRuns x then c1.fire x c1.now else c1

/-- CP_CTL: DISARM alone, else RELEASE, ARM and TRIGGER in this order; an ARM that R587 refuses after the RELEASE refuses the whole
write, so that neither RELEASE nor TRIGGER acts (R11, R587, R593, R597, R608; notes/assumptions/95.md). -/
def Core.cpCtl (u : Nat) (v : Word) (c : Core) : Core × Nat :=
  if bit v 1 then (c.disarm u, 0)
  else
    let c1 := if bit v 2 then c.release u else c
    match if bit v 0 then c1.armRefuse u else none with
    | some (r, status, ev) => (c.armRefused u r ev, status)
    | none =>
      let c2 := if bit v 0 then (c1.arm u c1.now).1 else c1
      (if bit v 3 then c2.unitFire u c2.now 2 else c2, 0)

/-- LN_NB_CTL (R664, R680). -/
def Core.nbCtl (u : Nat) (v : Word) (c : Core) : Core := if bit v 1 then c.lnForget u else if bit v 0 then c.lnApprove u else c

/-- MR_CTL and MR_PARTNER_CTL (R716, R725). -/
def Core.mrCtl (v : Word) (c : Core) : Core × Nat := if bit v 0 then c.mrYield else if bit v 1 then c.mrResync else (c, 0)
def Core.partnerCtl (v : Word) (c : Core) : Core := if bit v 1 then c.mrForget else if bit v 0 then c.mrApprove else c

/-- LE_TBL_NODE and LE_BIN: the covered halves wait for the next period start (R377, R422). -/
def Core.nodeWrite (n j : Nat) (mask nw : Word) (c : Core) : Core :=
  let lo := if bits mask 15 0 = 0 then [] else [(2 * j, bits nw 15 0)]
  let hi := if bits mask 31 16 = 0 ∨ j = 32 then [] else [(2 * j + 1, bits nw 31 16)]
  c.onLoop n fun l => { l with nodeReq := l.nodeReq ++ lo ++ hi }
def Core.binWrite (n j : Nat) (mask nw : Word) (c : Core) : Core :=
  let lo := if bits mask 15 0 = 0 then [] else [(2 * j, loQ nw)]
  let hi := if bits mask 31 16 = 0 ∨ c.rcN n ≤ 2 * j + 1 then [] else [(2 * j + 1, hiQ nw)]
  c.onLrn n fun l => { l with binReq := l.binReq ++ lo ++ hi }

/-- LE_MS_LEN and LE_MS_DATA (R428). -/
def Core.msWrite (t j : Nat) (nw : Word) (c : Core) : Core :=
  { c with lp := { c.lp with ms := SMap.set 0 (SMap.set 0 c.lp.ms (t * 4096 + 2 * j) (loQ nw)) (t * 4096 + 2 * j + 1) (hiQ nw) } }

/-- The entry that a session selected takes a new DEADBAND or HEARTBEAT (R567, R568). -/
def Core.entryWrite (sess : Nat) (f : Entry → Entry) (c : Core) : Core :=
  let i := c.selOf sess A.RR_ENT_SEL
  c.onRec fun r => { r with entries := r.entries.modify i f }

/-- An accepted write of a register: `v` and `mask` as sent, `nw` the word that results; answers the status. -/
def Core.writeEffect (sess : Nat) (h : Hit) (a : Nat) (v mask nw : Word) (c : Core) : Core × Nat :=
  let w := v &&& mask
  let k := h.key
  match selMask k with
  | some m => (c.setSel sess k (nw &&& m), 0)
  | none =>
  if k = A.ID_DBG_CTL then (if bit w 0 then c.dbgClose else c, 0)
  else if k = A.PB_SET_SEC_HI ∨ k = A.PB_SET_SEC_LO then (c.storeSet h a v mask, 0)
  else if k = A.PB_SET_NS then (c.storeSet h a v mask).setTime nw
  else if k = A.PB_TIN_CTL then
    (if bit w 16 then (c.store h a v mask).onTin h.i fun x => { x with ovf := false } else c.store h a v mask, 0)
  else if k = A.PB_TOUT_CTL then ((c.store h a v mask).toutShow h.i (c.toutLevel h.i (c.tout h.i).pulse.isSome), 0)
  else if k = A.PB_TOUT_CMD then c.toutCmd h.i w
  else if k = A.PB_PORT_ASYM then ((c.store h a v mask).asymWritten h.i, 0)
  else if k = A.ASH_PORT_CTL then (if bit w 0 then c.reenum h.i else (c, 0))
  else if k = A.LN_NB_CTL then (c.nbCtl h.i w, 0)
  else if k = A.MR_CTL then c.mrCtl w
  else if k = A.MR_PARTNER_CTL then (c.partnerCtl w, 0)
  else if k = A.WQ_CMD then c.wqCmd sess w
  else if k = A.PG_FORCE_CMD then c.forceCmd (bits w 1 0)
  else if k = A.PG_OLC_CMD then c.olcCmd w
  else if k = A.LE_TBL_NODE then (c.nodeWrite (c.selOf sess A.LE_TBL_SEL) h.i mask nw, 0)
  else if k = A.LE_BIN then (c.binWrite (c.selOf sess A.LE_BIN_SEL) h.i mask nw, 0)
  else if k = A.LE_MS_LEN then ({ c with lp := { c.lp with msLen := SMap.set 0 c.lp.msLen h.i nw.toNat } }, 0)
  else if k = A.LE_MS_DATA then (c.msWrite (c.selOf sess A.LE_MS_SEL) h.i nw, 0)
  else if k = A.RR_ENT_DEADBAND then (c.entryWrite sess fun e => { e with deadband := nw }, 0)
  else if k = A.RR_ENT_CFG then (c.entryWrite sess fun e => { e with heartbeat := bits nw 31 16 }, 0)
  else if k = A.TR_CTL then (c.trCtl h.i v mask, 0)
  else if k = A.TR_LEVEL ∨ k = A.TR_HIGH ∨ k = A.TR_HYST then (c.wideWrite h a nw, 0)
  else if k = A.LP_CTL then (c.loopModeReq h.inst (bits w 1 0), 0)
  else if k = A.LP_SP then (c.onLoop h.inst fun l => { l with spReq := some (loQ nw) }, 0)
  else if k = A.LP_MAN_OUT then (c.onLoop h.inst fun l => { l with manReq := some (loQ nw) }, 0)
  else if k = A.RC_CTL then ((c.store h a v mask).rcCtl h.inst v mask, 0)
  else if k = A.INJ_CTL then c.injCtl h.inst w
  else if 0x01000000 ≤ k ∧ k < 0x02000000 then (c.coefWrite h a v mask, 0)
  else if k = A.AX_CMD then (c.axCmd h.inst w, 0)
  else if k = A.AX_STATUS then (if bit w 8 then c.onAxis h.inst fun x => { x with posWrapped := false } else c, 0)
  else if k = A.AX_JOG then (c.jogWrite h.inst nw, 0)
  else if k = A.AX_HOME_CTL then (c.homeCtl h.inst w, 0)
  else if 0x02000000 ≤ k ∧ k < 0x03000000 ∧ (regAt (a + 4)).any (fun g => g.key == k) ∨
      0x02000000 ≤ k ∧ k < 0x03000000 ∧ h.w = 1 then (c.wideWrite h a nw, 0)
  else if k = A.CP_CTL then c.cpCtl h.inst w
  else if k = A.RS_CTL then (c.rsCtl sess h.inst w, 0)
  else if k = A.RS_ACK then (c.rsAckWrite h.inst w.toNat, 0)
  else if k = A.RS_MARK then (c.rsMarkWrite h.inst w, 0)
  else (c.store h a v mask, 0)

/-! ## One item (R192, R193) -/

/-- Expert pages and halves (R12, R31). -/
def isExpert (a : Nat) : Bool :=
  if a < 0x100000 then decide (0x8000 ≤ a % 0x10000)
  else if a < 0x02000000 then decide (0x80 ≤ a % 0x100)
  else if a < 0x03000000 then decide (0x100 ≤ a % 0x200)
  else if a < 0x04000000 then decide (0x80 ≤ a % 0x100)
  else decide (0x20 ≤ a % 0x40)

/-- Whether a role may write at an address (R173). -/
def Role.mayWrite (r : Role) (a : Nat) : Bool :=
  match r with
  | .engineer => true
  | .operate => inTagWindow a || !isExpert a
  | _ => false

/-- NO_SUCH_ADDRESS and NOT_CONFIGURED beside R32 and R33: the selected loop of R403 and R422, and the pair of R725. -/
def Core.addressRefusal (c : Core) (sess : Nat) (h : Hit) : Nat :=
  if h.key = A.LE_TBL_NODE then (if c.image.loops.contains (c.selOf sess A.LE_TBL_SEL) then 0 else 0x06)
  else if h.key = A.LE_BIN then
    let b := c.selOf sess A.LE_BIN_SEL
    if !c.image.loops.contains b then 0x06 else if c.rcN b ≤ 2 * h.i then 0x05 else 0
  else if h.key = A.MR_CTL ∨ h.key = A.MR_PARTNER_CTL then (if c.image.pair.en then 0 else 0x06)
  else if c.configured h then 0 else 0x06

/-- The bits of an item's MASK that lie in fields that the register has; the others are in reserved positions (R4, R193). -/
def coverOf (h : Hit) (mask : Word) : Word := mask &&& usedMask h &&& h.flds.foldl (fun m f => m ||| f.mask) 0

/-- One item of a WRITE outside the tag window; answers its status. An item that covers no field changes nothing and is OK. -/
def Core.writeItem (sess : Nat) (role : Role) (x : WriteItem) (c : Core) : Core × Nat :=
  if x.addr % 4 ≠ 0 then (c, 0x07)
  else match regAt x.addr with
    | none => (c, 0x05)
    | some h =>
      if c.addressRefusal sess h = 0x05 then (c, 0x05)
      else if !role.mayWrite x.addr then (c, 0x0B)
      else if c.addressRefusal sess h ≠ 0 then (c, 0x06)
      else if coverOf h x.mask = 0 then (c, 0)
      else if c.md.mode = .minimal ∨ c.md.mode = .recovery then (c, 0x09)
      else
        let old : Word := match (Dev.live { core := c } h sess) with | .full w => w | _ => c.reg x.addr
        let old1 : Word := if h.w = 0 then ((c.host.loHeld.find? fun p => p.1 == x.addr).map fun p => p.2).getD old else old
        let old2 : Word := if (selMask h.key).isSome then wd (c.selOf sess h.key) else old1
        let mask := coverOf h x.mask
        let nw := ((old2 &&& ~~~ mask) ||| (x.value &&& mask)) &&& usedMask h
        let st := firstStatus (c.refusals sess h x.addr x.value mask nw)
        if st = 0 then c.writeEffect sess h x.addr x.value mask nw else (c, st)

/-- A whole tag written through the tag window (R46, R47). -/
def Core.writeTag (role : Role) (t : Tag) (v : DWord) (c : Core) : Core × Nat :=
  if !role.mayWrite 0x10000000 then (c, 0x0B)
  else if c.md.mode = .minimal ∨ c.md.mode = .recovery then (c, 0x09)
  else if !(c.metaOf t).getLsbD 53 then (c, 0x01)
  else (c.onProg fun p => { p with tagWrites := p.tagWrites ++ [(t, v)] }, 0)

/-- The two items that write one tag (R196). -/
def tagPair (x y : WriteItem) : Bool :=
  inTagWindow x.addr && x.addr % 8 == 0 && y.addr == x.addr + 4 && x.mask == 0xFFFFFFFF && y.mask == 0xFFFFFFFF

/-- Whether every item of a request that lies in the tag window is half of a whole tag (R46, R196). -/
def tagsWhole : List WriteItem → Bool
  | [] => true
  | [x] => !inTagWindow x.addr
  | x :: y :: l => if tagPair x y then tagsWhole l else !inTagWindow x.addr && tagsWhole (y :: l)

/-- One item by itself: an item in the tag window that is not half of a pair returns ALIGNMENT (R46, R196). -/
def Core.loneItem (sess : Nat) (role : Role) (x : WriteItem) (c : Core) : Core × Nat :=
  if inTagWindow x.addr then (c, 0x07) else c.writeItem sess role x

/-- The items of a WRITE in order, each with its status (R192 to R196). `stop` is STOP_ON_ERROR; `whole` says that the request
writes whole tags only, without which it writes none (R46; notes/assumptions/117.md). -/
def Core.runItems (sess : Nat) (role : Role) (stop whole : Bool) : List WriteItem → Core → Core × List Nat
  | [], c => (c, [])
  | [x], c =>
    let r := c.loneItem sess role x
    (r.1, [r.2])
  | x :: y :: l, c =>
    if whole ∧ tagPair x y then
      let r := c.writeTag role ((x.addr - 0x10000000) / 8) (y.value ++ x.value)
      if stop ∧ r.2 ≠ 0 then (r.1, [r.2, 0x10] ++ l.map fun _ => 0x10)
      else
        let k := Core.runItems sess role stop whole l r.1
        (k.1, [r.2, r.2] ++ k.2)
    else
      let r := c.loneItem sess role x
      if stop ∧ r.2 ≠ 0 then (r.1, r.2 :: (y :: l).map fun _ => 0x10)
      else
        let k := Core.runItems sess role stop whole (y :: l) r.1
        (k.1, r.2 :: k.2)

/-- The items of a WRITE (R192 to R196). -/
def Core.writeItems (sess : Nat) (role : Role) (stop : Bool) (l : List WriteItem) (c : Core) : Core × List Nat :=
  Core.runItems sess role stop (tagsWhole l) l c

/-- The header status of a WRITE: that of the first item that is not OK (R192). -/
def headStatus (l : List Nat) : Nat := (l.find? fun s => s != 0).getD 0

end Sys2Proof.Machine
end

