-- ==== Sys2Proof/Machine/Host.lean ====
section
/-!
DEFINITION. Machine/Host.lean: host access (04_host_access): discovery, sessions, datagrams and their forwarding, and how a request
is admitted, executed and answered.
-/
namespace Sys2Proof.Machine

/-! ## Discovery (R168 to R172) -/

/-- The beacon: PART, STEPPING, MODE, REASON, DEVICE_NUMBER, SERIAL, IDENTITY_FP, MGMT_PORT (R169). -/
def Core.beaconWords (c : Core) : List Nat :=
  [Config.part, Config.stepping, modeCode c.md.mode, c.md.reason, if c.image.chain = [] then 0xFFFF else c.devNum, Config.serial,
    Config.identityFp, c.fld A.HA_NET_CTL 15 0]

/-- The running second on the Plumb clock. -/
def Core.second_ (c : Core) : Nat := c.plumb.elapsed / second

/-- One more probe answer in the running second, if PROBE_RATE allows it (R171). -/
def Core.probeSlot (c : Core) : Option Core :=
  let n := if c.host.probeSecond.1 = c.second_ then c.host.probeSecond.2 else 0
  if n < c.fld A.HA_RATE_CTL 15 8 then some (c.onHost fun h => { h with probeSecond := (c.second_, n + 1) }) else none

/-- RELAY_ERROR to a host, at most once per second for a TARGET (R221). -/
def Core.relayError (host target reason : Nat) (c : Core) : Core :=
  let due : Bool := match SMap.get none c.host.relayErr target with
    | some t => decide (t + second ≤ c.plumb.elapsed)
    | none => true
  if due then (c.onHost fun h => { h with relayErr := SMap.set none h.relayErr target (some c.plumb.elapsed) }).sendPlain host 0x30 0 4 [reason, target]
  else c

/-- Whether a TARGET is another device of the chain. -/
def Core.elsewhere (c : Core) (target : Nat) : Bool := target != 0xFFFF && target != c.devNum

/-- The gateway forwards a datagram: the route of its session is kept, or the host hears why not (R219 to R221). A route opens with
the SESSION_INIT, whose SESSION is 0, and takes the session's identifier with the first datagram that bears it. -/
def Core.forward (target session host type pieces : Nat) (c : Core) : Core :=
  if !c.lnOn then c else
  let rs := c.host.routes
  match c.route target with
  | none => c.relayError host target (c.noRoute target)
  | some u =>
    let sent (d : Core) : Core := d.lnTrain u 0x11 pieces [target, type, session]
    let open_ : Bool := rs.any fun r => r.1 == target && r.2.1 == session && (session != 0 || r.2.2 == host)
    let pend : Bool := session != 0 && rs.contains (target, 0, host)
    if open_ then sent c
    else if pend then sent (c.onHost fun h => { h with routes := h.routes.map fun r => if r = (target, 0, host) then (target, session, host) else r })
    else if 64 ≤ rs.length then c.relayError host target 3
    else sent (c.onHost fun h => { h with routes := h.routes ++ [(target, session, host)] })

/-- A BEACON to a host (R169). -/
def Core.sendBeacon (dest : Nat) (c : Core) : Core := c.sendPlain dest 0x02 0 52 c.beaconWords

/-- The addresses 255.255.255.255 and ff02::1. -/
def everyHost : List Nat := [0xFFFFFFFF, 0xFF02 * 2 ^ 112 + 1]

/-- A PROBE (R168, R171, R220, R222). -/
def Core.probe (d : Dgram) (c0 : Core) : Core :=
  if c0.md.held then c0 else
  match c0.dgramIn 0x01 d with
  | (c, false) => c
  | (c, true) =>
    let answer (d1 : Core) : Core := match d1.probeSlot with
      | some e => e.sendBeacon d.src
      | none => d1
    if d.target = 0xFFFE then
      let c1 := c.onHost fun h => { h with prober := d.src }
      answer (if c1.lnOn then c1.lnEvery 0x11 [d.target, 0x01, 0] else c1)
    else if c.elsewhere d.target then
      (c.onHost fun h => { h with probes := h.probes ++ [(d.target, d.src)] }).forward d.target 0 d.src 0x01 1
    else answer c

/-- BEACON: the next periodic beacon goes to 255.255.255.255 and to ff02::1 (R170). -/
def Core.beacon (c : Core) : Core :=
  let p := c.fld A.HA_RATE_CTL 7 0
  if c.md.held ∨ p = 0 then c else
  let c1 := c.advanceTo (c.now + (c.host.lastBeacon + p * second - c.plumb.elapsed))
  forL everyHost (fun a k => k.sendBeacon a) (c1.onHost fun h => { h with lastBeacon := c1.plumb.elapsed })

/-! ## The handshake (R174 to R180) -/

/-- A handshake refused or dropped: counted, and reported once per second (R180, R230, R833). -/
def Core.hsRefused (c : Core) : Core := (c.bump A.HA_HS_REFUSED).raiseEvery second 0x0124 (path 1 3 allOf)

/-- SESSION_REJECT with its reason (R179). -/
def Core.reject (host ident reason : Nat) (c : Core) : Core := c.hsRefused.sendPlain host 0x13 ident 4 [reason]

/-- The highest role of a host key: 0 not authorised (R174); any key may OBSERVE in Recovery, and in Minimal without a key table
(R175). -/
def Core.keyRole (c : Core) (fp : Nat) : Nat :=
  if c.md.mode = .recovery ∨ (c.md.mode = .minimal ∧ c.up.runCfg.isNone) then 1
  else (c.image.hostKeys.filter fun k => k.fp == fp).foldl (fun n k => max n k.role) 0

def roleOf (n : Nat) : Role := match n with | 1 => .observe | 2 => .operate | 3 => .engineer | _ => .none

/-- A free channel, the lowest. -/
def Core.freeChan (c : Core) : Option Nat := (List.range 16).find? fun s => (c.session s).st == .free

/-- A channel is taken and SESSION_ACCEPT sent (R176, R177 step 2): DEV_NONCE, the device's public key, the ciphertext that carries the
shared secret to the host, and DEV_SIG over TH1. -/
def Core.hsStart (m : InitMsg) (s : Nat) (c : Core) : Core :=
  let n := if c.host.hsSecond.1 = c.second_ then c.host.hsSecond.2 else 0
  let id := c.host.nextIdent
  let nonce := Config.freeNat c.free % 2 ^ 256
  let text := Config.kemText m.ek c.free
  let th1 := Config.sha3 [m.nonce, m.fp, m.role, m.ek, nonce, Config.identityKey, text, id]
  (({ c with free := c.free + 1 }.onSession s fun _ => {
      st := .handshake, role := roleOf m.role, ident := id, fp := m.fp, addr := m.d.src, viaChain := m.d.viaChain
      hostNonce := m.nonce, devNonce := nonce, secret := Config.kemSecret m.ek c.free, th1 := th1
      lastRx := c.plumb.elapsed, hsStart := c.plumb.elapsed }).onHost fun h => { h with
        nextIdent := id % (2 ^ 32 - 1) + 1, hsSecond := (c.second_, n + 1) }).sendPlain m.d.src 0x11 id 6381
          [id, nonce, Config.identityKey, text, Config.sign th1]

/-- READY (R211). -/
def Core.ready (s role : Nat) (c : Core) : Core :=
  let hs := c.secureHdrs s 16 [0, 0x41, 0, role, s]
  let c1 := c.onSession s fun x => { x with txSeq := 1 }
  { c1 with out := c1.out ++ hs ++ [.resp s 0 0x41 0 [role, s]] }

/-- A handshake message is complete with the bytes of R176; one of another size is ignored (notes/assumptions/82.md). -/
def Core.hsWhole (d : Dgram) (bytes : Nat) (c : Core) : Core × Bool :=
  let (c1, n) := c.assemble (hsKey d) d d.length
  (c1, n == some bytes)

/-- SESSION_INIT (R168, R176, R177, R180, R219). -/
def Core.sessionInit (m : InitMsg) (c0 : Core) : Core :=
  if c0.md.held then c0 else
  match c0.dgramIn 0x10 m.d with
  | (c, false) => c
  | (c, true) =>
    if c.elsewhere m.d.target then c.forward m.d.target 0 m.d.src 0x10 (dgPieces m.d) else
    match c.hsWhole m.d 1252 with
    | (c1, false) => c1
    | (c1, true) =>
      if c1.fld A.HA_RATE_CTL 23 16 ≤ (if c1.host.hsSecond.1 = c1.second_ then c1.host.hsSecond.2 else 0) then c1.hsRefused
      else if m.d.version ≠ 1 then c1.reject m.d.src 0 7
      else if c1.keyRole m.fp = 0 then c1.reject m.d.src 0 1
      else if m.role = 0 ∨ c1.keyRole m.fp < m.role then c1.reject m.d.src 0 2
      else match c1.freeChan with
        | none => c1.reject m.d.src 0 4
        | some s => c1.hsStart m s

/-- A handshake ends without a session. -/
def Core.hsDrop (s reason : Nat) (c : Core) : Core :=
  (c.onHost fun h => { h with sess := SMap.set {} h.sess s {} }).reject (c.session s).addr (c.session s).ident reason

/-- The session opens under its keys, with READY as its first SECURE message (R177 step 5, R178, R211). -/
def Core.hsOpen (s hostKey : Nat) (c : Core) : Core :=
  let x := c.session s
  ((c.onSession s fun x => { x.keyed hostKey with st := .open, lastRx := c.plumb.elapsed }).ready s (roleNum x.role)).raise 0x0120 (path 1 3 s)

/-- SESSION_CONFIRM: the key must be the one that the SESSION_INIT named, and HOST_SIG must verify (R177). One that meets no handshake
of its channel and identifier is ignored: the model's choice, notes/assumptions/82.md. -/
def Core.sessionConfirm (m : ConfirmMsg) (c0 : Core) : Core :=
  if c0.md.held then c0 else
  match c0.dgramIn 0x12 m.d with
  | (c, false) => c
  | (c, true) =>
    if c.elsewhere m.d.target then c.forward m.d.target m.d.session m.d.src 0x12 (dgPieces m.d) else
    match c.hsWhole m.d 5261 with
    | (c1, false) => c1
    | (c1, true) =>
      let s := c1.session m.chan
      if s.st ≠ .handshake ∨ s.ident ≠ m.d.session ∨ 16 ≤ m.chan then c1
      else if s.hsStart + 2 * second < c1.plumb.elapsed then c1.hsDrop m.chan 6
      else if Config.sha3 [m.hostKey] ≠ s.fp ∨ !m.sigOk then c1.hsDrop m.chan 3
      else c1.hsOpen m.chan m.hostKey

/-- HANDSHAKE_TIMEOUT: 2 s after step 1 (R177). -/
def Core.hsTimeout (s : Nat) (c : Core) : Core :=
  let x := c.session s
  if x.st ≠ .handshake then c
  else (c.advanceTo (c.now + (x.hsStart + 2 * second - c.plumb.elapsed))).hsDrop s 6

/-! ## Protected traffic (R167, R181 to R183, R186, R189) -/

/-- The opcodes of R186 and R790 that a host may send. -/
def hostOp (op : Nat) : Bool := (decide (1 ≤ op) && decide (op ≤ 10)) || (decide (0x20 ≤ op) && decide (op ≤ 0x25))

/-- Whether a body of a length fits an opcode, with COUNT of a WRITE or SUBSCRIBE (R185, R186, R191 to R211, R790). -/
def bodyFits (op len count : Nat) : Bool :=
  decide (len ≤ 16372) && (match op with
    | 0x01 | 0x05 | 0x06 | 0x07 => len == 4
    | 0x02 => len == 4 + 12 * count
    | 0x03 | 0x21 | 0x22 => len == 8
    | 0x04 => len == 8 + 4 * count
    | 0x08 => len == 32
    | 0x20 => decide (16 ≤ len)
    | 0x23 => len == 20
    | _ => len == 0)

/-- A message is complete: it waits for execution, or is answered at once (R186, R189). An answer at arrival does not enter the store of
the last 16 responses, and a request that the store holds is answered from it: the model's choice, notes/assumptions/86.md. -/
def Core.messageIn (m : SecureMsg) (bytes : Nat) (c : Core) : Core :=
  let s := c.session m.chan
  let wait := c.onSession m.chan fun x => { x with waiting := x.waiting + 1 }
  if s.cache.any fun e => e.1 == m.req then wait
  else if !hostOp m.op ∨ !bodyFits m.op m.bodyLen m.count ∨ bytes ≠ 12 + m.bodyLen then c.sendResp m.chan m.req m.op 0x0D []
  else if 64 ≤ s.waiting then c.sendResp m.chan m.req m.op 0x0F []
  else wait

/-- A fragment of a message: its plaintext is LENGTH without the tag (R167, R181). -/
def Core.fragmentIn (m : SecureMsg) (c : Core) : Core :=
  match c.assemble m.chan m.d (m.d.length - 16) with
  | (c1, some n) => c1.messageIn m n
  | (c1, none) => c1

/-- Whether a SEQ has not been accepted and lies within 63 of the highest accepted (R182). -/
def Session.fresh (s : Session) (seq : Nat) : Bool :=
  !s.seqSeen.contains seq && decide (s.seqNext ≤ seq + 64) && decide (seq < s.seqNext + 63)

/-- SECURE: a datagram of an open session whose tag verifies under the session's key, the nonce of its SEQ and its header (R181,
R182). -/
def Core.secure (m : SecureMsg) (c0 : Core) : Core :=
  if c0.md.held then c0 else
  match c0.dgramIn 0x20 m.d with
  | (c, false) => c
  | (c, true) =>
    let s := c.session m.chan
    if c.elsewhere m.d.target then c.forward m.d.target m.d.session m.d.src 0x20 (dgPieces m.d)
    else if s.st ≠ .open ∨ s.ident ≠ m.d.session ∨ !m.authentic ∨ !s.fresh m.d.seq ∨ m.d.length < 16 then c.bump A.HA_AUTH_FAIL
    else
      let next := max s.seqNext (m.d.seq + 1)
      let c1 := c.onSession m.chan fun x => { x with
        lastRx := c.plumb.elapsed, seqNext := next, seqSeen := (m.d.seq :: x.seqSeen).filter fun q => decide (next ≤ q + 64) }
      let c2 := c1.fragmentIn m
      if 2 ^ 48 ≤ next then c2.endSession m.chan 0x0122 else c2

/-- REASSEMBLY_TIMEOUT: 1 s after the first fragment (R167). -/
def Core.reasmTimeout (key base : Nat) (c : Core) : Core :=
  match c.host.reasm.find? fun r => r.key == key && r.base == base with
  | none => c
  | some r =>
    ((c.advanceTo (c.now + (r.first + second - c.plumb.elapsed))).onHost fun h => { h with
      reasm := h.reasm.filter fun x => !(x.key == key && x.base == base) }).bump A.HA_REASM_FAIL

/-- SESSION_TIMEOUT: HA_SESS_TIMEOUT without a valid datagram (R183). -/
def Core.sessTimeout (s : Nat) (c : Core) : Core :=
  if (c.session s).st ≠ .open then c
  else (c.advanceTo (c.now + ((c.session s).lastRx + c.regN A.HA_SESS_TIMEOUT * second - c.plumb.elapsed))).endSession s 0x0122

/-- MGMT: a datagram that has crossed the chain. A host's datagram to this device goes on as a command of its own; what a device
sends to a host leaves on SVC by its route; a PROBE is answered; a BEACON goes to the host that probed its sender, or to the one that
probed the chain (R219 to R222, R674). -/
def Core.mgmt (f : LnHdr) (m : MgmtMsg) (c : Core) : Core :=
  let (c1, mine) := c.mgmtRx f m
  if !mine then c1
  else if m.source = 0xFFFF then
    if m.type ≠ 0x01 then c1
    else match c1.probeSlot, c1.route f.origin with
      | some d, some u => d.lnSend u 0x11 ([f.origin, 0x02] ++ d.beaconWords)
      | _, _ => c1
  else if m.type = 0x02 then
    match c1.host.probes.find? fun e => e.1 == m.source with
    | some e => (c1.onHost fun h => { h with probes := h.probes.erase e }).emit (.datagram 0x02 [e.2, m.source])
    | none => c1.emit (.datagram 0x02 [c1.host.prober, m.source])
  else
    let key := if m.type = 0x30 then m.about else m.source
    let rs := c1.host.routes
    match rs.find? fun r => r.1 == key && r.2.1 == m.session, rs.find? fun r => r.1 == key && r.2.1 == 0 with
    | some r, _ => if m.type = 0x30 then c1.relayError r.2.2 key m.reason else c1.emit (.datagram m.type [r.2.2, m.source, m.session])
    | none, some r =>
      if m.type = 0x30 then c1.relayError r.2.2 key m.reason
      else (c1.onHost fun h => { h with routes := h.routes.map fun q => if q = r then (key, m.session, r.2.2) else q }).emit
        (.datagram m.type [r.2.2, m.source, m.session])
    | none, none => c1

/-- Body bytes of a NOTIFY (R203). -/
def notifyBytes (n : Notif) : Nat := if n.kind = 1 then 16 + 32 * n.recs.length else 28 + 4 * n.vals.length

/-- A NOTIFY leaves. -/
def Core.sendNotify (s : Nat) (n : Notif) (c : Core) : Core :=
  let hs := c.secureHdrs s (12 + notifyBytes n) ([0, 0x40, 0, n.sub, n.kind, n.nseq, n.lost, n.time] ++ n.vals.map (·.toNat))
  let c1 := c.onSession s fun x => { x with txSeq := x.txSeq + 1 }
  { c1 with out := c1.out ++ hs ++ [.notify s n] }

/-- The notification queues leave as NOTIFY datagrams (R203, R205). -/
def Core.drainSession (s : Nat) (c : Core) : Core :=
  let q := (c.session s).queue
  if (c.session s).st ≠ .open ∨ q = [] then c
  else if 2 ^ 48 < (c.session s).txSeq + q.length then c.endSession s 0x0122
  else (forL q (fun n d => d.sendNotify s n) c).onSession s fun x => { x with queue := [] }

def Core.drainNotifs (c : Core) : Core := forN 16 Core.drainSession c

/-! ## A request (R129, R173, R184 to R190) -/

/-- Admits a request, whose refusals carry the body `refusal`: none where it is answered at once or has no session. -/
def Core.intake (sess req op : Nat) (need : Role) (inRecovery : Bool) (c : Core) (refusal : List Nat := []) : Core × Bool :=
  let s := c.session sess
  if c.md.held ∨ s.st ≠ .open then (c, false)
  else if c.host.held.any fun h => h.sess == sess && h.req == req then (c.onSession sess fun x => { x with waiting := x.waiting - 1 }, false)
  else match s.cache.find? fun e => e.1 == req with
    | some (_, op0, st, body) => ((c.onSession sess fun x => { x with waiting := x.waiting - 1 }).sendResp sess req op0 st body, false)
    | none =>
      let c1 := c.bumpWrap (A.HA_SESS_REQS + 0x20 * sess)
      if c.md.mode = .recovery ∧ !inRecovery then (c1.respond sess req op 0x09 refusal, false)
      else if roleNum s.role < roleNum need then (c1.respond sess req op 0x0B refusal, false)
      else (c1, true)

/-- A request that executes at once: `f` answers the status and the body. -/
def Core.request (sess req op : Nat) (need : Role) (f : Core → Core × Nat × List Nat) (c : Core) (inRecovery : Bool := false) : Core :=
  match c.intake sess req op need inRecovery with
  | (c1, true) => let r := f c1; r.1.respond sess req op r.2.1 r.2.2
  | (c1, false) => c1

/-- A WRITE of one item: the commands that write one register. -/
def Core.hostItem (sess req a : Nat) (v : Word) (mask : Word) (c : Core) : Core :=
  c.request sess req 0x02 .operate fun d =>
    let r := d.loneItem sess (d.session sess).role { addr := a, value := v, mask := mask }
    (r.1, r.2, writeBody [r.2])

/-- Every bit of a word. -/
def ones : Word := 0xFFFFFFFF

/-- The address of an instance's register; an instance that does not exist has none, and the write meets a reserved address. -/
def instAddr (lim key stride n : Nat) : Nat := if n < lim then key + stride * n else 0xFFFFFFFC

/-! ## READ and READ_BLOCK (R45, R64, R98, R191, R197, R198) -/

/-- The read of one word: the value and its side effects. -/
def Core.readOne (isl : Island) (sess a : Nat) (c : Core) : Core × Nat × Word :=
  let st := c.readStatus sess a
  if st ≠ 0 then (c, st, 0) else (c.readClear sess a, 0, Dev.readWord { core := c, isl := isl } sess a)

/-- READ. -/
def Core.readReq (isl : Island) (sess a : Nat) (c : Core) : Core × Nat × List Nat :=
  let (c1, st, v) := (if a % 4 = 0 then c.readLatch a else c).readOne isl sess a
  (c1, st, [v.toNat])

/-- The words of a block from an address on, in ascending order. -/
def Core.readWords (isl : Island) (sess : Nat) : Nat → Nat → Core → Core × List (Nat × Word)
  | _, 0, c => (c, [])
  | a, n + 1, c =>
    let (c1, st, v) := c.readOne isl sess a
    let (c2, l) := Core.readWords isl sess (a + 4) n c1
    (c2, (st, v) :: l)

/-- Whether a READ_BLOCK covers the four words of a timing input's stamp (R98). -/
def coversStamp (a count n : Nat) : Bool :=
  decide (a ≤ A.PB_TIN_STAMP + 16 * n) && decide (A.PB_TIN_STAMP + 16 * n + 16 ≤ a + 4 * count)

/-- READ_BLOCK. Of several failures the first of ALIGNMENT, TOO_LARGE and BAD_REQUEST is answered, and a misaligned ADDRESS with ALIGNMENT:
the model's choices, notes/assumptions/87.md. -/
def Core.readBlockReq (isl : Island) (sess a count : Nat) (c : Core) : Core × Nat × List Nat :=
  if a % 4 ≠ 0 then (c, 0x07, [])
  else if 4000 < count then (c, 0x0E, [])
  else if count = 0 ∨ 2 ^ 32 < a + 4 * count then (c, 0x0D, [])
  else
    let (c1, l) := (c.readLatch a).readWords isl sess a count
    let c2 := forN 32 (fun n d => if coversStamp a count n then d.tinPop n else d) c1
    let bad := l.findIdx fun p => p.1 == 0x05
    let st := if bad < l.length then 0x05 else ((l.find? fun p => p.1 != 0).map Prod.fst).getD 0
    (c2, st, (if bad < l.length then bad else 0xFFFFFFFF) :: l.map fun p => p.2.toNat)

/-! ## WRITE (R192 to R196) -/

/-- WRITE: at once, or held for the housekeeping phase. -/
def Core.writeReq (sess req flags : Nat) (items : List WriteItem) (c : Core) : Core :=
  match c.intake sess req 0x02 .operate false with
  | (c1, false) => c1
  | (c1, true) =>
    let role := (c1.session sess).role
    if 256 < items.length then c1.respond sess req 0x02 0x0E []
    else if items = [] then c1.respond sess req 0x02 0x0D []
    else if flags.testBit 0 ∧ c1.running then
      c1.onHost fun h => { h with held := h.held ++ [{ sess := sess, role := role, req := req, stopOnError := flags.testBit 1, items := items }] }
    else
      let r := c1.writeItems sess role (flags.testBit 1) items
      r.1.respond sess req 0x02 (headStatus r.2) (writeBody r.2)

/-- The items of words from an address on. -/
def wordItems : Nat → List Word → List WriteItem
  | _, [] => []
  | a, v :: l => { addr := a, value := v } :: wordItems (a + 4) l

/-- A held WRITE is applied and answered. -/
def Core.applyHeld (h : HeldWrite) (c : Core) : Core :=
  let r := c.writeItems h.sess h.role h.stopOnError h.items
  r.1.respond h.sess h.req 0x02 (headStatus r.2) (writeBody r.2)

/-- CYCLE_ALIGNED_APPLY: the writes held when the housekeeping phase began, in order (R195). -/
def Core.cycleAligned (c0 : Core) : Core :=
  if !c0.running ∨ c0.host.held = [] then c0 else
  let c := if c0.prog.begun ∧ !c0.prog.ended then c0.commitEnd else c0
  let due := c.host.held.filter fun h => h.due
  forL due Core.applyHeld (c.onHost fun h => { h with held := h.held.filter fun x => !x.due })

/-! ## Subscriptions (R199 to R203) -/

/-- SUBSCRIBE. A MIN_BAND above 2 is BAD_VALUE, a misaligned address ALIGNMENT and a reserved one NO_SUCH_ADDRESS: the model's choices,
notes/assumptions/89.md. -/
def Core.subscribe (sess : Nat) (x : SubReq) (c : Core) : Core × Nat × List Nat :=
  let bad : Nat :=
    if x.kind ≠ 1 ∧ x.kind ≠ 2 then 0x08
    else if x.kind = 1 then (if x.addrs ≠ [] then 0x0D else if 2 < x.minBand then 0x08 else 0)
    else if x.addrs = [] then 0x0D
    else if 64 < x.addrs.length then 0x0E
    else if x.periodK < 6 ∨ 16 < x.periodK then 0x08
    else ((x.addrs.map fun a => if a % 4 ≠ 0 then 0x07 else if inTagWindow a || (regAt a).isSome then 0 else 0x05).find? fun s => s != 0).getD 0
  if bad ≠ 0 then (c, bad, [])
  else if 64 ≤ c.host.subs.length ∨ 16 ≤ (c.host.subs.filter fun s => s.sess == sess).length then (c, 0x0F, [])
  else
    let id := c.host.nextSub
    let k := if x.kind = 2 then max x.periodK c.image.schedule.baseK else 0
    (c.onHost fun h => { h with
      nextSub := (id + 1) % 65536
      subs := h.subs ++ [{ id := id, sess := sess, kind := x.kind, changeOnly := x.changeOnly, periodK := x.periodK, minBand := x.minBand,
                           blockMask := x.blockMask, addrs := x.addrs }] }, 0, [id, k])

/-- UNSUBSCRIBE. -/
def Core.unsubscribe (sess id : Nat) (c : Core) : Core × Nat × List Nat :=
  if c.host.subs.any fun s => s.id == id && s.sess == sess then
    (c.onHost fun h => { h with subs := h.subs.filter fun s => !(s.id == id && s.sess == sess) }, 0, [])
  else (c, 0x08, [])

/-- Where a value subscription samples next (R201): in Run and Service at the housekeeping phase of a base cycle in which its period
of 2^EFFECTIVE_K ticks starts, otherwise at the period's starting tick; none where the base cycle starts no period, or was sampled. -/
def Core.subDue (s : Sub) (c : Core) : Option Time :=
  if c.running then
    let t := c.prog.cycleStart
    let k := max s.periodK c.image.schedule.baseK
    if c.prog.begun ∧ t % (2 ^ k * tickLen) = 0 ∧ s.sampledAt ≠ some t then some t else none
  else
    let p := 2 ^ s.periodK * tickLen
    let t := alignUp p c.now
    some (if s.sampledAt = some t then t + p else t)

/-- VALUE_SUBSCRIPTION_SAMPLE. -/
def Core.sampleSub (isl : Island) (id : Nat) (c0 : Core) : Core :=
  match c0.host.subs.find? fun s => s.id == id && s.kind == 2 with
  | none => c0
  | some s =>
    match c0.subDue s with
    | none => c0
    | some t =>
      let c := if c0.running then (if c0.prog.ended then c0 else c0.commitEnd) else c0.advanceTo t
      let vals := s.addrs.map fun a => if c.readStatus s.sess a = 0 then Dev.readWord { core := c, isl := isl } s.sess a else 0
      let send := !s.changeOnly || vals != s.last || decide (64 ≤ s.since + 1)
      let set (f : Sub → Sub) (d : Core) : Core := d.onHost fun h => { h with subs := h.subs.map fun x => if x.id = id then f x else x }
      if !send then set (fun x => { x with since := x.since + 1, sampledAt := some t }) c
      else
        let room := decide ((c.session s.sess).queue.length < 64)
        let (c1, began) := c.queueNotif s { sub := id, kind := 2, nseq := s.nseq, lost := s.lost, time := t, vals := vals }
        let c2 := c1.raiseIf began 0x0123 (path 1 3 s.sess)
        if room then set (fun x => { x with last := vals, since := 0, sampledAt := some t }) c2
        else set (fun x => { x with since := x.since + 1, sampledAt := some t }) c2

/-! ## ATTEST (R209, R210) -/

/-- Whether the running firmware set is on trial (R209, R793): the trial is of a firmware set, and the set has started. -/
def Core.fwOnTrial (c : Core) : Bool :=
  let b := c.up.boot
  b.trial && !c.up.pendingAct && (b.fwPrev.isSome || b.cfgPrev.isNone)

/-- The report: FORMAT, MODE, REASON, BOOTS, NONCE, the four fingerprints and hashes, time, PART, STEPPING, FLAGS. -/
def Core.report (nonce : Nat) (c : Core) : List Nat :=
  [1, modeCode c.md.mode, c.md.reason, c.up.boot.boots, nonce, Config.identityFp, (c.up.runFw.map (·.manifest)).getD 0,
    (c.up.runCfg.map (·.hash)).getD 0, ((c.mirror.block).map (·.hash)).getD 0, secOf c.now, nsOf c.now, Config.part, Config.stepping,
    flg c.fwOnTrial 0 + flg c.plumb.timeValid 1 + flg c.up.runCfg.isNone 2]

/-- ATTEST, once per second of a session; refused while a level 2 token is open (R804). -/
def Core.attest (sess nonce : Nat) (c : Core) : Core × Nat × List Nat :=
  let recent : Bool := match (c.session sess).lastAttest with | some t => decide (c.plumb.elapsed < t + second) | none => false
  if c.up.dbgLevel = 2 then (c, 0x0B, [])
  else if recent then (c, 0x0F, [])
  else (c.onSession sess fun x => { x with lastAttest := some c.plumb.elapsed }, 0, c.report nonce ++ [Config.attestSig (c.report nonce)])

/-! ## MODE (R131, R134, R135, R207, R638, R684) -/

/-- The mode that a request is judged against: the one that a pending fault produces (R135). -/
def Core.modeAhead (c : Core) : Mode :=
  if c.running ∧ c.md.faults ≠ [] ∧ (c.md.faults.contains .abort ∨ !c.yieldsOnFault) then .standby else c.md.mode

/-- The status of a MODE request, and whether it starts a change. -/
def Core.modeTest (v : Nat) (c : Core) : Nat × Bool :=
  let m := c.modeAhead
  let live := m == .run || m == .service
  let pairOk := !c.image.pair.en || c.mr.role == .active
  let ok (b : Bool) : Nat × Bool := if b then (0, true) else (0x09, false)
  if c.modeTarget.isSome then (0x0A, false)
  else match v with
    | 0x01 => ok (m == .minimal || m == .standby)
    | 0x04 => if m = .standby then (0, false) else ok live
    | 0x05 => if m = .run then (0, false)
              else ok (pairOk && c.up.dbgLevel != 2 && ((m == .standby && c.requiredUp) || m == .service))
    | 0x06 => if m = .service then (0, false) else ok (m == .run && pairOk)
    | 0x10 => ok (m == .minimal || m == .standby || live)
    | 0x11 => ok (m == .standby || live)
    | _ => (0x08, false)

/-- MODE and TARGET of DEV_MODE. -/
def Core.modeBody (c : Core) : List Nat := [modeCode c.md.mode, (c.modeTarget.map modeCode).getD 0]

/-- A MODE request that the mode logic takes at the next boundary. -/
def Core.modeReq (sess req v : Nat) (need : Role) (m : Mode) (c : Core) : Core :=
  c.request sess req 0x06 need fun d =>
    let t := d.modeTest v
    let d1 := if t.2 then d.onMd fun x => { x with req := some (m, sess) } else d
    (d1, t.1, d1.modeBody)

/-- A MODE request that restarts the device: the response goes before the restart (R207). -/
def Dev.restartReq (sess req v cause : Nat) (kind : Option Bool) (env : StartEnv) (d : Dev) : Dev :=
  match d.core.intake sess req 0x06 .engineer false with
  | (c1, false) => { d with core := c1 }
  | (c1, true) =>
    let t := c1.modeTest v
    let c2 := c1.respond sess req 0x06 t.1 c1.modeBody
    if !t.2 then { d with core := c2 }
    else
      let c3 := if c2.md.mode = .minimal then c2.onBoot fun b => { b with startFails := 0 } else c2
      let c4 := if v = 0x01 then c3.onBoot fun b => { b with reqRecovery := true } else c3
      Dev.restart cause kind env { d with core := c4.dropHeld }

/-! ## ABORT (R25 to R28, R212 to R218) -/

/-- Units of a block, and channels of a unit (R27). -/
def unitsOf (b : Nat) : Nat := [1, 4, 4, 8, 4, 1, 16, 8, 1, 1024, 192, 16, 64, 4, 10, 3].getD b 0
def chansOf (b u : Nat) : Nat :=
  match b with
  | 1 => if u = 3 then 16 else 1
  | 2 => [1, 12, 32, 16].getD u 1
  | 3 => 512
  | 4 => 1024
  | 5 | 9 => 3
  | 8 | 10 => 4
  | 12 => 32
  | 13 => [16, 8, 4, 4].getD u 1
  | 15 => [4, 1, 8].getD u 1
  | _ => 1

/-- Entries that R215 marks refused, and the two paths of the device status (R25). -/
def abortRefused (b u ch : Nat) : Bool :=
  b == 0 || b == 6 || b == 14 || b == 15 || (b == 1 && (u == 0 || u == 2)) || (b == 2 && (u == 0 || u == 1)) || (b == 5 && ch == 0) ||
    (b == 8 && ch == 1) || (b == 12 && ch != allOf)

/-- The status of an ABORT's path. -/
def abortStatus (b u ch : Nat) : Nat :=
  if 15 < b ∨ (u = allOf ∧ ch ≠ allOf) then 0x04
  else if u ≠ allOf ∧ (unitsOf b ≤ u ∨ (ch ≠ allOf ∧ chansOf b u ≤ ch)) then 0x04
  else if b = 13 then 0x01
  else if u ≠ allOf ∧ abortRefused b u ch then 0x0B
  else 0

/-- The bound of a level in ns (R212). -/
def abortBound (b u ch : Nat) : Nat :=
  if u = allOf then (if b = 0 then 2000000 else 500000) else if ch = allOf then 100000 else 20000

/-- A session's channel is given up by an ABORT. -/
def Core.abortSession (s : Nat) (c : Core) : Core :=
  if (c.session s).st = .handshake then c.onHost fun h => { h with sess := SMap.set {} h.sess s {} } else c.endSession s 0x0122

/-- The program's ABORT takes the device to Standby: at the boundary, or once the transition into Run or Service that is in progress has
ended (R208, R215, R218). -/
def Core.abortCycle (c : Core) : Core :=
  if c.modeTarget = some .run ∨ c.modeTarget = some .service then c.onMd fun m => { m with abortAfter := true }
  else c.onMd fun m => { m with faults := m.faults ++ [.abort] }

/-- What an ABORT does in one block (R215); the session that asked ends after its response. -/
def Core.abortBlock (sess b u ch : Nat) (c : Core) : Core :=
  let us (n : Nat) : List Nat := if u = allOf then List.range n else [u]
  let has (k : Nat) : Bool := ch == allOf || ch == k
  let inst (l : List Nat) : List Nat := l.filter fun n => u == allOf || u == n
  match b with
  | 1 =>
    let c1 := if u = allOf ∨ u = 1 then c.dropDownloads else c
    if u = allOf ∨ u = 3 then forN 16 (fun s d => if has s && s != sess then d.abortSession s else d) c1 else c1
  | 2 =>
    let c1 := if u = allOf ∨ u = 2 then forN 32 (fun n d => if has n then d.setFld (A.PB_TIN_CTL + 16 * n) 1 0 0 else d) c else c
    if u = allOf ∨ u = 3 then forN 16 (fun m d => if has m then d.toutDisarm m else d) c1 else c1
  | 3 => forL (us 8) (fun p d => d.ashAbort p ch) c
  | 4 => forL (us 4) Core.lnAbort c
  | 5 => if !c.image.pair.en then c else
    let c1 := if has 1 then c.mrAbort 1 else c
    if has 2 then c1.mrAbort 2 else c1
  | 7 => forL (us 8) Core.abortPrio c
  | 8 =>
    let c1 := if has 0 ∧ c.running then (c.onProg fun p => { p with noRelease := true }).abortCycle else c
    let c2 := if has 2 then c1.forcesClear else c1
    let c3 := if has 3 then c2.olcDiscard else c2
    if u = allOf then c3.dropHeld else c3
  | 9 => forL (inst c.image.loops) (fun n d =>
      let d1 := if has 0 then d.loopAbort n else d
      let d2 := if has 1 ∧ d1.flag (lpA A.RC_CTL n) 0 then d1.onLrn n fun x => { x with abortReq := true } else d1
      if has 2 then d2.injEnd n 3 else d2) c
  | 10 => forL (us 192) Core.axAbort c
  | 11 => forL (us 16) (fun k d => d.rsStop k) c
  | 12 => forL (inst (c.image.units.map Prod.fst)) (fun n d => d.disarm n) c
  | _ => c

/-- The whole device: every block, then Standby (R215, R218). -/
def Core.abortDevice (sess : Nat) (c : Core) : Core :=
  let c1 := forL ((List.range 16).drop 1) (fun b d => d.abortBlock sess b allOf allOf) c
  if c.modeTarget = some .run ∨ c.modeTarget = some .service then c1.onMd fun m => { m with abortAfter := true } else c1

/-- Seconds, nanoseconds and fraction of a time. -/
def timeFields (t : Time) : List Nat := [secOf t, nsOf t, fracOf t]

/-- ABORT, whose refusals carry PATH and times too (R214): `took` is the time from arrival to completion in ns. -/
def Core.abort (sess req : Nat) (p : Word) (took : Nat) (c : Core) : Core :=
  match c.intake sess req 0x07 .operate false ([p.toNat] ++ timeFields c.now ++ timeFields c.now ++ [0]) with
  | (c1, false) => c1
  | (c1, true) =>
    let b := bits p 31 24
    let u := bits p 23 12
    let ch := bits p 11 0
    let st := abortStatus b u ch
    let c2 := if st ≠ 0 then c1 else if b = 0 then c1.abortDevice sess else c1.abortBlock sess b u ch
    let c3 := (c2.advanceTo (c1.now + ns took)).raiseIf (st == 0 && decide (abortBound b u ch < took)) 0x0041 0
    let c4 := c3.respond sess req 0x07 st ([p.toNat] ++ timeFields c1.now ++ timeFields c3.now ++ [took])
    let own : Bool := (b == 0 || (b == 1 && (u == allOf || u == 3))) && (ch == allOf || ch == sess)
    if st = 0 ∧ own then c4.endSession sess 0x0122 else c4

end Sys2Proof.Machine
end

