-- ==== Sys2Proof/Machine/HostRows.lean ====
section
/-!
DEFINITION. Machine/HostRows.lean: the commands of host access, and those that are one request: mode requests, the reads that latch,
and the writes of a register that have a row of their own.
-/
namespace Sys2Proof.Machine

/-! ## Modes (R131 to R135, R207) -/

def execEnterRecovery (sess req : Nat) (env : StartEnv) (s : State) : Host.Outcome State Fault Refusal :=
  devCmd (Dev.restartReq sess req 0x01 7 (some false) env) s
def execEnterStandby (sess req : Nat) (s : State) : Host.Outcome State Fault Refusal := coreCmd (Core.modeReq sess req 0x04 .operate .standby) s
def execEnterRun (sess req : Nat) (s : State) : Host.Outcome State Fault Refusal := coreCmd (Core.modeReq sess req 0x05 .operate .run) s
def execEnterService (sess req : Nat) (s : State) : Host.Outcome State Fault Refusal :=
  coreCmd (Core.modeReq sess req 0x06 .engineer .service) s
def execColdRestart (sess req : Nat) (env : StartEnv) (s : State) : Host.Outcome State Fault Refusal :=
  devCmd (Dev.restartReq sess req 0x10 2 (some false) env) s
def execWarmRestart (sess req : Nat) (env : StartEnv) (s : State) : Host.Outcome State Fault Refusal :=
  devCmd (Dev.restartReq sess req 0x11 3 (some true) env) s

/-! ## Discovery, sessions and datagrams -/

def execProbe (src target : Nat) (d : Dgram) (s : State) : Host.Outcome State Fault Refusal :=
  coreCmd (Core.probe { d with src := src, target := target }) s
def execBeacon (s : State) : Host.Outcome State Fault Refusal := coreCmd Core.beacon s
def execReassemblyTimeout (key base : Nat) (s : State) : Host.Outcome State Fault Refusal := coreCmd (Core.reasmTimeout key base) s
def execSessionInit (m : InitMsg) (s : State) : Host.Outcome State Fault Refusal := coreCmd (Core.sessionInit m) s
def execSessionConfirm (m : ConfirmMsg) (s : State) : Host.Outcome State Fault Refusal := coreCmd (Core.sessionConfirm m) s
def execHandshakeTimeout (chan : Nat) (s : State) : Host.Outcome State Fault Refusal := coreCmd (Core.hsTimeout chan) s
def execSecure (d : SecureMsg) (s : State) : Host.Outcome State Fault Refusal := coreCmd (Core.secure d) s
def execSessionTimeout (sess : Nat) (s : State) : Host.Outcome State Fault Refusal := coreCmd (Core.sessTimeout sess) s
def execMgmt (f : LnHdr) (m : MgmtMsg) (s : State) : Host.Outcome State Fault Refusal := coreCmd (Core.mgmt f m) s

/-! ## Reads -/

/-- READ in a block: BLK_ID of block 0x00 and DEV_MODE are answered in Recovery (R129). -/
def Dev.read (sess req a : Nat) (d : Dev) : Dev :=
  d.onCore fun c => c.request sess req 0x01 .observe (fun e => e.readReq d.isl sess a) (a == 0 || a == A.DEV_MODE)

def Dev.readBlock (sess req a count : Nat) (d : Dev) : Dev :=
  d.onCore fun c => c.request sess req 0x03 .observe fun e => e.readBlockReq d.isl sess a count

def execRead (sess req a : Nat) (s : State) : Host.Outcome State Fault Refusal := devCmd (Dev.read sess req a) s
def execReadBlock (sess req a count : Nat) (s : State) : Host.Outcome State Fault Refusal := devCmd (Dev.readBlock sess req a count) s
/-- A READ of PB_TIME_SEC_HI latches device time (R64). -/
def execTimeLatchRead (sess req : Nat) (s : State) : Host.Outcome State Fault Refusal := devCmd (Dev.read sess req A.PB_TIME_SEC_HI) s
/-- A READ_BLOCK of a stamp's four words removes the entry (R98). -/
def execTinStampRead (sess req n : Nat) (s : State) : Host.Outcome State Fault Refusal :=
  devCmd (Dev.readBlock sess req (instAddr 32 A.PB_TIN_STAMP 16 n) 4) s
/-- A READ of AX_POS_LO latches the axis (R480). -/
def execAxPosLatch (sess req a : Nat) (s : State) : Host.Outcome State Fault Refusal :=
  devCmd (Dev.read sess req (instAddr 192 A.AX_POS 0x200 a)) s
/-- A READ of RS_OFFERED LO latches the stream's counters (R563). -/
def execRsCounterLatch (sess req k : Nat) (s : State) : Host.Outcome State Fault Refusal :=
  devCmd (Dev.read sess req (instAddr 16 A.RS_OFFERED 0x100 k)) s

/-! ## Writes -/

def execWrite (sess req flags : Nat) (items : List WriteItem) (s : State) : Host.Outcome State Fault Refusal :=
  coreCmd (Core.writeReq sess req flags items) s
/-- Words written from an address of the tag window on (R44 to R47). -/
def execTagWindowWrite (sess req a : Nat) (ws : List Word) (s : State) : Host.Outcome State Fault Refusal :=
  coreCmd (Core.writeReq sess req 0 (wordItems a ws)) s
def execCycleAlignedApply (s : State) : Host.Outcome State Fault Refusal := coreCmd Core.cycleAligned s
def execClrExpert (sess req b : Nat) (s : State) : Host.Outcome State Fault Refusal :=
  coreCmd (Core.hostItem sess req (instAddr 16 0x8000 0x10000 b) 1 1) s

/-! ## Subscriptions, ATTEST, PING, CLOSE, ABORT -/

def execSubscribe (sess req : Nat) (x : SubReq) (s : State) : Host.Outcome State Fault Refusal :=
  coreCmd (Core.request sess req 0x04 .observe fun c => c.subscribe sess x) s
def execUnsubscribe (sess req id : Nat) (s : State) : Host.Outcome State Fault Refusal :=
  coreCmd (Core.request sess req 0x05 .observe fun c => c.unsubscribe sess id) s
def execValueSubscriptionSample (id : Nat) (s : State) : Host.Outcome State Fault Refusal :=
  devCmd (fun d => d.onCore (Core.sampleSub d.isl id)) s
def execAttest (sess req nonce : Nat) (s : State) : Host.Outcome State Fault Refusal :=
  coreCmd (Core.request sess req 0x08 .observe fun c => c.attest sess nonce) s
def execPing (sess req : Nat) (s : State) : Host.Outcome State Fault Refusal :=
  coreCmd (Core.request sess req 0x09 .observe fun c => (c, 0, [])) s

/-- CLOSE: the session ends once its response has been sent (R183, R211). -/
def Core.close (sess req : Nat) (c : Core) : Core :=
  match c.intake sess req 0x0A .observe false with
  | (c1, false) => c1
  | (c1, true) => (c1.respond sess req 0x0A 0 []).endSession sess 0x0121

def execClose (sess req : Nat) (s : State) : Host.Outcome State Fault Refusal := coreCmd (Core.close sess req) s
def execAbort (sess req : Nat) (p : Word) (took : Nat) (s : State) : Host.Outcome State Fault Refusal := coreCmd (Core.abort sess req p took) s

/-! ## Plumb -/

def execSetTime (sess req : Nat) (v : Word) (s : State) : Host.Outcome State Fault Refusal :=
  coreCmd (Core.hostItem sess req A.PB_SET_NS v ones) s
def execAsymWrite (sess req p : Nat) (v : Word) (s : State) : Host.Outcome State Fault Refusal :=
  coreCmd (Core.hostItem sess req (instAddr 12 A.PB_PORT_ASYM 16 p) v ones) s
def execToutArm (sess req m : Nat) (s : State) : Host.Outcome State Fault Refusal :=
  coreCmd (Core.hostItem sess req (instAddr 16 A.PB_TOUT_CMD 0x20 m) 1 1) s
def execToutDisarm (sess req m : Nat) (s : State) : Host.Outcome State Fault Refusal :=
  coreCmd (Core.hostItem sess req (instAddr 16 A.PB_TOUT_CMD 0x20 m) 2 2) s
def execPtpSync (p : Nat) (m : SyncMsg) (s : State) : Host.Outcome State Fault Refusal := coreCmd (fun c => c.ptpSync p m) s
def execSlewComplete (s : State) : Host.Outcome State Fault Refusal := coreCmd Core.slewComplete s
def execTimeStep (s : State) : Host.Outcome State Fault Refusal := coreCmd Core.timeStep s
def execPtpAnnounce (p : Nat) (a : Announce) (s : State) : Host.Outcome State Fault Refusal := coreCmd (fun c => c.ptpAnnounce p a) s
def execHoldoverEntry (s : State) : Host.Outcome State Fault Refusal := coreCmd Core.holdoverEntry s
def execPtpPdelay (p : Nat) (m : DelayMsg) (s : State) : Host.Outcome State Fault Refusal := coreCmd (fun c => c.ptpPdelay p m) s
def execTinEdge (n : Nat) (rising : Bool) (stamp : Time) (s : State) : Host.Outcome State Fault Refusal :=
  coreCmd (fun c => c.tinEdge n rising stamp) s
def execToutPulse (m : Nat) (s : State) : Host.Outcome State Fault Refusal := coreCmd (fun c => c.toutPulse m) s
def execToutPulseEnd (m : Nat) (s : State) : Host.Outcome State Fault Refusal := coreCmd (fun c => c.toutPulseEnd m) s

/-! ## Program, queues and loops -/

/-- The word of WQ_CMD. -/
def wqWord (op item : Nat) : Word := wd (op * 2 ^ 30 + item % 65536)

def execWqReady (sess req i : Nat) (s : State) : Host.Outcome State Fault Refusal :=
  coreCmd (Core.hostItem sess req A.WQ_CMD (wqWord 1 i) ones) s
def execWqCancel (sess req i : Nat) (s : State) : Host.Outcome State Fault Refusal :=
  coreCmd (Core.hostItem sess req A.WQ_CMD (wqWord 2 i) ones) s
def execWqRelease (sess req i : Nat) (s : State) : Host.Outcome State Fault Refusal :=
  coreCmd (Core.hostItem sess req A.WQ_CMD (wqWord 3 i) ones) s
def execForceSet (sess req : Nat) (s : State) : Host.Outcome State Fault Refusal := coreCmd (Core.hostItem sess req A.PG_FORCE_CMD 1 3) s
def execForceRelease (sess req : Nat) (s : State) : Host.Outcome State Fault Refusal := coreCmd (Core.hostItem sess req A.PG_FORCE_CMD 2 3) s
def execForceReleaseAll (sess req : Nat) (s : State) : Host.Outcome State Fault Refusal := coreCmd (Core.hostItem sess req A.PG_FORCE_CMD 3 3) s
def execOlcArm (sess req : Nat) (s : State) : Host.Outcome State Fault Refusal := coreCmd (Core.hostItem sess req A.PG_OLC_CMD 1 1) s
def execOlcDisarm (sess req : Nat) (s : State) : Host.Outcome State Fault Refusal := coreCmd (Core.hostItem sess req A.PG_OLC_CMD 2 2) s

/-- A register of a loop's window. -/
def lpAddr (key n : Nat) : Nat := instAddr 1024 key 0x100 n

def execModeReqOpen (sess req n : Nat) (s : State) : Host.Outcome State Fault Refusal :=
  coreCmd (Core.hostItem sess req (lpAddr A.LP_CTL n) 1 3) s
def execModeReqManual (sess req n : Nat) (s : State) : Host.Outcome State Fault Refusal :=
  coreCmd (Core.hostItem sess req (lpAddr A.LP_CTL n) 2 3) s
def execModeReqClosed (sess req n : Nat) (s : State) : Host.Outcome State Fault Refusal :=
  coreCmd (Core.hostItem sess req (lpAddr A.LP_CTL n) 3 3) s
def execRcClear (sess req n : Nat) (s : State) : Host.Outcome State Fault Refusal := coreCmd (Core.hostItem sess req (lpAddr A.RC_CTL n) 4 4) s
def execRcLearn (sess req n : Nat) (v : Word) (s : State) : Host.Outcome State Fault Refusal :=
  coreCmd (Core.hostItem sess req (lpAddr A.RC_CTL n) v 1) s
def execInjStart (sess req n : Nat) (s : State) : Host.Outcome State Fault Refusal := coreCmd (Core.hostItem sess req (lpAddr A.INJ_CTL n) 1 1) s
def execInjStop (sess req n : Nat) (s : State) : Host.Outcome State Fault Refusal := coreCmd (Core.hostItem sess req (lpAddr A.INJ_CTL n) 2 2) s

/-! ## Axes -/

/-- A register of an axis's window. -/
def axAddr (key a : Nat) : Nat := instAddr 192 key 0x200 a

def execAxStop (sess req a : Nat) (s : State) : Host.Outcome State Fault Refusal := coreCmd (Core.hostItem sess req (axAddr A.AX_CMD a) 1 3) s
def execAxQstop (sess req a : Nat) (s : State) : Host.Outcome State Fault Refusal := coreCmd (Core.hostItem sess req (axAddr A.AX_CMD a) 2 3) s
def execAxResume (sess req a : Nat) (s : State) : Host.Outcome State Fault Refusal := coreCmd (Core.hostItem sess req (axAddr A.AX_CMD a) 3 3) s
def execJogPositive (sess req a : Nat) (s : State) : Host.Outcome State Fault Refusal := coreCmd (Core.hostItem sess req (axAddr A.AX_JOG a) 1 3) s
def execJogNegative (sess req a : Nat) (s : State) : Host.Outcome State Fault Refusal := coreCmd (Core.hostItem sess req (axAddr A.AX_JOG a) 2 3) s
def execJogEnd (sess req a : Nat) (s : State) : Host.Outcome State Fault Refusal := coreCmd (Core.hostItem sess req (axAddr A.AX_JOG a) 0 3) s
def execHomeStart (sess req a : Nat) (s : State) : Host.Outcome State Fault Refusal :=
  coreCmd (Core.hostItem sess req (axAddr A.AX_HOME_CTL a) 1 1) s
def execHomeAbandon (sess req a : Nat) (s : State) : Host.Outcome State Fault Refusal :=
  coreCmd (Core.hostItem sess req (axAddr A.AX_HOME_CTL a) 2 2) s

/-! ## Lines, chain and pair -/

def execAshReenum (sess req p : Nat) (s : State) : Host.Outcome State Fault Refusal :=
  coreCmd (Core.hostItem sess req (instAddr 8 A.ASH_PORT_CTL 0x40 p) 1 1) s
def execLnApprove (sess req u : Nat) (s : State) : Host.Outcome State Fault Refusal :=
  coreCmd (Core.hostItem sess req (instAddr 4 A.LN_NB_CTL 0x40 u) 1 1) s
def execLnForget (sess req u : Nat) (s : State) : Host.Outcome State Fault Refusal :=
  coreCmd (Core.hostItem sess req (instAddr 4 A.LN_NB_CTL 0x40 u) 2 2) s
def execMrYield (sess req : Nat) (s : State) : Host.Outcome State Fault Refusal := coreCmd (Core.hostItem sess req A.MR_CTL 1 1) s
def execMrResync (sess req : Nat) (s : State) : Host.Outcome State Fault Refusal := coreCmd (Core.hostItem sess req A.MR_CTL 2 2) s
def execMrApprove (sess req : Nat) (s : State) : Host.Outcome State Fault Refusal := coreCmd (Core.hostItem sess req A.MR_PARTNER_CTL 1 1) s
def execMrForget (sess req : Nat) (s : State) : Host.Outcome State Fault Refusal := coreCmd (Core.hostItem sess req A.MR_PARTNER_CTL 2 2) s

/-! ## Recorder, triggers and captures -/

/-- A register of a stream's window, and of a capture unit's. -/
def rsAddr (key k : Nat) : Nat := instAddr 16 key 0x100 k
def cpAddr (key u : Nat) : Nat := instAddr 64 key 0x100 u

def execRsStart (sess req k : Nat) (s : State) : Host.Outcome State Fault Refusal := coreCmd (Core.hostItem sess req (rsAddr A.RS_CTL k) 1 1) s
def execRsStop (sess req k : Nat) (s : State) : Host.Outcome State Fault Refusal := coreCmd (Core.hostItem sess req (rsAddr A.RS_CTL k) 2 2) s
def execRsClaim (sess req k : Nat) (s : State) : Host.Outcome State Fault Refusal := coreCmd (Core.hostItem sess req (rsAddr A.RS_CTL k) 4 4) s
def execRsUnclaim (sess req k : Nat) (s : State) : Host.Outcome State Fault Refusal := coreCmd (Core.hostItem sess req (rsAddr A.RS_CTL k) 8 8) s
def execRsAck (sess req k : Nat) (v : Word) (s : State) : Host.Outcome State Fault Refusal :=
  coreCmd (Core.hostItem sess req (rsAddr A.RS_ACK k) v ones) s
def execRsMark (sess req k : Nat) (v : Word) (s : State) : Host.Outcome State Fault Refusal :=
  coreCmd (Core.hostItem sess req (rsAddr A.RS_MARK k) v ones) s
/-- GAP_WRITE: no record ends the episode with it (R556). -/
def execGapWrite (k : Nat) (s : State) : Host.Outcome State Fault Refusal := coreCmd (fun c => c.gapWrite k 0) s
def execTrFire (sess req x : Nat) (s : State) : Host.Outcome State Fault Refusal :=
  coreCmd (Core.hostItem sess req (instAddr 128 A.TR_CTL 0x20 x) 2 2) s
def execTrEnable (sess req x : Nat) (v : Word) (s : State) : Host.Outcome State Fault Refusal :=
  coreCmd (Core.hostItem sess req (instAddr 128 A.TR_CTL 0x20 x) v 1) s
def execCpArm (sess req u : Nat) (s : State) : Host.Outcome State Fault Refusal := coreCmd (Core.hostItem sess req (cpAddr A.CP_CTL u) 1 1) s
def execCpDisarm (sess req u : Nat) (s : State) : Host.Outcome State Fault Refusal := coreCmd (Core.hostItem sess req (cpAddr A.CP_CTL u) 2 2) s
def execCpRelease (sess req u : Nat) (s : State) : Host.Outcome State Fault Refusal := coreCmd (Core.hostItem sess req (cpAddr A.CP_CTL u) 4 4) s
def execCpTrigger (sess req u : Nat) (s : State) : Host.Outcome State Fault Refusal := coreCmd (Core.hostItem sess req (cpAddr A.CP_CTL u) 8 8) s
/-- ROW_ASSEMBLY: a due row is assembled at its instant plus CP_ROW_DELAY (R585). -/
def execRowAssembly (u : Nat) (t : Time) (s : State) : Host.Outcome State Fault Refusal :=
  coreCmd (fun c => if c.rowDue u t then (c.advanceTo (t + c.rowDelay u)).rowAssemble u t else c) s

/-- REARM_INTERVAL_END: device time reaches T_first (R592). -/
def execRearmIntervalEnd (u : Nat) (s : State) : Host.Outcome State Fault Refusal :=
  coreCmd (fun c => if (c.unit u).st = .arming then (c.advanceTo (c.unit u).tFirst).rearmEnd u else c) s

/-- PEER_SILENT: TMO ms without an acknowledgement of a historian stream (R554). -/
def Core.peerSilent (k : Nat) (c : Core) : Core :=
  let s := c.stream k
  if c.rsDest k ≠ 2 ∨ s.ring = [] ∨ s.peerSilent then c
  else
    let tmo := c.fld (rsA A.RS_PEER_CFG k) 15 0
    ((c.advanceTo (c.now + (s.lastAck + tmo * ms - c.plumb.elapsed))).onStream k fun x => { x with peerSilent := true, sent := 0 }).raise 0x0B42 (path 0xB k 0)

def execPeerSilent (k : Nat) (s : State) : Host.Outcome State Fault Refusal := coreCmd (Core.peerSilent k) s

/-! ## Updates (R129, R175, R790, R793, R796, R800, R802) -/

/-- The role that a container request needs: any session in Recovery and in Minimal without an image (R175). -/
def Core.contRole (c : Core) : Role :=
  if c.md.mode = .recovery ∨ (c.md.mode = .minimal ∧ c.up.runCfg.isNone) then .observe else .engineer

/-- Whether a request concerns a full firmware container, all that an OBSERVE session may send (R129, R175, R800). -/
def Core.fullFw (c : Core) (cont : Nat) (d : Option ContChunk) : Bool :=
  match d with
  | some x => if x.chunk = 0 then x.hdr.kind == 1 else decide (((c.destOf cont).map fun n => (c.download n).hdr.kind) = some 1)
  | none => decide (((c.destOf cont).map fun n => (c.download n).hdr.kind) = some 1) || (c.destOf cont).isNone

/-- A container request. -/
def Core.contReq (sess req op cont : Nat) (x : Option ContChunk) (f : Core → Core × Nat × List Nat) (c : Core) : Core :=
  c.request sess req op c.contRole (fun d =>
    if !d.fullFw cont x ∧ d.md.mode = .recovery then (d, 0x09, [])
    else if !d.fullFw cont x ∧ (d.session sess).role ≠ .engineer then (d, 0x0B, [])
    else f d) true

def execContData (sess req : Nat) (x : ContChunk) (s : State) : Host.Outcome State Fault Refusal :=
  coreCmd (Core.contReq sess req 0x20 x.cont (some x) fun c => let r := c.contData x; (r.1, r.2, r.1.contBody x.cont)) s
/-- A container is named by its CONT_ID; the host's own knowledge of its destination is not used. -/
def execContStatus (sess req _dest cont : Nat) (s : State) : Host.Outcome State Fault Refusal :=
  coreCmd (Core.contReq sess req 0x21 cont none fun c => let d := c.nameCont cont; (d, 0, d.contBody cont)) s
def execContCancel (sess req _dest cont : Nat) (s : State) : Host.Outcome State Fault Refusal :=
  coreCmd (Core.contReq sess req 0x22 cont none fun c => (c.contCancel cont, 0, [])) s

/-- ACTIVATE: the response goes before the restart. -/
def Dev.activate (sess req : Nat) (a : ActivateReq) (env : StartEnv) (d : Dev) : Dev :=
  match d.core.intake sess req 0x23 .engineer false with
  | (c1, false) => { d with core := c1 }
  | (c1, true) =>
    let (c2, st, go) := c1.activate a
    let c3 := c2.respond sess req 0x23 st []
    if st = 0 ∧ go then Dev.restart 6 (some (a.restart == 0x11)) env { d with core := c3.dropHeld } else { d with core := c3 }

def execActivate (sess req : Nat) (a : ActivateReq) (env : StartEnv) (s : State) : Host.Outcome State Fault Refusal :=
  devCmd (Dev.activate sess req a env) s
def execConfirm (sess req : Nat) (s : State) : Host.Outcome State Fault Refusal :=
  coreCmd (Core.request sess req 0x24 .engineer fun c => let r := c.confirm; (r.1, r.2, [])) s
/-- GET_CERT: the certificate's 1,330 words. -/
def execGetCert (sess req : Nat) (s : State) : Host.Outcome State Fault Refusal :=
  coreCmd (Core.request sess req 0x25 .engineer fun c => (c, 0, (List.range 1330).map fun i => (certWord i).toNat)) s
def execDbgLock (sess req : Nat) (s : State) : Host.Outcome State Fault Refusal := coreCmd (Core.hostItem sess req A.ID_DBG_CTL 1 1) s

end Sys2Proof.Machine
end

