-- ==== Sys2Proof/Machine/Tick.lean ====
section
/-!
DEFINITION. Machine/Tick.lean: TICK: what Plumb's tick starts in every block.
-/
namespace Sys2Proof.Machine

/-- The class 2 observations of a tick, of tags that something watches (R535). -/
def Core.axesObserve (t : Time) (c : Core) : Core :=
  if !c.observing then c else
  forL c.image.axes (fun a d => forN 28 (fun k e => if e.watched (axisTag a k) then e.observe (axisTag a k) (e.axisSig a k) t else e) d) c

/-- The debug port's lifetime runs in ticks (R804). -/
def Core.dbgTick (c : Core) : Core :=
  if c.up.dbgLevel = 0 then c else if c.up.dbgTicks ≤ 1 then c.dbgClose else c.onUp fun u => { u with dbgTicks := u.dbgTicks - 1 }

/-- The core's part of a tick (R65 to R67, R535, R542, R642, R665, R687). -/
def Core.tick (c0 : Core) : Core :=
  if !c0.plumbOn then c0 else
  let t := c0.nextTick
  let c := c0.plumbTick
  if c.md.held then c else
  let newSecond := decide (tickOf t % 64000 = 0)
  ((((((((c.recTick newSecond).capTick newSecond).axesObserve t).shaftPublish t).hbTick).safeExpire).dbgTick).drainNotifs).ptpTick t

/-- TICK, with the outbound safety containers of the chain (R756). -/
def Dev.tick (d : Dev) : Dev :=
  let d1 := d.onCore Core.tick
  if d1.core.md.held ∨ !d.core.plumbOn then d1 else (d1.sendAll true 0).onCore fun c => (c.lnPumps).morPump c.mr.waiting.length

def execTick (s : State) : Host.Outcome State Fault Refusal := devCmd Dev.tick s

end Sys2Proof.Machine
end

