-- ==== Sys2Proof/Machine/Dispatch.lean ====
section
/-!
DEFINITION. Machine/Dispatch.lean: the meaning of every command: one arm per constructor of Instr, in the order of the opcode
table.
-/

namespace Sys2Proof.Machine

/-- The effect of a command on the block. -/
def exec (i : Instr) (s : State) : Host.Outcome State Fault Refusal :=
  match i with
  | .powerOn env => Sys2Proof.Machine.execPowerOn env s
  | .porstNAssert lenNs env => Sys2Proof.Machine.execPorstNAssert lenNs env s
  | .watchdogExpiry env => Sys2Proof.Machine.execWatchdogExpiry env s
  | .vcoreRestored env => Sys2Proof.Machine.execVcoreRestored env s
  | .keepAliveLoss => Sys2Proof.Machine.execKeepAliveLoss s
  | .keepAliveReturn env => Sys2Proof.Machine.execKeepAliveReturn env s
  | .keepAliveInputChange input ok => Sys2Proof.Machine.execKeepAliveInputChange input ok s
  | .feedChange feed present => Sys2Proof.Machine.execFeedChange feed present s
  | .paceSample mv => Sys2Proof.Machine.execPaceSample mv s
  | .paceReqChange level => Sys2Proof.Machine.execPaceReqChange level s
  | .tempSample temps => Sys2Proof.Machine.execTempSample temps s
  | .thermalHoldRelease env => Sys2Proof.Machine.execThermalHoldRelease env s
  | .pllLockLoss => Sys2Proof.Machine.execPllLockLoss s
  | .pfwAssert => Sys2Proof.Machine.execPfwAssert s
  | .finalRecordCommit => Sys2Proof.Machine.execFinalRecordCommit s
  | .dramEccError addr uncorr => Sys2Proof.Machine.execDramEccError addr uncorr s
  | .enterRecovery sess req env => Sys2Proof.Machine.execEnterRecovery sess req env s
  | .enterStandby sess req => Sys2Proof.Machine.execEnterStandby sess req s
  | .enterRun sess req => Sys2Proof.Machine.execEnterRun sess req s
  | .enterService sess req => Sys2Proof.Machine.execEnterService sess req s
  | .coldRestart sess req env => Sys2Proof.Machine.execColdRestart sess req env s
  | .warmRestart sess req env => Sys2Proof.Machine.execWarmRestart sess req env s
  | .serviceTimeout => Sys2Proof.Machine.execServiceTimeout s
  | .tick => Sys2Proof.Machine.execTick s
  | .baseCycleStart => Sys2Proof.Machine.execBaseCycleStart s
  | .flyTimeout axis => Sys2Proof.Machine.execFlyTimeout axis s
  | .portCycleStart port => Sys2Proof.Machine.execPortCycleStart port s
  | .moduleLost mod => Sys2Proof.Machine.execModuleLost mod s
  | .recoveryRound port => Sys2Proof.Machine.execRecoveryRound port s
  | .generatorStep => Sys2Proof.Machine.execGeneratorStep s
  | .holdDelayExpiry axis => Sys2Proof.Machine.execHoldDelayExpiry axis s
  | .jogTimeout axis => Sys2Proof.Machine.execJogTimeout axis s
  | .ptpSync port m => Sys2Proof.Machine.execPtpSync port m s
  | .slewComplete => Sys2Proof.Machine.execSlewComplete s
  | .timeStep => Sys2Proof.Machine.execTimeStep s
  | .ptpAnnounce port ann => Sys2Proof.Machine.execPtpAnnounce port ann s
  | .holdoverEntry => Sys2Proof.Machine.execHoldoverEntry s
  | .ptpPdelay port m => Sys2Proof.Machine.execPtpPdelay port m s
  | .setTime sess req value => Sys2Proof.Machine.execSetTime sess req value s
  | .timeLatchRead sess req => Sys2Proof.Machine.execTimeLatchRead sess req s
  | .asymWrite sess req port value => Sys2Proof.Machine.execAsymWrite sess req port value s
  | .tinEdge n rising stamp => Sys2Proof.Machine.execTinEdge n rising stamp s
  | .tinStampRead sess req n => Sys2Proof.Machine.execTinStampRead sess req n s
  | .toutArm sess req m => Sys2Proof.Machine.execToutArm sess req m s
  | .toutDisarm sess req m => Sys2Proof.Machine.execToutDisarm sess req m s
  | .toutPulse m => Sys2Proof.Machine.execToutPulse m s
  | .toutPulseEnd m => Sys2Proof.Machine.execToutPulseEnd m s
  | .probe src target d => Sys2Proof.Machine.execProbe src target d s
  | .beacon => Sys2Proof.Machine.execBeacon s
  | .reassemblyTimeout key base => Sys2Proof.Machine.execReassemblyTimeout key base s
  | .sessionInit m => Sys2Proof.Machine.execSessionInit m s
  | .sessionConfirm m => Sys2Proof.Machine.execSessionConfirm m s
  | .handshakeTimeout chan => Sys2Proof.Machine.execHandshakeTimeout chan s
  | .secure d => Sys2Proof.Machine.execSecure d s
  | .sessionTimeout sess => Sys2Proof.Machine.execSessionTimeout sess s
  | .read sess req addr => Sys2Proof.Machine.execRead sess req addr s
  | .write sess req flags items => Sys2Proof.Machine.execWrite sess req flags items s
  | .tagWindowWrite sess req addr words => Sys2Proof.Machine.execTagWindowWrite sess req addr words s
  | .clrExpert sess req block => Sys2Proof.Machine.execClrExpert sess req block s
  | .cycleAlignedApply => Sys2Proof.Machine.execCycleAlignedApply s
  | .readBlock sess req addr count => Sys2Proof.Machine.execReadBlock sess req addr count s
  | .subscribe sess req x => Sys2Proof.Machine.execSubscribe sess req x s
  | .unsubscribe sess req id => Sys2Proof.Machine.execUnsubscribe sess req id s
  | .valueSubscriptionSample id => Sys2Proof.Machine.execValueSubscriptionSample id s
  | .attest sess req nonce => Sys2Proof.Machine.execAttest sess req nonce s
  | .ping sess req => Sys2Proof.Machine.execPing sess req s
  | .close sess req => Sys2Proof.Machine.execClose sess req s
  | .abort sess req path took => Sys2Proof.Machine.execAbort sess req path took s
  | .opNop t o => Sys2Proof.Machine.execOpNop t o s
  | .opAdd t o => Sys2Proof.Machine.execOpAdd t o s
  | .opSub t o => Sys2Proof.Machine.execOpSub t o s
  | .opMul t o => Sys2Proof.Machine.execOpMul t o s
  | .opMulh t o => Sys2Proof.Machine.execOpMulh t o s
  | .opDivs t o => Sys2Proof.Machine.execOpDivs t o s
  | .opDivu t o => Sys2Proof.Machine.execOpDivu t o s
  | .opRems t o => Sys2Proof.Machine.execOpRems t o s
  | .opShl t o => Sys2Proof.Machine.execOpShl t o s
  | .opShrs t o => Sys2Proof.Machine.execOpShrs t o s
  | .opShru t o => Sys2Proof.Machine.execOpShru t o s
  | .opCmpeq t o => Sys2Proof.Machine.execOpCmpeq t o s
  | .opCmplt t o => Sys2Proof.Machine.execOpCmplt t o s
  | .opCmpltu t o => Sys2Proof.Machine.execOpCmpltu t o s
  | .opMin t o => Sys2Proof.Machine.execOpMin t o s
  | .opMax t o => Sys2Proof.Machine.execOpMax t o s
  | .opAbs t o => Sys2Proof.Machine.execOpAbs t o s
  | .opMov t o => Sys2Proof.Machine.execOpMov t o s
  | .opLdi t o => Sys2Proof.Machine.execOpLdi t o s
  | .opSel t o => Sys2Proof.Machine.execOpSel t o s
  | .opLdx t o => Sys2Proof.Machine.execOpLdx t o s
  | .opStx t o => Sys2Proof.Machine.execOpStx t o s
  | .opAdd64 t o => Sys2Proof.Machine.execOpAdd64 t o s
  | .opSub64 t o => Sys2Proof.Machine.execOpSub64 t o s
  | .opMul64 t o => Sys2Proof.Machine.execOpMul64 t o s
  | .opDiv64s t o => Sys2Proof.Machine.execOpDiv64s t o s
  | .opDiv64u t o => Sys2Proof.Machine.execOpDiv64u t o s
  | .opShl64 t o => Sys2Proof.Machine.execOpShl64 t o s
  | .opShrs64 t o => Sys2Proof.Machine.execOpShrs64 t o s
  | .opShru64 t o => Sys2Proof.Machine.execOpShru64 t o s
  | .opCmp64eq t o => Sys2Proof.Machine.execOpCmp64eq t o s
  | .opCmp64lt t o => Sys2Proof.Machine.execOpCmp64lt t o s
  | .opCmp64ltu t o => Sys2Proof.Machine.execOpCmp64ltu t o s
  | .opSext t o => Sys2Proof.Machine.execOpSext t o s
  | .opVmac t o => Sys2Proof.Machine.execOpVmac t o s
  | .opVmul t o => Sys2Proof.Machine.execOpVmul t o s
  | .opVadd t o => Sys2Proof.Machine.execOpVadd t o s
  | .opVsat t o => Sys2Proof.Machine.execOpVsat t o s
  | .opFadd t o => Sys2Proof.Machine.execOpFadd t o s
  | .opFsub t o => Sys2Proof.Machine.execOpFsub t o s
  | .opFmul t o => Sys2Proof.Machine.execOpFmul t o s
  | .opFmac t o => Sys2Proof.Machine.execOpFmac t o s
  | .opFdiv t o => Sys2Proof.Machine.execOpFdiv t o s
  | .opFsqrt t o => Sys2Proof.Machine.execOpFsqrt t o s
  | .opFcmpeq t o => Sys2Proof.Machine.execOpFcmpeq t o s
  | .opFcmplt t o => Sys2Proof.Machine.execOpFcmplt t o s
  | .opFtoi t o => Sys2Proof.Machine.execOpFtoi t o s
  | .opItof t o => Sys2Proof.Machine.execOpItof t o s
  | .opFmin t o => Sys2Proof.Machine.execOpFmin t o s
  | .opFmax t o => Sys2Proof.Machine.execOpFmax t o s
  | .opFabs t o => Sys2Proof.Machine.execOpFabs t o s
  | .opAnd t o => Sys2Proof.Machine.execOpAnd t o s
  | .opOr t o => Sys2Proof.Machine.execOpOr t o s
  | .opXor t o => Sys2Proof.Machine.execOpXor t o s
  | .opNot t o => Sys2Proof.Machine.execOpNot t o s
  | .opBset t o => Sys2Proof.Machine.execOpBset t o s
  | .opBclr t o => Sys2Proof.Machine.execOpBclr t o s
  | .opBtst t o => Sys2Proof.Machine.execOpBtst t o s
  | .opPset t o => Sys2Proof.Machine.execOpPset t o s
  | .opPand t o => Sys2Proof.Machine.execOpPand t o s
  | .opPor t o => Sys2Proof.Machine.execOpPor t o s
  | .opPnot t o => Sys2Proof.Machine.execOpPnot t o s
  | .opTon t o => Sys2Proof.Machine.execOpTon t o s
  | .opTof t o => Sys2Proof.Machine.execOpTof t o s
  | .opTp t o => Sys2Proof.Machine.execOpTp t o s
  | .opRtrig t o => Sys2Proof.Machine.execOpRtrig t o s
  | .opFtrig t o => Sys2Proof.Machine.execOpFtrig t o s
  | .opTrd1 t o => Sys2Proof.Machine.execOpTrd1 t o s
  | .opTwr1 t o => Sys2Proof.Machine.execOpTwr1 t o s
  | .opTrdt t o => Sys2Proof.Machine.execOpTrdt t o s
  | .opTwrt t o => Sys2Proof.Machine.execOpTwrt t o s
  | .opTrdx t o => Sys2Proof.Machine.execOpTrdx t o s
  | .opLatchm t o => Sys2Proof.Machine.execOpLatchm t o s
  | .opCmtout t o => Sys2Proof.Machine.execOpCmtout t o s
  | .opCmtlp t o => Sys2Proof.Machine.execOpCmtlp t o s
  | .opCmtax t o => Sys2Proof.Machine.execOpCmtax t o s
  | .opWrdy t o => Sys2Proof.Machine.execOpWrdy t o s
  | .opWcan t o => Sys2Proof.Machine.execOpWcan t o s
  | .opWrel t o => Sys2Proof.Machine.execOpWrel t o s
  | .opEvt t o => Sys2Proof.Machine.execOpEvt t o s
  | .windowStart t => Sys2Proof.Machine.execWindowStart t s
  | .windowComplete w => Sys2Proof.Machine.execWindowComplete w s
  | .windowDeadline t => Sys2Proof.Machine.execWindowDeadline t s
  | .commitEnd => Sys2Proof.Machine.execCommitEnd s
  | .retainCapture => Sys2Proof.Machine.execRetainCapture s
  | .journalRecordWrite ok => Sys2Proof.Machine.execJournalRecordWrite ok s
  | .itemComplete t => Sys2Proof.Machine.execItemComplete t s
  | .releaseTimeReached item => Sys2Proof.Machine.execReleaseTimeReached item s
  | .affinityHoldEnd item => Sys2Proof.Machine.execAffinityHoldEnd item s
  | .readyEntryAged item => Sys2Proof.Machine.execReadyEntryAged item s
  | .wqReady sess req item => Sys2Proof.Machine.execWqReady sess req item s
  | .wqCancel sess req item => Sys2Proof.Machine.execWqCancel sess req item s
  | .wqRelease sess req item => Sys2Proof.Machine.execWqRelease sess req item s
  | .forceSet sess req => Sys2Proof.Machine.execForceSet sess req s
  | .forceRelease sess req => Sys2Proof.Machine.execForceRelease sess req s
  | .forceReleaseAll sess req => Sys2Proof.Machine.execForceReleaseAll sess req s
  | .olcLoadComplete => Sys2Proof.Machine.execOlcLoadComplete s
  | .olcArm sess req => Sys2Proof.Machine.execOlcArm sess req s
  | .olcDisarm sess req => Sys2Proof.Machine.execOlcDisarm sess req s
  | .olcSwap => Sys2Proof.Machine.execOlcSwap s
  | .loopUpdate n => Sys2Proof.Machine.execLoopUpdate n s
  | .modeReqOpen sess req n => Sys2Proof.Machine.execModeReqOpen sess req n s
  | .modeReqManual sess req n => Sys2Proof.Machine.execModeReqManual sess req n s
  | .modeReqClosed sess req n => Sys2Proof.Machine.execModeReqClosed sess req n s
  | .rcClear sess req n => Sys2Proof.Machine.execRcClear sess req n s
  | .rcLearn sess req n value => Sys2Proof.Machine.execRcLearn sess req n value s
  | .injStart sess req n => Sys2Proof.Machine.execInjStart sess req n s
  | .injStop sess req n => Sys2Proof.Machine.execInjStop sess req n s
  | .injectionEnd n => Sys2Proof.Machine.execInjectionEnd n s
  | .axStop sess req axis => Sys2Proof.Machine.execAxStop sess req axis s
  | .axQstop sess req axis => Sys2Proof.Machine.execAxQstop sess req axis s
  | .axResume sess req axis => Sys2Proof.Machine.execAxResume sess req axis s
  | .jogPositive sess req axis => Sys2Proof.Machine.execJogPositive sess req axis s
  | .jogNegative sess req axis => Sys2Proof.Machine.execJogNegative sess req axis s
  | .jogEnd sess req axis => Sys2Proof.Machine.execJogEnd sess req axis s
  | .axPosLatch sess req axis => Sys2Proof.Machine.execAxPosLatch sess req axis s
  | .encoderEdge axis a b stamp => Sys2Proof.Machine.execEncoderEdge axis a b stamp s
  | .switchEdge axis sw level stamp => Sys2Proof.Machine.execSwitchEdge axis sw level stamp s
  | .debounceComplete axis sw => Sys2Proof.Machine.execDebounceComplete axis sw s
  | .homeStart sess req axis => Sys2Proof.Machine.execHomeStart sess req axis s
  | .homeAbandon sess req axis => Sys2Proof.Machine.execHomeAbandon sess req axis s
  | .stoneFrame f => Sys2Proof.Machine.execStoneFrame f s
  | .safeUp f => Sys2Proof.Machine.execSafeUp f s
  | .ashReenum sess req port => Sys2Proof.Machine.execAshReenum sess req port s
  | .report r => Sys2Proof.Machine.execReport r s
  | .enumReturn port count => Sys2Proof.Machine.execEnumReturn port count s
  | .enumReplyTimeout port => Sys2Proof.Machine.execEnumReplyTimeout port s
  | .ashLinkDown port => Sys2Proof.Machine.execAshLinkDown port s
  | .courseFrameShadow port claim cycle words => Sys2Proof.Machine.execCourseFrameShadow port claim cycle words s
  | .shadowLost port => Sys2Proof.Machine.execShadowLost port s
  | .helloSend => Sys2Proof.Machine.execHelloSend s
  | .hello f h => Sys2Proof.Machine.execHello f h s
  | .neighbourTimeout dev => Sys2Proof.Machine.execNeighbourTimeout dev s
  | .linkUp unit => Sys2Proof.Machine.execLinkUp unit s
  | .ident unit m => Sys2Proof.Machine.execIdent unit m s
  | .identTimeout unit => Sys2Proof.Machine.execIdentTimeout unit s
  | .lnApprove sess req unit => Sys2Proof.Machine.execLnApprove sess req unit s
  | .lnForget sess req unit => Sys2Proof.Machine.execLnForget sess req unit s
  | .shaft f m => Sys2Proof.Machine.execShaft f m s
  | .shaftConsume => Sys2Proof.Machine.execShaftConsume s
  | .exportSend => Sys2Proof.Machine.execExportSend s
  | .exportFrame f m => Sys2Proof.Machine.execExportFrame f m s
  | .importStale tag => Sys2Proof.Machine.execImportStale tag s
  | .trigger f trig time => Sys2Proof.Machine.execTrigger f trig time s
  | .safe f x => Sys2Proof.Machine.execSafe f x s
  | .mgmt f m => Sys2Proof.Machine.execMgmt f m s
  | .relay unit m => Sys2Proof.Machine.execRelay unit m s
  | .relayAck unit cont chunk code => Sys2Proof.Machine.execRelayAck unit cont chunk code s
  | .relayResendTimeout cont chunk => Sys2Proof.Machine.execRelayResendTimeout cont chunk s
  | .hist stream => Sys2Proof.Machine.execHist stream s
  | .histAck stream pos => Sys2Proof.Machine.execHistAck stream pos s
  | .heartbeat b => Sys2Proof.Machine.execHeartbeat b s
  | .heartbeatMissed => Sys2Proof.Machine.execHeartbeatMissed s
  | .mrYield sess req => Sys2Proof.Machine.execMrYield sess req s
  | .yieldFrame h lastEpoch mode => Sys2Proof.Machine.execYieldFrame h lastEpoch mode s
  | .epochData h idx items => Sys2Proof.Machine.execEpochData h idx items s
  | .epochEnd f => Sys2Proof.Machine.execEpochEnd f s
  | .mrResync sess req => Sys2Proof.Machine.execMrResync sess req s
  | .resyncData h x => Sys2Proof.Machine.execResyncData h x s
  | .resyncEnd f => Sys2Proof.Machine.execResyncEnd f s
  | .mrApprove sess req => Sys2Proof.Machine.execMrApprove sess req s
  | .mrForget sess req => Sys2Proof.Machine.execMrForget sess req s
  | .packageFrame h p => Sys2Proof.Machine.execPackageFrame h p s
  | .pairWaitExpiry => Sys2Proof.Machine.execPairWaitExpiry s
  | .rsStart sess req k => Sys2Proof.Machine.execRsStart sess req k s
  | .rsStop sess req k => Sys2Proof.Machine.execRsStop sess req k s
  | .rsClaim sess req k => Sys2Proof.Machine.execRsClaim sess req k s
  | .rsUnclaim sess req k => Sys2Proof.Machine.execRsUnclaim sess req k s
  | .rsAck sess req k value => Sys2Proof.Machine.execRsAck sess req k value s
  | .rsMark sess req k value => Sys2Proof.Machine.execRsMark sess req k value s
  | .rsCounterLatch sess req k => Sys2Proof.Machine.execRsCounterLatch sess req k s
  | .gapWrite k => Sys2Proof.Machine.execGapWrite k s
  | .peerSilent k => Sys2Proof.Machine.execPeerSilent k s
  | .trFire sess req x => Sys2Proof.Machine.execTrFire sess req x s
  | .trEnable sess req x value => Sys2Proof.Machine.execTrEnable sess req x value s
  | .cpArm sess req u => Sys2Proof.Machine.execCpArm sess req u s
  | .cpDisarm sess req u => Sys2Proof.Machine.execCpDisarm sess req u s
  | .cpRelease sess req u => Sys2Proof.Machine.execCpRelease sess req u s
  | .cpTrigger sess req u => Sys2Proof.Machine.execCpTrigger sess req u s
  | .rowAssembly u t => Sys2Proof.Machine.execRowAssembly u t s
  | .rearmIntervalEnd u => Sys2Proof.Machine.execRearmIntervalEnd u s
  | .safetySample x => Sys2Proof.Machine.execSafetySample x s
  | .ss1DelayExpiry n => Sys2Proof.Machine.execSs1DelayExpiry n s
  | .testPulse x => Sys2Proof.Machine.execTestPulse x s
  | .darkTest n => Sys2Proof.Machine.execDarkTest n s
  | .safeRstRelease samples => Sys2Proof.Machine.execSafeRstRelease samples s
  | .channelCrossCheck c => Sys2Proof.Machine.execChannelCrossCheck c s
  | .oscillatorCheck hz byW => Sys2Proof.Machine.execOscillatorCheck hz byW s
  | .tarn5EccError uncorr => Sys2Proof.Machine.execTarn5EccError uncorr s
  | .brakeRequestRead k rb pos => Sys2Proof.Machine.execBrakeRequestRead k rb pos s
  | .brakeTestEnd k pos => Sys2Proof.Machine.execBrakeTestEnd k pos s
  | .brakeTestOverdue k => Sys2Proof.Machine.execBrakeTestOverdue k s
  | .connectionTimeout c => Sys2Proof.Machine.execConnectionTimeout c s
  | .mirrorUpdate => Sys2Proof.Machine.execMirrorUpdate s
  | .contData sess req d => Sys2Proof.Machine.execContData sess req d s
  | .contStatus sess req dest cont => Sys2Proof.Machine.execContStatus sess req dest cont s
  | .contCancel sess req dest cont => Sys2Proof.Machine.execContCancel sess req dest cont s
  | .containerVerify cont v env => Sys2Proof.Machine.execContainerVerify cont v env s
  | .activate sess req a env => Sys2Proof.Machine.execActivate sess req a env s
  | .confirm sess req => Sys2Proof.Machine.execConfirm sess req s
  | .getCert sess req => Sys2Proof.Machine.execGetCert sess req s
  | .debugLifetimeEnd => Sys2Proof.Machine.execDebugLifetimeEnd s
  | .dbgLock sess req => Sys2Proof.Machine.execDbgLock sess req s
  | .powerLoss => Sys2Proof.Machine.execPowerLoss s
  | .pfwDeassert => Sys2Proof.Machine.execPfwDeassert s
  | .lintelLinkDown unit => Sys2Proof.Machine.execLintelLinkDown unit s
  | .ashLinkUp port => Sys2Proof.Machine.execAshLinkUp port s
  | .morLinkUp => Sys2Proof.Machine.execMorLinkUp s

end Sys2Proof.Machine
end

