-- ==== Sys2Proof/Laws/SMap.lean ====
section
/-!
SUPPORT. Laws/SMap.lean: reading after writing a sparse map, and that every operation on it keeps the canonical form.
-/
namespace Sys2Proof.Machine

@[simp] theorem SMap.get_nil {α : Type} (d : α) (a : Nat) : SMap.get d ([] : SMap α) a = d := rfl

theorem SMap.get_put {α : Type} (d v : α) (a b : Nat) : ∀ m : SMap α,
    SMap.get d (SMap.put m a v) b = if b = a then v else SMap.get d m b
  | [] => rfl
  | (k, w) :: m => by
    unfold SMap.put
    split
    · simp [SMap.get]
    · split
      · rename_i h1 h2; subst h2
        by_cases hb : b = a <;> simp [SMap.get, hb]
      · rename_i h1 h2
        by_cases hb : b = k
        · subst hb; simp [SMap.get, Ne.symm h2]
        · simp [SMap.get, hb, SMap.get_put d v a b m]

theorem SMap.get_erase {α : Type} (d : α) (a b : Nat) : ∀ m : SMap α,
    SMap.get d (m.filter (fun e => e.1 != a)) b = if b = a then d else SMap.get d m b
  | [] => by simp
  | (k, w) :: m => by
    by_cases hk : k = a
    · subst hk
      have := SMap.get_erase d k b m
      by_cases hb : b = k <;> simp_all [SMap.get]
    · have := SMap.get_erase d a b m
      by_cases hb : b = k
      · subst hb; simp [hk, SMap.get]
      · simp [hk, SMap.get, hb, this]

/-- Reading any key after writing one. -/
theorem SMap.get_set {α : Type} [DecidableEq α] (d v : α) (m : SMap α) (a b : Nat) :
    SMap.get d (SMap.set d m a v) b = if b = a then v else SMap.get d m b := by
  unfold SMap.set
  split
  · rename_i h; rw [SMap.get_erase, h]
  · exact SMap.get_put d v a b m

@[simp] theorem SMap.get_set_self {α : Type} [DecidableEq α] (d v : α) (m : SMap α) (a : Nat) :
    SMap.get d (SMap.set d m a v) a = v := by simp [SMap.get_set]

theorem SMap.get_set_ne {α : Type} [DecidableEq α] (d v : α) (m : SMap α) (a b : Nat) (h : b ≠ a) :
    SMap.get d (SMap.set d m a v) b = SMap.get d m b := by simp [SMap.get_set, h]

@[simp] theorem SMap.get_upd_self {α : Type} [DecidableEq α] (d : α) (m : SMap α) (a : Nat) (f : α → α) :
    SMap.get d (SMap.upd d m a f) a = f (SMap.get d m a) := by simp [SMap.upd]

theorem SMap.get_upd_ne {α : Type} [DecidableEq α] (d : α) (m : SMap α) (a b : Nat) (f : α → α) (h : b ≠ a) :
    SMap.get d (SMap.upd d m a f) b = SMap.get d m b := by simp [SMap.upd, SMap.get_set, h]

/-! The canonical form. -/

/-- Keys above a bound, all of them: what a rising list gives. -/
theorem SMap.lt_of_wf {α : Type} [DecidableEq α] (d : α) : ∀ (m : SMap α) (k : Nat),
    SMap.above k m = true → SMap.wf d m = true → ∀ e ∈ m, k < e.1
  | [], _, _, _, e, he => by cases he
  | (k', v) :: m, k, ha, hw, e, he => by
    simp only [SMap.above, decide_eq_true_eq] at ha
    simp only [SMap.wf, Bool.and_eq_true, decide_eq_true_eq] at hw
    cases he with
    | head => exact ha
    | tail _ h => exact Nat.lt_trans ha (SMap.lt_of_wf d m k' hw.1.2 hw.2 e h)

theorem SMap.above_of_lt {α : Type} (k : Nat) (m : SMap α) (h : ∀ e ∈ m, k < e.1) : SMap.above k m = true := by
  cases m with
  | nil => rfl
  | cons e m => simpa [SMap.above] using h e (by simp)

theorem SMap.wf_filter {α : Type} [DecidableEq α] (d : α) (p : Nat × α → Bool) : ∀ m : SMap α,
    SMap.wf d m = true → SMap.wf d (m.filter p) = true
  | [], _ => rfl
  | (k, v) :: m, h => by
    have hw := h
    simp only [SMap.wf, Bool.and_eq_true, decide_eq_true_eq] at hw
    by_cases hp : p (k, v) = true
    · simp only [List.filter, hp, SMap.wf, Bool.and_eq_true, decide_eq_true_eq]
      exact ⟨⟨hw.1.1, SMap.above_of_lt _ _ fun e he => SMap.lt_of_wf d m k hw.1.2 hw.2 e (List.mem_filter.mp he).1⟩,
        SMap.wf_filter d p m hw.2⟩
    · simp only [List.filter, hp]
      exact SMap.wf_filter d p m hw.2

theorem SMap.mem_put {α : Type} (a : Nat) (v : α) : ∀ (m : SMap α) (e : Nat × α), e ∈ SMap.put m a v → e = (a, v) ∨ e ∈ m
  | [], e, h => by simpa [SMap.put] using h
  | (k, w) :: m, e, h => by
    unfold SMap.put at h
    split at h
    · simpa using h
    · split at h
      · rename_i _ h2
        subst h2
        rcases List.mem_cons.mp h with h | h
        · exact .inl h
        · exact .inr (List.mem_cons_of_mem _ h)
      · rcases List.mem_cons.mp h with h | h
        · exact .inr (by simp [h])
        · rcases SMap.mem_put a v m e h with h | h
          · exact .inl h
          · exact .inr (List.mem_cons_of_mem _ h)

theorem SMap.wf_put {α : Type} [DecidableEq α] (d v : α) (a : Nat) (hv : v ≠ d) : ∀ m : SMap α,
    SMap.wf d m = true → SMap.wf d (SMap.put m a v) = true
  | [], _ => by simp [SMap.put, SMap.wf, SMap.above, hv]
  | (k, w) :: m, h => by
    have hw := h
    simp only [SMap.wf, Bool.and_eq_true, decide_eq_true_eq] at hw
    unfold SMap.put
    split
    · rename_i h1
      have h3 : SMap.above a ((k, w) :: m) = true := by simp [SMap.above, h1]
      simp only [SMap.wf, Bool.and_eq_true, decide_eq_true_eq] at h ⊢
      exact ⟨⟨hv, h3⟩, h⟩
    · split
      · simp [SMap.wf, hv, hw.1.2, hw.2]
      · rename_i h1 h2
        simp only [SMap.wf, Bool.and_eq_true, decide_eq_true_eq]
        refine ⟨⟨hw.1.1, SMap.above_of_lt _ _ fun e he => ?_⟩, SMap.wf_put d v a hv m hw.2⟩
        rcases SMap.mem_put a v m e he with he | he
        · subst he; simp only; omega
        · exact SMap.lt_of_wf d m k hw.1.2 hw.2 e he

/-- A write keeps the canonical form. -/
theorem SMap.wf_set {α : Type} [DecidableEq α] (d v : α) (m : SMap α) (a : Nat) (h : SMap.wf d m = true) :
    SMap.wf d (SMap.set d m a v) = true := by
  unfold SMap.set
  split
  · exact SMap.wf_filter d _ m h
  · rename_i hv; exact SMap.wf_put d v a hv m h

theorem SMap.wf_upd {α : Type} [DecidableEq α] (d : α) (m : SMap α) (a : Nat) (f : α → α) (h : SMap.wf d m = true) :
    SMap.wf d (SMap.upd d m a f) = true := SMap.wf_set d _ m a h

theorem SMap.wf_mapAll {α : Type} [DecidableEq α] (d : α) (f : Nat → α → α) : ∀ m : SMap α, SMap.wf d (SMap.mapAll d f m) = true
  | [] => rfl
  | (k, v) :: m => SMap.wf_set d (f k v) _ k (SMap.wf_mapAll d f m)

theorem SMap.wf_drop {α : Type} [DecidableEq α] (d : α) (p : Nat → Bool) (m : SMap α) (h : SMap.wf d m = true) :
    SMap.wf d (SMap.drop p m) = true := SMap.wf_filter d _ m h

/-- Two maps in canonical form that read alike are equal. -/
theorem SMap.eq_of_get {α : Type} [DecidableEq α] (d : α) : ∀ m n : SMap α, SMap.wf d m = true → SMap.wf d n = true →
    (∀ a, SMap.get d m a = SMap.get d n a) → m = n
  | [], [], _, _, _ => rfl
  | [], (k, v) :: n, _, hn, h => by
    simp only [SMap.wf, Bool.and_eq_true, decide_eq_true_eq] at hn
    exact absurd (by simpa [SMap.get] using (h k).symm) hn.1.1
  | (k, v) :: m, [], hm, _, h => by
    simp only [SMap.wf, Bool.and_eq_true, decide_eq_true_eq] at hm
    exact absurd (by simpa [SMap.get] using h k) hm.1.1
  | (k, v) :: m, (j, w) :: n, hm, hn, h => by
    have hm' := hm
    have hn' := hn
    simp only [SMap.wf, Bool.and_eq_true, decide_eq_true_eq] at hm' hn'
    have none_ : ∀ (x : SMap α) (b : Nat), (∀ e ∈ x, b < e.1) → SMap.get d x b = d := by
      intro x b
      induction x with
      | nil => intro _; rfl
      | cons e x ih =>
        intro hx
        have := hx e (by simp)
        simp only [SMap.get]
        rw [if_neg (by omega)]
        exact ih fun e he => hx e (List.mem_cons_of_mem _ he)
    have am := SMap.lt_of_wf d m k hm'.1.2 hm'.2
    have an := SMap.lt_of_wf d n j hn'.1.2 hn'.2
    have hkj : k = j := by
      rcases Nat.lt_trichotomy k j with hlt | heq | hgt
      · have h1 := h k
        have : k ≠ j := by omega
        simp only [SMap.get, if_true, this, if_false] at h1
        rw [none_ n k fun e he => Nat.lt_trans hlt (an e he)] at h1
        exact absurd h1 hm'.1.1
      · exact heq
      · have h1 := h j
        have : j ≠ k := by omega
        simp only [SMap.get, if_true, this, if_false] at h1
        rw [none_ m j fun e he => Nat.lt_trans hgt (am e he)] at h1
        exact absurd h1.symm hn'.1.1
    subst hkj
    have hv : v = w := by simpa [SMap.get] using h k
    subst hv
    congr 1
    refine SMap.eq_of_get d m n hm'.2 hn'.2 fun a => ?_
    by_cases ha : a = k
    · subst ha; rw [none_ m a am, none_ n a an]
    · simpa [SMap.get, ha] using h a

end Sys2Proof.Machine
end

