-- ==== Sys2Proof/Laws/State.lean ====
section
/-!
SUPPORT. Laws/State.lean: what each named update of the state changes and leaves: one lemma for each field and update.
-/
namespace Sys2Proof.Machine

@[simp] theorem Core.onHost_regs (c : Core) (f : HostSt → HostSt) : (c.onHost f).regs = c.regs := rfl
@[simp] theorem Core.onHost_img (c : Core) (f : HostSt → HostSt) : (c.onHost f).img = c.img := rfl
@[simp] theorem Core.onHost_md (c : Core) (f : HostSt → HostSt) : (c.onHost f).md = c.md := rfl
@[simp] theorem Core.onHost_plumb (c : Core) (f : HostSt → HostSt) : (c.onHost f).plumb = c.plumb := rfl
@[simp] theorem Core.onHost_spr (c : Core) (f : HostSt → HostSt) : (c.onHost f).spr = c.spr := rfl
@[simp] theorem Core.onHost_cap (c : Core) (f : HostSt → HostSt) : (c.onHost f).cap = c.cap := rfl
@[simp] theorem Core.onHost_fab (c : Core) (f : HostSt → HostSt) : (c.onHost f).fab = c.fab := rfl
@[simp] theorem Core.onHost_wq (c : Core) (f : HostSt → HostSt) : (c.onHost f).wq = c.wq := rfl
@[simp] theorem Core.onHost_prog (c : Core) (f : HostSt → HostSt) : (c.onHost f).prog = c.prog := rfl
@[simp] theorem Core.onHost_lp (c : Core) (f : HostSt → HostSt) : (c.onHost f).lp = c.lp := rfl
@[simp] theorem Core.onHost_mot (c : Core) (f : HostSt → HostSt) : (c.onHost f).mot = c.mot := rfl
@[simp] theorem Core.onHost_ash (c : Core) (f : HostSt → HostSt) : (c.onHost f).ash = c.ash := rfl
@[simp] theorem Core.onHost_ln (c : Core) (f : HostSt → HostSt) : (c.onHost f).ln = c.ln := rfl
@[simp] theorem Core.onHost_mr (c : Core) (f : HostSt → HostSt) : (c.onHost f).mr = c.mr := rfl
@[simp] theorem Core.onHost_up (c : Core) (f : HostSt → HostSt) : (c.onHost f).up = c.up := rfl
@[simp] theorem Core.onHost_mem (c : Core) (f : HostSt → HostSt) : (c.onHost f).mem = c.mem := rfl
@[simp] theorem Core.onHost_pw (c : Core) (f : HostSt → HostSt) : (c.onHost f).pw = c.pw := rfl
@[simp] theorem Core.onHost_mirror (c : Core) (f : HostSt → HostSt) : (c.onHost f).mirror = c.mirror := rfl
@[simp] theorem Core.onHost_out (c : Core) (f : HostSt → HostSt) : (c.onHost f).out = c.out := rfl
@[simp] theorem Core.onHost_free (c : Core) (f : HostSt → HostSt) : (c.onHost f).free = c.free := rfl
@[simp] theorem Core.onHost_host (c : Core) (f : HostSt → HostSt) : (c.onHost f).host = f c.host := rfl
@[simp] theorem Core.onMd_regs (c : Core) (f : ModeSt → ModeSt) : (c.onMd f).regs = c.regs := rfl
@[simp] theorem Core.onMd_img (c : Core) (f : ModeSt → ModeSt) : (c.onMd f).img = c.img := rfl
@[simp] theorem Core.onMd_host (c : Core) (f : ModeSt → ModeSt) : (c.onMd f).host = c.host := rfl
@[simp] theorem Core.onMd_plumb (c : Core) (f : ModeSt → ModeSt) : (c.onMd f).plumb = c.plumb := rfl
@[simp] theorem Core.onMd_spr (c : Core) (f : ModeSt → ModeSt) : (c.onMd f).spr = c.spr := rfl
@[simp] theorem Core.onMd_cap (c : Core) (f : ModeSt → ModeSt) : (c.onMd f).cap = c.cap := rfl
@[simp] theorem Core.onMd_fab (c : Core) (f : ModeSt → ModeSt) : (c.onMd f).fab = c.fab := rfl
@[simp] theorem Core.onMd_wq (c : Core) (f : ModeSt → ModeSt) : (c.onMd f).wq = c.wq := rfl
@[simp] theorem Core.onMd_prog (c : Core) (f : ModeSt → ModeSt) : (c.onMd f).prog = c.prog := rfl
@[simp] theorem Core.onMd_lp (c : Core) (f : ModeSt → ModeSt) : (c.onMd f).lp = c.lp := rfl
@[simp] theorem Core.onMd_mot (c : Core) (f : ModeSt → ModeSt) : (c.onMd f).mot = c.mot := rfl
@[simp] theorem Core.onMd_ash (c : Core) (f : ModeSt → ModeSt) : (c.onMd f).ash = c.ash := rfl
@[simp] theorem Core.onMd_ln (c : Core) (f : ModeSt → ModeSt) : (c.onMd f).ln = c.ln := rfl
@[simp] theorem Core.onMd_mr (c : Core) (f : ModeSt → ModeSt) : (c.onMd f).mr = c.mr := rfl
@[simp] theorem Core.onMd_up (c : Core) (f : ModeSt → ModeSt) : (c.onMd f).up = c.up := rfl
@[simp] theorem Core.onMd_mem (c : Core) (f : ModeSt → ModeSt) : (c.onMd f).mem = c.mem := rfl
@[simp] theorem Core.onMd_pw (c : Core) (f : ModeSt → ModeSt) : (c.onMd f).pw = c.pw := rfl
@[simp] theorem Core.onMd_mirror (c : Core) (f : ModeSt → ModeSt) : (c.onMd f).mirror = c.mirror := rfl
@[simp] theorem Core.onMd_out (c : Core) (f : ModeSt → ModeSt) : (c.onMd f).out = c.out := rfl
@[simp] theorem Core.onMd_free (c : Core) (f : ModeSt → ModeSt) : (c.onMd f).free = c.free := rfl
@[simp] theorem Core.onMd_md (c : Core) (f : ModeSt → ModeSt) : (c.onMd f).md = f c.md := rfl
@[simp] theorem Core.onPlumb_regs (c : Core) (f : Plumb → Plumb) : (c.onPlumb f).regs = c.regs := rfl
@[simp] theorem Core.onPlumb_img (c : Core) (f : Plumb → Plumb) : (c.onPlumb f).img = c.img := rfl
@[simp] theorem Core.onPlumb_host (c : Core) (f : Plumb → Plumb) : (c.onPlumb f).host = c.host := rfl
@[simp] theorem Core.onPlumb_md (c : Core) (f : Plumb → Plumb) : (c.onPlumb f).md = c.md := rfl
@[simp] theorem Core.onPlumb_spr (c : Core) (f : Plumb → Plumb) : (c.onPlumb f).spr = c.spr := rfl
@[simp] theorem Core.onPlumb_cap (c : Core) (f : Plumb → Plumb) : (c.onPlumb f).cap = c.cap := rfl
@[simp] theorem Core.onPlumb_fab (c : Core) (f : Plumb → Plumb) : (c.onPlumb f).fab = c.fab := rfl
@[simp] theorem Core.onPlumb_wq (c : Core) (f : Plumb → Plumb) : (c.onPlumb f).wq = c.wq := rfl
@[simp] theorem Core.onPlumb_prog (c : Core) (f : Plumb → Plumb) : (c.onPlumb f).prog = c.prog := rfl
@[simp] theorem Core.onPlumb_lp (c : Core) (f : Plumb → Plumb) : (c.onPlumb f).lp = c.lp := rfl
@[simp] theorem Core.onPlumb_mot (c : Core) (f : Plumb → Plumb) : (c.onPlumb f).mot = c.mot := rfl
@[simp] theorem Core.onPlumb_ash (c : Core) (f : Plumb → Plumb) : (c.onPlumb f).ash = c.ash := rfl
@[simp] theorem Core.onPlumb_ln (c : Core) (f : Plumb → Plumb) : (c.onPlumb f).ln = c.ln := rfl
@[simp] theorem Core.onPlumb_mr (c : Core) (f : Plumb → Plumb) : (c.onPlumb f).mr = c.mr := rfl
@[simp] theorem Core.onPlumb_up (c : Core) (f : Plumb → Plumb) : (c.onPlumb f).up = c.up := rfl
@[simp] theorem Core.onPlumb_mem (c : Core) (f : Plumb → Plumb) : (c.onPlumb f).mem = c.mem := rfl
@[simp] theorem Core.onPlumb_pw (c : Core) (f : Plumb → Plumb) : (c.onPlumb f).pw = c.pw := rfl
@[simp] theorem Core.onPlumb_mirror (c : Core) (f : Plumb → Plumb) : (c.onPlumb f).mirror = c.mirror := rfl
@[simp] theorem Core.onPlumb_out (c : Core) (f : Plumb → Plumb) : (c.onPlumb f).out = c.out := rfl
@[simp] theorem Core.onPlumb_free (c : Core) (f : Plumb → Plumb) : (c.onPlumb f).free = c.free := rfl
@[simp] theorem Core.onPlumb_plumb (c : Core) (f : Plumb → Plumb) : (c.onPlumb f).plumb = f c.plumb := rfl
@[simp] theorem Core.onRec_regs (c : Core) (f : Recorder → Recorder) : (c.onRec f).regs = c.regs := rfl
@[simp] theorem Core.onRec_img (c : Core) (f : Recorder → Recorder) : (c.onRec f).img = c.img := rfl
@[simp] theorem Core.onRec_host (c : Core) (f : Recorder → Recorder) : (c.onRec f).host = c.host := rfl
@[simp] theorem Core.onRec_md (c : Core) (f : Recorder → Recorder) : (c.onRec f).md = c.md := rfl
@[simp] theorem Core.onRec_plumb (c : Core) (f : Recorder → Recorder) : (c.onRec f).plumb = c.plumb := rfl
@[simp] theorem Core.onRec_cap (c : Core) (f : Recorder → Recorder) : (c.onRec f).cap = c.cap := rfl
@[simp] theorem Core.onRec_fab (c : Core) (f : Recorder → Recorder) : (c.onRec f).fab = c.fab := rfl
@[simp] theorem Core.onRec_wq (c : Core) (f : Recorder → Recorder) : (c.onRec f).wq = c.wq := rfl
@[simp] theorem Core.onRec_prog (c : Core) (f : Recorder → Recorder) : (c.onRec f).prog = c.prog := rfl
@[simp] theorem Core.onRec_lp (c : Core) (f : Recorder → Recorder) : (c.onRec f).lp = c.lp := rfl
@[simp] theorem Core.onRec_mot (c : Core) (f : Recorder → Recorder) : (c.onRec f).mot = c.mot := rfl
@[simp] theorem Core.onRec_ash (c : Core) (f : Recorder → Recorder) : (c.onRec f).ash = c.ash := rfl
@[simp] theorem Core.onRec_ln (c : Core) (f : Recorder → Recorder) : (c.onRec f).ln = c.ln := rfl
@[simp] theorem Core.onRec_mr (c : Core) (f : Recorder → Recorder) : (c.onRec f).mr = c.mr := rfl
@[simp] theorem Core.onRec_up (c : Core) (f : Recorder → Recorder) : (c.onRec f).up = c.up := rfl
@[simp] theorem Core.onRec_mem (c : Core) (f : Recorder → Recorder) : (c.onRec f).mem = c.mem := rfl
@[simp] theorem Core.onRec_pw (c : Core) (f : Recorder → Recorder) : (c.onRec f).pw = c.pw := rfl
@[simp] theorem Core.onRec_mirror (c : Core) (f : Recorder → Recorder) : (c.onRec f).mirror = c.mirror := rfl
@[simp] theorem Core.onRec_out (c : Core) (f : Recorder → Recorder) : (c.onRec f).out = c.out := rfl
@[simp] theorem Core.onRec_free (c : Core) (f : Recorder → Recorder) : (c.onRec f).free = c.free := rfl
@[simp] theorem Core.onRec_spr (c : Core) (f : Recorder → Recorder) : (c.onRec f).spr = f c.spr := rfl
@[simp] theorem Core.onCap_regs (c : Core) (f : Capture → Capture) : (c.onCap f).regs = c.regs := rfl
@[simp] theorem Core.onCap_img (c : Core) (f : Capture → Capture) : (c.onCap f).img = c.img := rfl
@[simp] theorem Core.onCap_host (c : Core) (f : Capture → Capture) : (c.onCap f).host = c.host := rfl
@[simp] theorem Core.onCap_md (c : Core) (f : Capture → Capture) : (c.onCap f).md = c.md := rfl
@[simp] theorem Core.onCap_plumb (c : Core) (f : Capture → Capture) : (c.onCap f).plumb = c.plumb := rfl
@[simp] theorem Core.onCap_spr (c : Core) (f : Capture → Capture) : (c.onCap f).spr = c.spr := rfl
@[simp] theorem Core.onCap_fab (c : Core) (f : Capture → Capture) : (c.onCap f).fab = c.fab := rfl
@[simp] theorem Core.onCap_wq (c : Core) (f : Capture → Capture) : (c.onCap f).wq = c.wq := rfl
@[simp] theorem Core.onCap_prog (c : Core) (f : Capture → Capture) : (c.onCap f).prog = c.prog := rfl
@[simp] theorem Core.onCap_lp (c : Core) (f : Capture → Capture) : (c.onCap f).lp = c.lp := rfl
@[simp] theorem Core.onCap_mot (c : Core) (f : Capture → Capture) : (c.onCap f).mot = c.mot := rfl
@[simp] theorem Core.onCap_ash (c : Core) (f : Capture → Capture) : (c.onCap f).ash = c.ash := rfl
@[simp] theorem Core.onCap_ln (c : Core) (f : Capture → Capture) : (c.onCap f).ln = c.ln := rfl
@[simp] theorem Core.onCap_mr (c : Core) (f : Capture → Capture) : (c.onCap f).mr = c.mr := rfl
@[simp] theorem Core.onCap_up (c : Core) (f : Capture → Capture) : (c.onCap f).up = c.up := rfl
@[simp] theorem Core.onCap_mem (c : Core) (f : Capture → Capture) : (c.onCap f).mem = c.mem := rfl
@[simp] theorem Core.onCap_pw (c : Core) (f : Capture → Capture) : (c.onCap f).pw = c.pw := rfl
@[simp] theorem Core.onCap_mirror (c : Core) (f : Capture → Capture) : (c.onCap f).mirror = c.mirror := rfl
@[simp] theorem Core.onCap_out (c : Core) (f : Capture → Capture) : (c.onCap f).out = c.out := rfl
@[simp] theorem Core.onCap_free (c : Core) (f : Capture → Capture) : (c.onCap f).free = c.free := rfl
@[simp] theorem Core.onCap_cap (c : Core) (f : Capture → Capture) : (c.onCap f).cap = f c.cap := rfl
@[simp] theorem Core.onFab_regs (c : Core) (f : Fabric → Fabric) : (c.onFab f).regs = c.regs := rfl
@[simp] theorem Core.onFab_img (c : Core) (f : Fabric → Fabric) : (c.onFab f).img = c.img := rfl
@[simp] theorem Core.onFab_host (c : Core) (f : Fabric → Fabric) : (c.onFab f).host = c.host := rfl
@[simp] theorem Core.onFab_md (c : Core) (f : Fabric → Fabric) : (c.onFab f).md = c.md := rfl
@[simp] theorem Core.onFab_plumb (c : Core) (f : Fabric → Fabric) : (c.onFab f).plumb = c.plumb := rfl
@[simp] theorem Core.onFab_spr (c : Core) (f : Fabric → Fabric) : (c.onFab f).spr = c.spr := rfl
@[simp] theorem Core.onFab_cap (c : Core) (f : Fabric → Fabric) : (c.onFab f).cap = c.cap := rfl
@[simp] theorem Core.onFab_wq (c : Core) (f : Fabric → Fabric) : (c.onFab f).wq = c.wq := rfl
@[simp] theorem Core.onFab_prog (c : Core) (f : Fabric → Fabric) : (c.onFab f).prog = c.prog := rfl
@[simp] theorem Core.onFab_lp (c : Core) (f : Fabric → Fabric) : (c.onFab f).lp = c.lp := rfl
@[simp] theorem Core.onFab_mot (c : Core) (f : Fabric → Fabric) : (c.onFab f).mot = c.mot := rfl
@[simp] theorem Core.onFab_ash (c : Core) (f : Fabric → Fabric) : (c.onFab f).ash = c.ash := rfl
@[simp] theorem Core.onFab_ln (c : Core) (f : Fabric → Fabric) : (c.onFab f).ln = c.ln := rfl
@[simp] theorem Core.onFab_mr (c : Core) (f : Fabric → Fabric) : (c.onFab f).mr = c.mr := rfl
@[simp] theorem Core.onFab_up (c : Core) (f : Fabric → Fabric) : (c.onFab f).up = c.up := rfl
@[simp] theorem Core.onFab_mem (c : Core) (f : Fabric → Fabric) : (c.onFab f).mem = c.mem := rfl
@[simp] theorem Core.onFab_pw (c : Core) (f : Fabric → Fabric) : (c.onFab f).pw = c.pw := rfl
@[simp] theorem Core.onFab_mirror (c : Core) (f : Fabric → Fabric) : (c.onFab f).mirror = c.mirror := rfl
@[simp] theorem Core.onFab_out (c : Core) (f : Fabric → Fabric) : (c.onFab f).out = c.out := rfl
@[simp] theorem Core.onFab_free (c : Core) (f : Fabric → Fabric) : (c.onFab f).free = c.free := rfl
@[simp] theorem Core.onFab_fab (c : Core) (f : Fabric → Fabric) : (c.onFab f).fab = f c.fab := rfl
@[simp] theorem Core.onWq_regs (c : Core) (f : Queues → Queues) : (c.onWq f).regs = c.regs := rfl
@[simp] theorem Core.onWq_img (c : Core) (f : Queues → Queues) : (c.onWq f).img = c.img := rfl
@[simp] theorem Core.onWq_host (c : Core) (f : Queues → Queues) : (c.onWq f).host = c.host := rfl
@[simp] theorem Core.onWq_md (c : Core) (f : Queues → Queues) : (c.onWq f).md = c.md := rfl
@[simp] theorem Core.onWq_plumb (c : Core) (f : Queues → Queues) : (c.onWq f).plumb = c.plumb := rfl
@[simp] theorem Core.onWq_spr (c : Core) (f : Queues → Queues) : (c.onWq f).spr = c.spr := rfl
@[simp] theorem Core.onWq_cap (c : Core) (f : Queues → Queues) : (c.onWq f).cap = c.cap := rfl
@[simp] theorem Core.onWq_fab (c : Core) (f : Queues → Queues) : (c.onWq f).fab = c.fab := rfl
@[simp] theorem Core.onWq_prog (c : Core) (f : Queues → Queues) : (c.onWq f).prog = c.prog := rfl
@[simp] theorem Core.onWq_lp (c : Core) (f : Queues → Queues) : (c.onWq f).lp = c.lp := rfl
@[simp] theorem Core.onWq_mot (c : Core) (f : Queues → Queues) : (c.onWq f).mot = c.mot := rfl
@[simp] theorem Core.onWq_ash (c : Core) (f : Queues → Queues) : (c.onWq f).ash = c.ash := rfl
@[simp] theorem Core.onWq_ln (c : Core) (f : Queues → Queues) : (c.onWq f).ln = c.ln := rfl
@[simp] theorem Core.onWq_mr (c : Core) (f : Queues → Queues) : (c.onWq f).mr = c.mr := rfl
@[simp] theorem Core.onWq_up (c : Core) (f : Queues → Queues) : (c.onWq f).up = c.up := rfl
@[simp] theorem Core.onWq_mem (c : Core) (f : Queues → Queues) : (c.onWq f).mem = c.mem := rfl
@[simp] theorem Core.onWq_pw (c : Core) (f : Queues → Queues) : (c.onWq f).pw = c.pw := rfl
@[simp] theorem Core.onWq_mirror (c : Core) (f : Queues → Queues) : (c.onWq f).mirror = c.mirror := rfl
@[simp] theorem Core.onWq_out (c : Core) (f : Queues → Queues) : (c.onWq f).out = c.out := rfl
@[simp] theorem Core.onWq_free (c : Core) (f : Queues → Queues) : (c.onWq f).free = c.free := rfl
@[simp] theorem Core.onWq_wq (c : Core) (f : Queues → Queues) : (c.onWq f).wq = f c.wq := rfl
@[simp] theorem Core.onProg_regs (c : Core) (f : Prog → Prog) : (c.onProg f).regs = c.regs := rfl
@[simp] theorem Core.onProg_img (c : Core) (f : Prog → Prog) : (c.onProg f).img = c.img := rfl
@[simp] theorem Core.onProg_host (c : Core) (f : Prog → Prog) : (c.onProg f).host = c.host := rfl
@[simp] theorem Core.onProg_md (c : Core) (f : Prog → Prog) : (c.onProg f).md = c.md := rfl
@[simp] theorem Core.onProg_plumb (c : Core) (f : Prog → Prog) : (c.onProg f).plumb = c.plumb := rfl
@[simp] theorem Core.onProg_spr (c : Core) (f : Prog → Prog) : (c.onProg f).spr = c.spr := rfl
@[simp] theorem Core.onProg_cap (c : Core) (f : Prog → Prog) : (c.onProg f).cap = c.cap := rfl
@[simp] theorem Core.onProg_fab (c : Core) (f : Prog → Prog) : (c.onProg f).fab = c.fab := rfl
@[simp] theorem Core.onProg_wq (c : Core) (f : Prog → Prog) : (c.onProg f).wq = c.wq := rfl
@[simp] theorem Core.onProg_lp (c : Core) (f : Prog → Prog) : (c.onProg f).lp = c.lp := rfl
@[simp] theorem Core.onProg_mot (c : Core) (f : Prog → Prog) : (c.onProg f).mot = c.mot := rfl
@[simp] theorem Core.onProg_ash (c : Core) (f : Prog → Prog) : (c.onProg f).ash = c.ash := rfl
@[simp] theorem Core.onProg_ln (c : Core) (f : Prog → Prog) : (c.onProg f).ln = c.ln := rfl
@[simp] theorem Core.onProg_mr (c : Core) (f : Prog → Prog) : (c.onProg f).mr = c.mr := rfl
@[simp] theorem Core.onProg_up (c : Core) (f : Prog → Prog) : (c.onProg f).up = c.up := rfl
@[simp] theorem Core.onProg_mem (c : Core) (f : Prog → Prog) : (c.onProg f).mem = c.mem := rfl
@[simp] theorem Core.onProg_pw (c : Core) (f : Prog → Prog) : (c.onProg f).pw = c.pw := rfl
@[simp] theorem Core.onProg_mirror (c : Core) (f : Prog → Prog) : (c.onProg f).mirror = c.mirror := rfl
@[simp] theorem Core.onProg_out (c : Core) (f : Prog → Prog) : (c.onProg f).out = c.out := rfl
@[simp] theorem Core.onProg_free (c : Core) (f : Prog → Prog) : (c.onProg f).free = c.free := rfl
@[simp] theorem Core.onProg_prog (c : Core) (f : Prog → Prog) : (c.onProg f).prog = f c.prog := rfl
@[simp] theorem Core.onMr_regs (c : Core) (f : Mortar → Mortar) : (c.onMr f).regs = c.regs := rfl
@[simp] theorem Core.onMr_img (c : Core) (f : Mortar → Mortar) : (c.onMr f).img = c.img := rfl
@[simp] theorem Core.onMr_host (c : Core) (f : Mortar → Mortar) : (c.onMr f).host = c.host := rfl
@[simp] theorem Core.onMr_md (c : Core) (f : Mortar → Mortar) : (c.onMr f).md = c.md := rfl
@[simp] theorem Core.onMr_plumb (c : Core) (f : Mortar → Mortar) : (c.onMr f).plumb = c.plumb := rfl
@[simp] theorem Core.onMr_spr (c : Core) (f : Mortar → Mortar) : (c.onMr f).spr = c.spr := rfl
@[simp] theorem Core.onMr_cap (c : Core) (f : Mortar → Mortar) : (c.onMr f).cap = c.cap := rfl
@[simp] theorem Core.onMr_fab (c : Core) (f : Mortar → Mortar) : (c.onMr f).fab = c.fab := rfl
@[simp] theorem Core.onMr_wq (c : Core) (f : Mortar → Mortar) : (c.onMr f).wq = c.wq := rfl
@[simp] theorem Core.onMr_prog (c : Core) (f : Mortar → Mortar) : (c.onMr f).prog = c.prog := rfl
@[simp] theorem Core.onMr_lp (c : Core) (f : Mortar → Mortar) : (c.onMr f).lp = c.lp := rfl
@[simp] theorem Core.onMr_mot (c : Core) (f : Mortar → Mortar) : (c.onMr f).mot = c.mot := rfl
@[simp] theorem Core.onMr_ash (c : Core) (f : Mortar → Mortar) : (c.onMr f).ash = c.ash := rfl
@[simp] theorem Core.onMr_ln (c : Core) (f : Mortar → Mortar) : (c.onMr f).ln = c.ln := rfl
@[simp] theorem Core.onMr_up (c : Core) (f : Mortar → Mortar) : (c.onMr f).up = c.up := rfl
@[simp] theorem Core.onMr_mem (c : Core) (f : Mortar → Mortar) : (c.onMr f).mem = c.mem := rfl
@[simp] theorem Core.onMr_pw (c : Core) (f : Mortar → Mortar) : (c.onMr f).pw = c.pw := rfl
@[simp] theorem Core.onMr_mirror (c : Core) (f : Mortar → Mortar) : (c.onMr f).mirror = c.mirror := rfl
@[simp] theorem Core.onMr_out (c : Core) (f : Mortar → Mortar) : (c.onMr f).out = c.out := rfl
@[simp] theorem Core.onMr_free (c : Core) (f : Mortar → Mortar) : (c.onMr f).free = c.free := rfl
@[simp] theorem Core.onMr_mr (c : Core) (f : Mortar → Mortar) : (c.onMr f).mr = f c.mr := rfl
@[simp] theorem Core.onUp_regs (c : Core) (f : Update → Update) : (c.onUp f).regs = c.regs := rfl
@[simp] theorem Core.onUp_img (c : Core) (f : Update → Update) : (c.onUp f).img = c.img := rfl
@[simp] theorem Core.onUp_host (c : Core) (f : Update → Update) : (c.onUp f).host = c.host := rfl
@[simp] theorem Core.onUp_md (c : Core) (f : Update → Update) : (c.onUp f).md = c.md := rfl
@[simp] theorem Core.onUp_plumb (c : Core) (f : Update → Update) : (c.onUp f).plumb = c.plumb := rfl
@[simp] theorem Core.onUp_spr (c : Core) (f : Update → Update) : (c.onUp f).spr = c.spr := rfl
@[simp] theorem Core.onUp_cap (c : Core) (f : Update → Update) : (c.onUp f).cap = c.cap := rfl
@[simp] theorem Core.onUp_fab (c : Core) (f : Update → Update) : (c.onUp f).fab = c.fab := rfl
@[simp] theorem Core.onUp_wq (c : Core) (f : Update → Update) : (c.onUp f).wq = c.wq := rfl
@[simp] theorem Core.onUp_prog (c : Core) (f : Update → Update) : (c.onUp f).prog = c.prog := rfl
@[simp] theorem Core.onUp_lp (c : Core) (f : Update → Update) : (c.onUp f).lp = c.lp := rfl
@[simp] theorem Core.onUp_mot (c : Core) (f : Update → Update) : (c.onUp f).mot = c.mot := rfl
@[simp] theorem Core.onUp_ash (c : Core) (f : Update → Update) : (c.onUp f).ash = c.ash := rfl
@[simp] theorem Core.onUp_ln (c : Core) (f : Update → Update) : (c.onUp f).ln = c.ln := rfl
@[simp] theorem Core.onUp_mr (c : Core) (f : Update → Update) : (c.onUp f).mr = c.mr := rfl
@[simp] theorem Core.onUp_mem (c : Core) (f : Update → Update) : (c.onUp f).mem = c.mem := rfl
@[simp] theorem Core.onUp_pw (c : Core) (f : Update → Update) : (c.onUp f).pw = c.pw := rfl
@[simp] theorem Core.onUp_mirror (c : Core) (f : Update → Update) : (c.onUp f).mirror = c.mirror := rfl
@[simp] theorem Core.onUp_out (c : Core) (f : Update → Update) : (c.onUp f).out = c.out := rfl
@[simp] theorem Core.onUp_free (c : Core) (f : Update → Update) : (c.onUp f).free = c.free := rfl
@[simp] theorem Core.onUp_up (c : Core) (f : Update → Update) : (c.onUp f).up = f c.up := rfl
@[simp] theorem Core.onPw_regs (c : Core) (f : Power → Power) : (c.onPw f).regs = c.regs := rfl
@[simp] theorem Core.onPw_img (c : Core) (f : Power → Power) : (c.onPw f).img = c.img := rfl
@[simp] theorem Core.onPw_host (c : Core) (f : Power → Power) : (c.onPw f).host = c.host := rfl
@[simp] theorem Core.onPw_md (c : Core) (f : Power → Power) : (c.onPw f).md = c.md := rfl
@[simp] theorem Core.onPw_plumb (c : Core) (f : Power → Power) : (c.onPw f).plumb = c.plumb := rfl
@[simp] theorem Core.onPw_spr (c : Core) (f : Power → Power) : (c.onPw f).spr = c.spr := rfl
@[simp] theorem Core.onPw_cap (c : Core) (f : Power → Power) : (c.onPw f).cap = c.cap := rfl
@[simp] theorem Core.onPw_fab (c : Core) (f : Power → Power) : (c.onPw f).fab = c.fab := rfl
@[simp] theorem Core.onPw_wq (c : Core) (f : Power → Power) : (c.onPw f).wq = c.wq := rfl
@[simp] theorem Core.onPw_prog (c : Core) (f : Power → Power) : (c.onPw f).prog = c.prog := rfl
@[simp] theorem Core.onPw_lp (c : Core) (f : Power → Power) : (c.onPw f).lp = c.lp := rfl
@[simp] theorem Core.onPw_mot (c : Core) (f : Power → Power) : (c.onPw f).mot = c.mot := rfl
@[simp] theorem Core.onPw_ash (c : Core) (f : Power → Power) : (c.onPw f).ash = c.ash := rfl
@[simp] theorem Core.onPw_ln (c : Core) (f : Power → Power) : (c.onPw f).ln = c.ln := rfl
@[simp] theorem Core.onPw_mr (c : Core) (f : Power → Power) : (c.onPw f).mr = c.mr := rfl
@[simp] theorem Core.onPw_up (c : Core) (f : Power → Power) : (c.onPw f).up = c.up := rfl
@[simp] theorem Core.onPw_mem (c : Core) (f : Power → Power) : (c.onPw f).mem = c.mem := rfl
@[simp] theorem Core.onPw_mirror (c : Core) (f : Power → Power) : (c.onPw f).mirror = c.mirror := rfl
@[simp] theorem Core.onPw_out (c : Core) (f : Power → Power) : (c.onPw f).out = c.out := rfl
@[simp] theorem Core.onPw_free (c : Core) (f : Power → Power) : (c.onPw f).free = c.free := rfl
@[simp] theorem Core.onPw_pw (c : Core) (f : Power → Power) : (c.onPw f).pw = f c.pw := rfl
@[simp] theorem Core.onMem_regs (c : Core) (f : Mem → Mem) : (c.onMem f).regs = c.regs := rfl
@[simp] theorem Core.onMem_img (c : Core) (f : Mem → Mem) : (c.onMem f).img = c.img := rfl
@[simp] theorem Core.onMem_host (c : Core) (f : Mem → Mem) : (c.onMem f).host = c.host := rfl
@[simp] theorem Core.onMem_md (c : Core) (f : Mem → Mem) : (c.onMem f).md = c.md := rfl
@[simp] theorem Core.onMem_plumb (c : Core) (f : Mem → Mem) : (c.onMem f).plumb = c.plumb := rfl
@[simp] theorem Core.onMem_spr (c : Core) (f : Mem → Mem) : (c.onMem f).spr = c.spr := rfl
@[simp] theorem Core.onMem_cap (c : Core) (f : Mem → Mem) : (c.onMem f).cap = c.cap := rfl
@[simp] theorem Core.onMem_fab (c : Core) (f : Mem → Mem) : (c.onMem f).fab = c.fab := rfl
@[simp] theorem Core.onMem_wq (c : Core) (f : Mem → Mem) : (c.onMem f).wq = c.wq := rfl
@[simp] theorem Core.onMem_prog (c : Core) (f : Mem → Mem) : (c.onMem f).prog = c.prog := rfl
@[simp] theorem Core.onMem_lp (c : Core) (f : Mem → Mem) : (c.onMem f).lp = c.lp := rfl
@[simp] theorem Core.onMem_mot (c : Core) (f : Mem → Mem) : (c.onMem f).mot = c.mot := rfl
@[simp] theorem Core.onMem_ash (c : Core) (f : Mem → Mem) : (c.onMem f).ash = c.ash := rfl
@[simp] theorem Core.onMem_ln (c : Core) (f : Mem → Mem) : (c.onMem f).ln = c.ln := rfl
@[simp] theorem Core.onMem_mr (c : Core) (f : Mem → Mem) : (c.onMem f).mr = c.mr := rfl
@[simp] theorem Core.onMem_up (c : Core) (f : Mem → Mem) : (c.onMem f).up = c.up := rfl
@[simp] theorem Core.onMem_pw (c : Core) (f : Mem → Mem) : (c.onMem f).pw = c.pw := rfl
@[simp] theorem Core.onMem_mirror (c : Core) (f : Mem → Mem) : (c.onMem f).mirror = c.mirror := rfl
@[simp] theorem Core.onMem_out (c : Core) (f : Mem → Mem) : (c.onMem f).out = c.out := rfl
@[simp] theorem Core.onMem_free (c : Core) (f : Mem → Mem) : (c.onMem f).free = c.free := rfl
@[simp] theorem Core.onMem_mem (c : Core) (f : Mem → Mem) : (c.onMem f).mem = f c.mem := rfl
@[simp] theorem Core.onAshSt_regs (c : Core) (f : Ashlar → Ashlar) : (c.onAshSt f).regs = c.regs := rfl
@[simp] theorem Core.onAshSt_img (c : Core) (f : Ashlar → Ashlar) : (c.onAshSt f).img = c.img := rfl
@[simp] theorem Core.onAshSt_host (c : Core) (f : Ashlar → Ashlar) : (c.onAshSt f).host = c.host := rfl
@[simp] theorem Core.onAshSt_md (c : Core) (f : Ashlar → Ashlar) : (c.onAshSt f).md = c.md := rfl
@[simp] theorem Core.onAshSt_plumb (c : Core) (f : Ashlar → Ashlar) : (c.onAshSt f).plumb = c.plumb := rfl
@[simp] theorem Core.onAshSt_spr (c : Core) (f : Ashlar → Ashlar) : (c.onAshSt f).spr = c.spr := rfl
@[simp] theorem Core.onAshSt_cap (c : Core) (f : Ashlar → Ashlar) : (c.onAshSt f).cap = c.cap := rfl
@[simp] theorem Core.onAshSt_fab (c : Core) (f : Ashlar → Ashlar) : (c.onAshSt f).fab = c.fab := rfl
@[simp] theorem Core.onAshSt_wq (c : Core) (f : Ashlar → Ashlar) : (c.onAshSt f).wq = c.wq := rfl
@[simp] theorem Core.onAshSt_prog (c : Core) (f : Ashlar → Ashlar) : (c.onAshSt f).prog = c.prog := rfl
@[simp] theorem Core.onAshSt_lp (c : Core) (f : Ashlar → Ashlar) : (c.onAshSt f).lp = c.lp := rfl
@[simp] theorem Core.onAshSt_mot (c : Core) (f : Ashlar → Ashlar) : (c.onAshSt f).mot = c.mot := rfl
@[simp] theorem Core.onAshSt_ln (c : Core) (f : Ashlar → Ashlar) : (c.onAshSt f).ln = c.ln := rfl
@[simp] theorem Core.onAshSt_mr (c : Core) (f : Ashlar → Ashlar) : (c.onAshSt f).mr = c.mr := rfl
@[simp] theorem Core.onAshSt_up (c : Core) (f : Ashlar → Ashlar) : (c.onAshSt f).up = c.up := rfl
@[simp] theorem Core.onAshSt_mem (c : Core) (f : Ashlar → Ashlar) : (c.onAshSt f).mem = c.mem := rfl
@[simp] theorem Core.onAshSt_pw (c : Core) (f : Ashlar → Ashlar) : (c.onAshSt f).pw = c.pw := rfl
@[simp] theorem Core.onAshSt_mirror (c : Core) (f : Ashlar → Ashlar) : (c.onAshSt f).mirror = c.mirror := rfl
@[simp] theorem Core.onAshSt_out (c : Core) (f : Ashlar → Ashlar) : (c.onAshSt f).out = c.out := rfl
@[simp] theorem Core.onAshSt_free (c : Core) (f : Ashlar → Ashlar) : (c.onAshSt f).free = c.free := rfl
@[simp] theorem Core.onAshSt_ash (c : Core) (f : Ashlar → Ashlar) : (c.onAshSt f).ash = f c.ash := rfl
@[simp] theorem Core.onLn_regs (c : Core) (f : Lintel → Lintel) : (c.onLn f).regs = c.regs := rfl
@[simp] theorem Core.onLn_img (c : Core) (f : Lintel → Lintel) : (c.onLn f).img = c.img := rfl
@[simp] theorem Core.onLn_host (c : Core) (f : Lintel → Lintel) : (c.onLn f).host = c.host := rfl
@[simp] theorem Core.onLn_md (c : Core) (f : Lintel → Lintel) : (c.onLn f).md = c.md := rfl
@[simp] theorem Core.onLn_plumb (c : Core) (f : Lintel → Lintel) : (c.onLn f).plumb = c.plumb := rfl
@[simp] theorem Core.onLn_spr (c : Core) (f : Lintel → Lintel) : (c.onLn f).spr = c.spr := rfl
@[simp] theorem Core.onLn_cap (c : Core) (f : Lintel → Lintel) : (c.onLn f).cap = c.cap := rfl
@[simp] theorem Core.onLn_fab (c : Core) (f : Lintel → Lintel) : (c.onLn f).fab = c.fab := rfl
@[simp] theorem Core.onLn_wq (c : Core) (f : Lintel → Lintel) : (c.onLn f).wq = c.wq := rfl
@[simp] theorem Core.onLn_prog (c : Core) (f : Lintel → Lintel) : (c.onLn f).prog = c.prog := rfl
@[simp] theorem Core.onLn_lp (c : Core) (f : Lintel → Lintel) : (c.onLn f).lp = c.lp := rfl
@[simp] theorem Core.onLn_mot (c : Core) (f : Lintel → Lintel) : (c.onLn f).mot = c.mot := rfl
@[simp] theorem Core.onLn_ash (c : Core) (f : Lintel → Lintel) : (c.onLn f).ash = c.ash := rfl
@[simp] theorem Core.onLn_mr (c : Core) (f : Lintel → Lintel) : (c.onLn f).mr = c.mr := rfl
@[simp] theorem Core.onLn_up (c : Core) (f : Lintel → Lintel) : (c.onLn f).up = c.up := rfl
@[simp] theorem Core.onLn_mem (c : Core) (f : Lintel → Lintel) : (c.onLn f).mem = c.mem := rfl
@[simp] theorem Core.onLn_pw (c : Core) (f : Lintel → Lintel) : (c.onLn f).pw = c.pw := rfl
@[simp] theorem Core.onLn_mirror (c : Core) (f : Lintel → Lintel) : (c.onLn f).mirror = c.mirror := rfl
@[simp] theorem Core.onLn_out (c : Core) (f : Lintel → Lintel) : (c.onLn f).out = c.out := rfl
@[simp] theorem Core.onLn_free (c : Core) (f : Lintel → Lintel) : (c.onLn f).free = c.free := rfl
@[simp] theorem Core.onLn_ln (c : Core) (f : Lintel → Lintel) : (c.onLn f).ln = f c.ln := rfl
@[simp] theorem Core.onTile_regs (c : Core) (n : Nat) (f : Tile → Tile) : (c.onTile n f).regs = c.regs := rfl
@[simp] theorem Core.onTile_img (c : Core) (n : Nat) (f : Tile → Tile) : (c.onTile n f).img = c.img := rfl
@[simp] theorem Core.onTile_host (c : Core) (n : Nat) (f : Tile → Tile) : (c.onTile n f).host = c.host := rfl
@[simp] theorem Core.onTile_md (c : Core) (n : Nat) (f : Tile → Tile) : (c.onTile n f).md = c.md := rfl
@[simp] theorem Core.onTile_plumb (c : Core) (n : Nat) (f : Tile → Tile) : (c.onTile n f).plumb = c.plumb := rfl
@[simp] theorem Core.onTile_spr (c : Core) (n : Nat) (f : Tile → Tile) : (c.onTile n f).spr = c.spr := rfl
@[simp] theorem Core.onTile_cap (c : Core) (n : Nat) (f : Tile → Tile) : (c.onTile n f).cap = c.cap := rfl
@[simp] theorem Core.onTile_wq (c : Core) (n : Nat) (f : Tile → Tile) : (c.onTile n f).wq = c.wq := rfl
@[simp] theorem Core.onTile_prog (c : Core) (n : Nat) (f : Tile → Tile) : (c.onTile n f).prog = c.prog := rfl
@[simp] theorem Core.onTile_lp (c : Core) (n : Nat) (f : Tile → Tile) : (c.onTile n f).lp = c.lp := rfl
@[simp] theorem Core.onTile_mot (c : Core) (n : Nat) (f : Tile → Tile) : (c.onTile n f).mot = c.mot := rfl
@[simp] theorem Core.onTile_ash (c : Core) (n : Nat) (f : Tile → Tile) : (c.onTile n f).ash = c.ash := rfl
@[simp] theorem Core.onTile_ln (c : Core) (n : Nat) (f : Tile → Tile) : (c.onTile n f).ln = c.ln := rfl
@[simp] theorem Core.onTile_mr (c : Core) (n : Nat) (f : Tile → Tile) : (c.onTile n f).mr = c.mr := rfl
@[simp] theorem Core.onTile_up (c : Core) (n : Nat) (f : Tile → Tile) : (c.onTile n f).up = c.up := rfl
@[simp] theorem Core.onTile_mem (c : Core) (n : Nat) (f : Tile → Tile) : (c.onTile n f).mem = c.mem := rfl
@[simp] theorem Core.onTile_pw (c : Core) (n : Nat) (f : Tile → Tile) : (c.onTile n f).pw = c.pw := rfl
@[simp] theorem Core.onTile_mirror (c : Core) (n : Nat) (f : Tile → Tile) : (c.onTile n f).mirror = c.mirror := rfl
@[simp] theorem Core.onTile_out (c : Core) (n : Nat) (f : Tile → Tile) : (c.onTile n f).out = c.out := rfl
@[simp] theorem Core.onTile_free (c : Core) (n : Nat) (f : Tile → Tile) : (c.onTile n f).free = c.free := rfl
@[simp] theorem Core.onTile_tile (c : Core) (n : Nat) (f : Tile → Tile) : (c.onTile n f).tile n = f (c.tile n) := by
  simp [Core.onTile, Core.tile]
theorem Core.onTile_tile_ne (c : Core) (n k : Nat) (f : Tile → Tile) (h : k ≠ n) : (c.onTile n f).tile k = c.tile k := by
  simp [Core.onTile, Core.tile, SMap.get_upd_ne, h]
@[simp] theorem Core.onItem_regs (c : Core) (n : Nat) (f : ItemSt → ItemSt) : (c.onItem n f).regs = c.regs := rfl
@[simp] theorem Core.onItem_img (c : Core) (n : Nat) (f : ItemSt → ItemSt) : (c.onItem n f).img = c.img := rfl
@[simp] theorem Core.onItem_host (c : Core) (n : Nat) (f : ItemSt → ItemSt) : (c.onItem n f).host = c.host := rfl
@[simp] theorem Core.onItem_md (c : Core) (n : Nat) (f : ItemSt → ItemSt) : (c.onItem n f).md = c.md := rfl
@[simp] theorem Core.onItem_plumb (c : Core) (n : Nat) (f : ItemSt → ItemSt) : (c.onItem n f).plumb = c.plumb := rfl
@[simp] theorem Core.onItem_spr (c : Core) (n : Nat) (f : ItemSt → ItemSt) : (c.onItem n f).spr = c.spr := rfl
@[simp] theorem Core.onItem_cap (c : Core) (n : Nat) (f : ItemSt → ItemSt) : (c.onItem n f).cap = c.cap := rfl
@[simp] theorem Core.onItem_fab (c : Core) (n : Nat) (f : ItemSt → ItemSt) : (c.onItem n f).fab = c.fab := rfl
@[simp] theorem Core.onItem_prog (c : Core) (n : Nat) (f : ItemSt → ItemSt) : (c.onItem n f).prog = c.prog := rfl
@[simp] theorem Core.onItem_lp (c : Core) (n : Nat) (f : ItemSt → ItemSt) : (c.onItem n f).lp = c.lp := rfl
@[simp] theorem Core.onItem_mot (c : Core) (n : Nat) (f : ItemSt → ItemSt) : (c.onItem n f).mot = c.mot := rfl
@[simp] theorem Core.onItem_ash (c : Core) (n : Nat) (f : ItemSt → ItemSt) : (c.onItem n f).ash = c.ash := rfl
@[simp] theorem Core.onItem_ln (c : Core) (n : Nat) (f : ItemSt → ItemSt) : (c.onItem n f).ln = c.ln := rfl
@[simp] theorem Core.onItem_mr (c : Core) (n : Nat) (f : ItemSt → ItemSt) : (c.onItem n f).mr = c.mr := rfl
@[simp] theorem Core.onItem_up (c : Core) (n : Nat) (f : ItemSt → ItemSt) : (c.onItem n f).up = c.up := rfl
@[simp] theorem Core.onItem_mem (c : Core) (n : Nat) (f : ItemSt → ItemSt) : (c.onItem n f).mem = c.mem := rfl
@[simp] theorem Core.onItem_pw (c : Core) (n : Nat) (f : ItemSt → ItemSt) : (c.onItem n f).pw = c.pw := rfl
@[simp] theorem Core.onItem_mirror (c : Core) (n : Nat) (f : ItemSt → ItemSt) : (c.onItem n f).mirror = c.mirror := rfl
@[simp] theorem Core.onItem_out (c : Core) (n : Nat) (f : ItemSt → ItemSt) : (c.onItem n f).out = c.out := rfl
@[simp] theorem Core.onItem_free (c : Core) (n : Nat) (f : ItemSt → ItemSt) : (c.onItem n f).free = c.free := rfl
@[simp] theorem Core.onItem_item (c : Core) (n : Nat) (f : ItemSt → ItemSt) : (c.onItem n f).item n = f (c.item n) := by
  simp [Core.onItem, Core.item]
theorem Core.onItem_item_ne (c : Core) (n k : Nat) (f : ItemSt → ItemSt) (h : k ≠ n) : (c.onItem n f).item k = c.item k := by
  simp [Core.onItem, Core.item, SMap.get_upd_ne, h]
@[simp] theorem Core.onLoop_regs (c : Core) (n : Nat) (f : LoopSt → LoopSt) : (c.onLoop n f).regs = c.regs := rfl
@[simp] theorem Core.onLoop_img (c : Core) (n : Nat) (f : LoopSt → LoopSt) : (c.onLoop n f).img = c.img := rfl
@[simp] theorem Core.onLoop_host (c : Core) (n : Nat) (f : LoopSt → LoopSt) : (c.onLoop n f).host = c.host := rfl
@[simp] theorem Core.onLoop_md (c : Core) (n : Nat) (f : LoopSt → LoopSt) : (c.onLoop n f).md = c.md := rfl
@[simp] theorem Core.onLoop_plumb (c : Core) (n : Nat) (f : LoopSt → LoopSt) : (c.onLoop n f).plumb = c.plumb := rfl
@[simp] theorem Core.onLoop_spr (c : Core) (n : Nat) (f : LoopSt → LoopSt) : (c.onLoop n f).spr = c.spr := rfl
@[simp] theorem Core.onLoop_cap (c : Core) (n : Nat) (f : LoopSt → LoopSt) : (c.onLoop n f).cap = c.cap := rfl
@[simp] theorem Core.onLoop_fab (c : Core) (n : Nat) (f : LoopSt → LoopSt) : (c.onLoop n f).fab = c.fab := rfl
@[simp] theorem Core.onLoop_wq (c : Core) (n : Nat) (f : LoopSt → LoopSt) : (c.onLoop n f).wq = c.wq := rfl
@[simp] theorem Core.onLoop_prog (c : Core) (n : Nat) (f : LoopSt → LoopSt) : (c.onLoop n f).prog = c.prog := rfl
@[simp] theorem Core.onLoop_mot (c : Core) (n : Nat) (f : LoopSt → LoopSt) : (c.onLoop n f).mot = c.mot := rfl
@[simp] theorem Core.onLoop_ash (c : Core) (n : Nat) (f : LoopSt → LoopSt) : (c.onLoop n f).ash = c.ash := rfl
@[simp] theorem Core.onLoop_ln (c : Core) (n : Nat) (f : LoopSt → LoopSt) : (c.onLoop n f).ln = c.ln := rfl
@[simp] theorem Core.onLoop_mr (c : Core) (n : Nat) (f : LoopSt → LoopSt) : (c.onLoop n f).mr = c.mr := rfl
@[simp] theorem Core.onLoop_up (c : Core) (n : Nat) (f : LoopSt → LoopSt) : (c.onLoop n f).up = c.up := rfl
@[simp] theorem Core.onLoop_mem (c : Core) (n : Nat) (f : LoopSt → LoopSt) : (c.onLoop n f).mem = c.mem := rfl
@[simp] theorem Core.onLoop_pw (c : Core) (n : Nat) (f : LoopSt → LoopSt) : (c.onLoop n f).pw = c.pw := rfl
@[simp] theorem Core.onLoop_mirror (c : Core) (n : Nat) (f : LoopSt → LoopSt) : (c.onLoop n f).mirror = c.mirror := rfl
@[simp] theorem Core.onLoop_out (c : Core) (n : Nat) (f : LoopSt → LoopSt) : (c.onLoop n f).out = c.out := rfl
@[simp] theorem Core.onLoop_free (c : Core) (n : Nat) (f : LoopSt → LoopSt) : (c.onLoop n f).free = c.free := rfl
@[simp] theorem Core.onLoop_loop (c : Core) (n : Nat) (f : LoopSt → LoopSt) : (c.onLoop n f).loop n = f (c.loop n) := by
  simp [Core.onLoop, Core.loop]
theorem Core.onLoop_loop_ne (c : Core) (n k : Nat) (f : LoopSt → LoopSt) (h : k ≠ n) : (c.onLoop n f).loop k = c.loop k := by
  simp [Core.onLoop, Core.loop, SMap.get_upd_ne, h]
@[simp] theorem Core.onAxis_regs (c : Core) (n : Nat) (f : Axis → Axis) : (c.onAxis n f).regs = c.regs := rfl
@[simp] theorem Core.onAxis_img (c : Core) (n : Nat) (f : Axis → Axis) : (c.onAxis n f).img = c.img := rfl
@[simp] theorem Core.onAxis_host (c : Core) (n : Nat) (f : Axis → Axis) : (c.onAxis n f).host = c.host := rfl
@[simp] theorem Core.onAxis_md (c : Core) (n : Nat) (f : Axis → Axis) : (c.onAxis n f).md = c.md := rfl
@[simp] theorem Core.onAxis_plumb (c : Core) (n : Nat) (f : Axis → Axis) : (c.onAxis n f).plumb = c.plumb := rfl
@[simp] theorem Core.onAxis_spr (c : Core) (n : Nat) (f : Axis → Axis) : (c.onAxis n f).spr = c.spr := rfl
@[simp] theorem Core.onAxis_cap (c : Core) (n : Nat) (f : Axis → Axis) : (c.onAxis n f).cap = c.cap := rfl
@[simp] theorem Core.onAxis_fab (c : Core) (n : Nat) (f : Axis → Axis) : (c.onAxis n f).fab = c.fab := rfl
@[simp] theorem Core.onAxis_wq (c : Core) (n : Nat) (f : Axis → Axis) : (c.onAxis n f).wq = c.wq := rfl
@[simp] theorem Core.onAxis_prog (c : Core) (n : Nat) (f : Axis → Axis) : (c.onAxis n f).prog = c.prog := rfl
@[simp] theorem Core.onAxis_lp (c : Core) (n : Nat) (f : Axis → Axis) : (c.onAxis n f).lp = c.lp := rfl
@[simp] theorem Core.onAxis_ash (c : Core) (n : Nat) (f : Axis → Axis) : (c.onAxis n f).ash = c.ash := rfl
@[simp] theorem Core.onAxis_ln (c : Core) (n : Nat) (f : Axis → Axis) : (c.onAxis n f).ln = c.ln := rfl
@[simp] theorem Core.onAxis_mr (c : Core) (n : Nat) (f : Axis → Axis) : (c.onAxis n f).mr = c.mr := rfl
@[simp] theorem Core.onAxis_up (c : Core) (n : Nat) (f : Axis → Axis) : (c.onAxis n f).up = c.up := rfl
@[simp] theorem Core.onAxis_mem (c : Core) (n : Nat) (f : Axis → Axis) : (c.onAxis n f).mem = c.mem := rfl
@[simp] theorem Core.onAxis_pw (c : Core) (n : Nat) (f : Axis → Axis) : (c.onAxis n f).pw = c.pw := rfl
@[simp] theorem Core.onAxis_mirror (c : Core) (n : Nat) (f : Axis → Axis) : (c.onAxis n f).mirror = c.mirror := rfl
@[simp] theorem Core.onAxis_out (c : Core) (n : Nat) (f : Axis → Axis) : (c.onAxis n f).out = c.out := rfl
@[simp] theorem Core.onAxis_free (c : Core) (n : Nat) (f : Axis → Axis) : (c.onAxis n f).free = c.free := rfl
@[simp] theorem Core.onAxis_axis (c : Core) (n : Nat) (f : Axis → Axis) : (c.onAxis n f).axis n = f (c.axis n) := by
  simp [Core.onAxis, Core.axis]
theorem Core.onAxis_axis_ne (c : Core) (n k : Nat) (f : Axis → Axis) (h : k ≠ n) : (c.onAxis n f).axis k = c.axis k := by
  simp [Core.onAxis, Core.axis, SMap.get_upd_ne, h]
@[simp] theorem Core.onStream_regs (c : Core) (n : Nat) (f : Stream → Stream) : (c.onStream n f).regs = c.regs := rfl
@[simp] theorem Core.onStream_img (c : Core) (n : Nat) (f : Stream → Stream) : (c.onStream n f).img = c.img := rfl
@[simp] theorem Core.onStream_host (c : Core) (n : Nat) (f : Stream → Stream) : (c.onStream n f).host = c.host := rfl
@[simp] theorem Core.onStream_md (c : Core) (n : Nat) (f : Stream → Stream) : (c.onStream n f).md = c.md := rfl
@[simp] theorem Core.onStream_plumb (c : Core) (n : Nat) (f : Stream → Stream) : (c.onStream n f).plumb = c.plumb := rfl
@[simp] theorem Core.onStream_cap (c : Core) (n : Nat) (f : Stream → Stream) : (c.onStream n f).cap = c.cap := rfl
@[simp] theorem Core.onStream_fab (c : Core) (n : Nat) (f : Stream → Stream) : (c.onStream n f).fab = c.fab := rfl
@[simp] theorem Core.onStream_wq (c : Core) (n : Nat) (f : Stream → Stream) : (c.onStream n f).wq = c.wq := rfl
@[simp] theorem Core.onStream_prog (c : Core) (n : Nat) (f : Stream → Stream) : (c.onStream n f).prog = c.prog := rfl
@[simp] theorem Core.onStream_lp (c : Core) (n : Nat) (f : Stream → Stream) : (c.onStream n f).lp = c.lp := rfl
@[simp] theorem Core.onStream_mot (c : Core) (n : Nat) (f : Stream → Stream) : (c.onStream n f).mot = c.mot := rfl
@[simp] theorem Core.onStream_ash (c : Core) (n : Nat) (f : Stream → Stream) : (c.onStream n f).ash = c.ash := rfl
@[simp] theorem Core.onStream_ln (c : Core) (n : Nat) (f : Stream → Stream) : (c.onStream n f).ln = c.ln := rfl
@[simp] theorem Core.onStream_mr (c : Core) (n : Nat) (f : Stream → Stream) : (c.onStream n f).mr = c.mr := rfl
@[simp] theorem Core.onStream_up (c : Core) (n : Nat) (f : Stream → Stream) : (c.onStream n f).up = c.up := rfl
@[simp] theorem Core.onStream_mem (c : Core) (n : Nat) (f : Stream → Stream) : (c.onStream n f).mem = c.mem := rfl
@[simp] theorem Core.onStream_pw (c : Core) (n : Nat) (f : Stream → Stream) : (c.onStream n f).pw = c.pw := rfl
@[simp] theorem Core.onStream_mirror (c : Core) (n : Nat) (f : Stream → Stream) : (c.onStream n f).mirror = c.mirror := rfl
@[simp] theorem Core.onStream_out (c : Core) (n : Nat) (f : Stream → Stream) : (c.onStream n f).out = c.out := rfl
@[simp] theorem Core.onStream_free (c : Core) (n : Nat) (f : Stream → Stream) : (c.onStream n f).free = c.free := rfl
@[simp] theorem Core.onStream_stream (c : Core) (n : Nat) (f : Stream → Stream) : (c.onStream n f).stream n = f (c.stream n) := by
  simp [Core.onStream, Core.stream]
theorem Core.onStream_stream_ne (c : Core) (n k : Nat) (f : Stream → Stream) (h : k ≠ n) : (c.onStream n f).stream k = c.stream k := by
  simp [Core.onStream, Core.stream, SMap.get_upd_ne, h]
@[simp] theorem Core.onTrig_regs (c : Core) (n : Nat) (f : Trig → Trig) : (c.onTrig n f).regs = c.regs := rfl
@[simp] theorem Core.onTrig_img (c : Core) (n : Nat) (f : Trig → Trig) : (c.onTrig n f).img = c.img := rfl
@[simp] theorem Core.onTrig_host (c : Core) (n : Nat) (f : Trig → Trig) : (c.onTrig n f).host = c.host := rfl
@[simp] theorem Core.onTrig_md (c : Core) (n : Nat) (f : Trig → Trig) : (c.onTrig n f).md = c.md := rfl
@[simp] theorem Core.onTrig_plumb (c : Core) (n : Nat) (f : Trig → Trig) : (c.onTrig n f).plumb = c.plumb := rfl
@[simp] theorem Core.onTrig_spr (c : Core) (n : Nat) (f : Trig → Trig) : (c.onTrig n f).spr = c.spr := rfl
@[simp] theorem Core.onTrig_fab (c : Core) (n : Nat) (f : Trig → Trig) : (c.onTrig n f).fab = c.fab := rfl
@[simp] theorem Core.onTrig_wq (c : Core) (n : Nat) (f : Trig → Trig) : (c.onTrig n f).wq = c.wq := rfl
@[simp] theorem Core.onTrig_prog (c : Core) (n : Nat) (f : Trig → Trig) : (c.onTrig n f).prog = c.prog := rfl
@[simp] theorem Core.onTrig_lp (c : Core) (n : Nat) (f : Trig → Trig) : (c.onTrig n f).lp = c.lp := rfl
@[simp] theorem Core.onTrig_mot (c : Core) (n : Nat) (f : Trig → Trig) : (c.onTrig n f).mot = c.mot := rfl
@[simp] theorem Core.onTrig_ash (c : Core) (n : Nat) (f : Trig → Trig) : (c.onTrig n f).ash = c.ash := rfl
@[simp] theorem Core.onTrig_ln (c : Core) (n : Nat) (f : Trig → Trig) : (c.onTrig n f).ln = c.ln := rfl
@[simp] theorem Core.onTrig_mr (c : Core) (n : Nat) (f : Trig → Trig) : (c.onTrig n f).mr = c.mr := rfl
@[simp] theorem Core.onTrig_up (c : Core) (n : Nat) (f : Trig → Trig) : (c.onTrig n f).up = c.up := rfl
@[simp] theorem Core.onTrig_mem (c : Core) (n : Nat) (f : Trig → Trig) : (c.onTrig n f).mem = c.mem := rfl
@[simp] theorem Core.onTrig_pw (c : Core) (n : Nat) (f : Trig → Trig) : (c.onTrig n f).pw = c.pw := rfl
@[simp] theorem Core.onTrig_mirror (c : Core) (n : Nat) (f : Trig → Trig) : (c.onTrig n f).mirror = c.mirror := rfl
@[simp] theorem Core.onTrig_out (c : Core) (n : Nat) (f : Trig → Trig) : (c.onTrig n f).out = c.out := rfl
@[simp] theorem Core.onTrig_free (c : Core) (n : Nat) (f : Trig → Trig) : (c.onTrig n f).free = c.free := rfl
@[simp] theorem Core.onTrig_trig (c : Core) (n : Nat) (f : Trig → Trig) : (c.onTrig n f).trig n = f (c.trig n) := by
  simp [Core.onTrig, Core.trig]
theorem Core.onTrig_trig_ne (c : Core) (n k : Nat) (f : Trig → Trig) (h : k ≠ n) : (c.onTrig n f).trig k = c.trig k := by
  simp [Core.onTrig, Core.trig, SMap.get_upd_ne, h]
@[simp] theorem Core.onUnit_regs (c : Core) (n : Nat) (f : CapUnit → CapUnit) : (c.onUnit n f).regs = c.regs := rfl
@[simp] theorem Core.onUnit_img (c : Core) (n : Nat) (f : CapUnit → CapUnit) : (c.onUnit n f).img = c.img := rfl
@[simp] theorem Core.onUnit_host (c : Core) (n : Nat) (f : CapUnit → CapUnit) : (c.onUnit n f).host = c.host := rfl
@[simp] theorem Core.onUnit_md (c : Core) (n : Nat) (f : CapUnit → CapUnit) : (c.onUnit n f).md = c.md := rfl
@[simp] theorem Core.onUnit_plumb (c : Core) (n : Nat) (f : CapUnit → CapUnit) : (c.onUnit n f).plumb = c.plumb := rfl
@[simp] theorem Core.onUnit_spr (c : Core) (n : Nat) (f : CapUnit → CapUnit) : (c.onUnit n f).spr = c.spr := rfl
@[simp] theorem Core.onUnit_fab (c : Core) (n : Nat) (f : CapUnit → CapUnit) : (c.onUnit n f).fab = c.fab := rfl
@[simp] theorem Core.onUnit_wq (c : Core) (n : Nat) (f : CapUnit → CapUnit) : (c.onUnit n f).wq = c.wq := rfl
@[simp] theorem Core.onUnit_prog (c : Core) (n : Nat) (f : CapUnit → CapUnit) : (c.onUnit n f).prog = c.prog := rfl
@[simp] theorem Core.onUnit_lp (c : Core) (n : Nat) (f : CapUnit → CapUnit) : (c.onUnit n f).lp = c.lp := rfl
@[simp] theorem Core.onUnit_mot (c : Core) (n : Nat) (f : CapUnit → CapUnit) : (c.onUnit n f).mot = c.mot := rfl
@[simp] theorem Core.onUnit_ash (c : Core) (n : Nat) (f : CapUnit → CapUnit) : (c.onUnit n f).ash = c.ash := rfl
@[simp] theorem Core.onUnit_ln (c : Core) (n : Nat) (f : CapUnit → CapUnit) : (c.onUnit n f).ln = c.ln := rfl
@[simp] theorem Core.onUnit_mr (c : Core) (n : Nat) (f : CapUnit → CapUnit) : (c.onUnit n f).mr = c.mr := rfl
@[simp] theorem Core.onUnit_up (c : Core) (n : Nat) (f : CapUnit → CapUnit) : (c.onUnit n f).up = c.up := rfl
@[simp] theorem Core.onUnit_mem (c : Core) (n : Nat) (f : CapUnit → CapUnit) : (c.onUnit n f).mem = c.mem := rfl
@[simp] theorem Core.onUnit_pw (c : Core) (n : Nat) (f : CapUnit → CapUnit) : (c.onUnit n f).pw = c.pw := rfl
@[simp] theorem Core.onUnit_mirror (c : Core) (n : Nat) (f : CapUnit → CapUnit) : (c.onUnit n f).mirror = c.mirror := rfl
@[simp] theorem Core.onUnit_out (c : Core) (n : Nat) (f : CapUnit → CapUnit) : (c.onUnit n f).out = c.out := rfl
@[simp] theorem Core.onUnit_free (c : Core) (n : Nat) (f : CapUnit → CapUnit) : (c.onUnit n f).free = c.free := rfl
@[simp] theorem Core.onUnit_unit (c : Core) (n : Nat) (f : CapUnit → CapUnit) : (c.onUnit n f).unit n = f (c.unit n) := by
  simp [Core.onUnit, Core.unit]
theorem Core.onUnit_unit_ne (c : Core) (n k : Nat) (f : CapUnit → CapUnit) (h : k ≠ n) : (c.onUnit n f).unit k = c.unit k := by
  simp [Core.onUnit, Core.unit, SMap.get_upd_ne, h]
@[simp] theorem Core.onPort_regs (c : Core) (n : Nat) (f : Port → Port) : (c.onPort n f).regs = c.regs := rfl
@[simp] theorem Core.onPort_img (c : Core) (n : Nat) (f : Port → Port) : (c.onPort n f).img = c.img := rfl
@[simp] theorem Core.onPort_host (c : Core) (n : Nat) (f : Port → Port) : (c.onPort n f).host = c.host := rfl
@[simp] theorem Core.onPort_md (c : Core) (n : Nat) (f : Port → Port) : (c.onPort n f).md = c.md := rfl
@[simp] theorem Core.onPort_plumb (c : Core) (n : Nat) (f : Port → Port) : (c.onPort n f).plumb = c.plumb := rfl
@[simp] theorem Core.onPort_spr (c : Core) (n : Nat) (f : Port → Port) : (c.onPort n f).spr = c.spr := rfl
@[simp] theorem Core.onPort_cap (c : Core) (n : Nat) (f : Port → Port) : (c.onPort n f).cap = c.cap := rfl
@[simp] theorem Core.onPort_fab (c : Core) (n : Nat) (f : Port → Port) : (c.onPort n f).fab = c.fab := rfl
@[simp] theorem Core.onPort_wq (c : Core) (n : Nat) (f : Port → Port) : (c.onPort n f).wq = c.wq := rfl
@[simp] theorem Core.onPort_prog (c : Core) (n : Nat) (f : Port → Port) : (c.onPort n f).prog = c.prog := rfl
@[simp] theorem Core.onPort_lp (c : Core) (n : Nat) (f : Port → Port) : (c.onPort n f).lp = c.lp := rfl
@[simp] theorem Core.onPort_mot (c : Core) (n : Nat) (f : Port → Port) : (c.onPort n f).mot = c.mot := rfl
@[simp] theorem Core.onPort_ln (c : Core) (n : Nat) (f : Port → Port) : (c.onPort n f).ln = c.ln := rfl
@[simp] theorem Core.onPort_mr (c : Core) (n : Nat) (f : Port → Port) : (c.onPort n f).mr = c.mr := rfl
@[simp] theorem Core.onPort_up (c : Core) (n : Nat) (f : Port → Port) : (c.onPort n f).up = c.up := rfl
@[simp] theorem Core.onPort_mem (c : Core) (n : Nat) (f : Port → Port) : (c.onPort n f).mem = c.mem := rfl
@[simp] theorem Core.onPort_pw (c : Core) (n : Nat) (f : Port → Port) : (c.onPort n f).pw = c.pw := rfl
@[simp] theorem Core.onPort_mirror (c : Core) (n : Nat) (f : Port → Port) : (c.onPort n f).mirror = c.mirror := rfl
@[simp] theorem Core.onPort_out (c : Core) (n : Nat) (f : Port → Port) : (c.onPort n f).out = c.out := rfl
@[simp] theorem Core.onPort_free (c : Core) (n : Nat) (f : Port → Port) : (c.onPort n f).free = c.free := rfl
@[simp] theorem Core.onPort_port (c : Core) (n : Nat) (f : Port → Port) : (c.onPort n f).port n = f (c.port n) := by
  simp [Core.onPort, Core.port]
theorem Core.onPort_port_ne (c : Core) (n k : Nat) (f : Port → Port) (h : k ≠ n) : (c.onPort n f).port k = c.port k := by
  simp [Core.onPort, Core.port, SMap.get_upd_ne, h]
@[simp] theorem Core.onMod_regs (c : Core) (n : Nat) (f : Mod → Mod) : (c.onMod n f).regs = c.regs := rfl
@[simp] theorem Core.onMod_img (c : Core) (n : Nat) (f : Mod → Mod) : (c.onMod n f).img = c.img := rfl
@[simp] theorem Core.onMod_host (c : Core) (n : Nat) (f : Mod → Mod) : (c.onMod n f).host = c.host := rfl
@[simp] theorem Core.onMod_md (c : Core) (n : Nat) (f : Mod → Mod) : (c.onMod n f).md = c.md := rfl
@[simp] theorem Core.onMod_plumb (c : Core) (n : Nat) (f : Mod → Mod) : (c.onMod n f).plumb = c.plumb := rfl
@[simp] theorem Core.onMod_spr (c : Core) (n : Nat) (f : Mod → Mod) : (c.onMod n f).spr = c.spr := rfl
@[simp] theorem Core.onMod_cap (c : Core) (n : Nat) (f : Mod → Mod) : (c.onMod n f).cap = c.cap := rfl
@[simp] theorem Core.onMod_fab (c : Core) (n : Nat) (f : Mod → Mod) : (c.onMod n f).fab = c.fab := rfl
@[simp] theorem Core.onMod_wq (c : Core) (n : Nat) (f : Mod → Mod) : (c.onMod n f).wq = c.wq := rfl
@[simp] theorem Core.onMod_prog (c : Core) (n : Nat) (f : Mod → Mod) : (c.onMod n f).prog = c.prog := rfl
@[simp] theorem Core.onMod_lp (c : Core) (n : Nat) (f : Mod → Mod) : (c.onMod n f).lp = c.lp := rfl
@[simp] theorem Core.onMod_mot (c : Core) (n : Nat) (f : Mod → Mod) : (c.onMod n f).mot = c.mot := rfl
@[simp] theorem Core.onMod_ln (c : Core) (n : Nat) (f : Mod → Mod) : (c.onMod n f).ln = c.ln := rfl
@[simp] theorem Core.onMod_mr (c : Core) (n : Nat) (f : Mod → Mod) : (c.onMod n f).mr = c.mr := rfl
@[simp] theorem Core.onMod_up (c : Core) (n : Nat) (f : Mod → Mod) : (c.onMod n f).up = c.up := rfl
@[simp] theorem Core.onMod_mem (c : Core) (n : Nat) (f : Mod → Mod) : (c.onMod n f).mem = c.mem := rfl
@[simp] theorem Core.onMod_pw (c : Core) (n : Nat) (f : Mod → Mod) : (c.onMod n f).pw = c.pw := rfl
@[simp] theorem Core.onMod_mirror (c : Core) (n : Nat) (f : Mod → Mod) : (c.onMod n f).mirror = c.mirror := rfl
@[simp] theorem Core.onMod_out (c : Core) (n : Nat) (f : Mod → Mod) : (c.onMod n f).out = c.out := rfl
@[simp] theorem Core.onMod_free (c : Core) (n : Nat) (f : Mod → Mod) : (c.onMod n f).free = c.free := rfl
@[simp] theorem Core.onMod_mod (c : Core) (n : Nat) (f : Mod → Mod) : (c.onMod n f).mod n = f (c.mod n) := by
  simp [Core.onMod, Core.mod]
theorem Core.onMod_mod_ne (c : Core) (n k : Nat) (f : Mod → Mod) (h : k ≠ n) : (c.onMod n f).mod k = c.mod k := by
  simp [Core.onMod, Core.mod, SMap.get_upd_ne, h]
@[simp] theorem Core.onLnPort_regs (c : Core) (n : Nat) (f : LnPort → LnPort) : (c.onLnPort n f).regs = c.regs := rfl
@[simp] theorem Core.onLnPort_img (c : Core) (n : Nat) (f : LnPort → LnPort) : (c.onLnPort n f).img = c.img := rfl
@[simp] theorem Core.onLnPort_host (c : Core) (n : Nat) (f : LnPort → LnPort) : (c.onLnPort n f).host = c.host := rfl
@[simp] theorem Core.onLnPort_md (c : Core) (n : Nat) (f : LnPort → LnPort) : (c.onLnPort n f).md = c.md := rfl
@[simp] theorem Core.onLnPort_plumb (c : Core) (n : Nat) (f : LnPort → LnPort) : (c.onLnPort n f).plumb = c.plumb := rfl
@[simp] theorem Core.onLnPort_spr (c : Core) (n : Nat) (f : LnPort → LnPort) : (c.onLnPort n f).spr = c.spr := rfl
@[simp] theorem Core.onLnPort_cap (c : Core) (n : Nat) (f : LnPort → LnPort) : (c.onLnPort n f).cap = c.cap := rfl
@[simp] theorem Core.onLnPort_fab (c : Core) (n : Nat) (f : LnPort → LnPort) : (c.onLnPort n f).fab = c.fab := rfl
@[simp] theorem Core.onLnPort_wq (c : Core) (n : Nat) (f : LnPort → LnPort) : (c.onLnPort n f).wq = c.wq := rfl
@[simp] theorem Core.onLnPort_prog (c : Core) (n : Nat) (f : LnPort → LnPort) : (c.onLnPort n f).prog = c.prog := rfl
@[simp] theorem Core.onLnPort_lp (c : Core) (n : Nat) (f : LnPort → LnPort) : (c.onLnPort n f).lp = c.lp := rfl
@[simp] theorem Core.onLnPort_mot (c : Core) (n : Nat) (f : LnPort → LnPort) : (c.onLnPort n f).mot = c.mot := rfl
@[simp] theorem Core.onLnPort_ash (c : Core) (n : Nat) (f : LnPort → LnPort) : (c.onLnPort n f).ash = c.ash := rfl
@[simp] theorem Core.onLnPort_mr (c : Core) (n : Nat) (f : LnPort → LnPort) : (c.onLnPort n f).mr = c.mr := rfl
@[simp] theorem Core.onLnPort_up (c : Core) (n : Nat) (f : LnPort → LnPort) : (c.onLnPort n f).up = c.up := rfl
@[simp] theorem Core.onLnPort_mem (c : Core) (n : Nat) (f : LnPort → LnPort) : (c.onLnPort n f).mem = c.mem := rfl
@[simp] theorem Core.onLnPort_pw (c : Core) (n : Nat) (f : LnPort → LnPort) : (c.onLnPort n f).pw = c.pw := rfl
@[simp] theorem Core.onLnPort_mirror (c : Core) (n : Nat) (f : LnPort → LnPort) : (c.onLnPort n f).mirror = c.mirror := rfl
@[simp] theorem Core.onLnPort_out (c : Core) (n : Nat) (f : LnPort → LnPort) : (c.onLnPort n f).out = c.out := rfl
@[simp] theorem Core.onLnPort_free (c : Core) (n : Nat) (f : LnPort → LnPort) : (c.onLnPort n f).free = c.free := rfl
@[simp] theorem Core.onLnPort_lnPort (c : Core) (n : Nat) (f : LnPort → LnPort) : (c.onLnPort n f).lnPort n = f (c.lnPort n) := by
  simp [Core.onLnPort, Core.lnPort]
theorem Core.onLnPort_lnPort_ne (c : Core) (n k : Nat) (f : LnPort → LnPort) (h : k ≠ n) : (c.onLnPort n f).lnPort k = c.lnPort k := by
  simp [Core.onLnPort, Core.lnPort, SMap.get_upd_ne, h]
@[simp] theorem Core.onSession_regs (c : Core) (n : Nat) (f : Session → Session) : (c.onSession n f).regs = c.regs := rfl
@[simp] theorem Core.onSession_img (c : Core) (n : Nat) (f : Session → Session) : (c.onSession n f).img = c.img := rfl
@[simp] theorem Core.onSession_md (c : Core) (n : Nat) (f : Session → Session) : (c.onSession n f).md = c.md := rfl
@[simp] theorem Core.onSession_plumb (c : Core) (n : Nat) (f : Session → Session) : (c.onSession n f).plumb = c.plumb := rfl
@[simp] theorem Core.onSession_spr (c : Core) (n : Nat) (f : Session → Session) : (c.onSession n f).spr = c.spr := rfl
@[simp] theorem Core.onSession_cap (c : Core) (n : Nat) (f : Session → Session) : (c.onSession n f).cap = c.cap := rfl
@[simp] theorem Core.onSession_fab (c : Core) (n : Nat) (f : Session → Session) : (c.onSession n f).fab = c.fab := rfl
@[simp] theorem Core.onSession_wq (c : Core) (n : Nat) (f : Session → Session) : (c.onSession n f).wq = c.wq := rfl
@[simp] theorem Core.onSession_prog (c : Core) (n : Nat) (f : Session → Session) : (c.onSession n f).prog = c.prog := rfl
@[simp] theorem Core.onSession_lp (c : Core) (n : Nat) (f : Session → Session) : (c.onSession n f).lp = c.lp := rfl
@[simp] theorem Core.onSession_mot (c : Core) (n : Nat) (f : Session → Session) : (c.onSession n f).mot = c.mot := rfl
@[simp] theorem Core.onSession_ash (c : Core) (n : Nat) (f : Session → Session) : (c.onSession n f).ash = c.ash := rfl
@[simp] theorem Core.onSession_ln (c : Core) (n : Nat) (f : Session → Session) : (c.onSession n f).ln = c.ln := rfl
@[simp] theorem Core.onSession_mr (c : Core) (n : Nat) (f : Session → Session) : (c.onSession n f).mr = c.mr := rfl
@[simp] theorem Core.onSession_up (c : Core) (n : Nat) (f : Session → Session) : (c.onSession n f).up = c.up := rfl
@[simp] theorem Core.onSession_mem (c : Core) (n : Nat) (f : Session → Session) : (c.onSession n f).mem = c.mem := rfl
@[simp] theorem Core.onSession_pw (c : Core) (n : Nat) (f : Session → Session) : (c.onSession n f).pw = c.pw := rfl
@[simp] theorem Core.onSession_mirror (c : Core) (n : Nat) (f : Session → Session) : (c.onSession n f).mirror = c.mirror := rfl
@[simp] theorem Core.onSession_out (c : Core) (n : Nat) (f : Session → Session) : (c.onSession n f).out = c.out := rfl
@[simp] theorem Core.onSession_free (c : Core) (n : Nat) (f : Session → Session) : (c.onSession n f).free = c.free := rfl
@[simp] theorem Core.onSession_session (c : Core) (n : Nat) (f : Session → Session) : (c.onSession n f).session n = f (c.session n) := by
  simp [Core.onSession, Core.session]
theorem Core.onSession_session_ne (c : Core) (n k : Nat) (f : Session → Session) (h : k ≠ n) : (c.onSession n f).session k = c.session k := by
  simp [Core.onSession, Core.session, SMap.get_upd_ne, h]
@[simp] theorem Core.onPtpPort_regs (c : Core) (n : Nat) (f : PtpPort → PtpPort) : (c.onPtpPort n f).regs = c.regs := rfl
@[simp] theorem Core.onPtpPort_img (c : Core) (n : Nat) (f : PtpPort → PtpPort) : (c.onPtpPort n f).img = c.img := rfl
@[simp] theorem Core.onPtpPort_host (c : Core) (n : Nat) (f : PtpPort → PtpPort) : (c.onPtpPort n f).host = c.host := rfl
@[simp] theorem Core.onPtpPort_md (c : Core) (n : Nat) (f : PtpPort → PtpPort) : (c.onPtpPort n f).md = c.md := rfl
@[simp] theorem Core.onPtpPort_spr (c : Core) (n : Nat) (f : PtpPort → PtpPort) : (c.onPtpPort n f).spr = c.spr := rfl
@[simp] theorem Core.onPtpPort_cap (c : Core) (n : Nat) (f : PtpPort → PtpPort) : (c.onPtpPort n f).cap = c.cap := rfl
@[simp] theorem Core.onPtpPort_fab (c : Core) (n : Nat) (f : PtpPort → PtpPort) : (c.onPtpPort n f).fab = c.fab := rfl
@[simp] theorem Core.onPtpPort_wq (c : Core) (n : Nat) (f : PtpPort → PtpPort) : (c.onPtpPort n f).wq = c.wq := rfl
@[simp] theorem Core.onPtpPort_prog (c : Core) (n : Nat) (f : PtpPort → PtpPort) : (c.onPtpPort n f).prog = c.prog := rfl
@[simp] theorem Core.onPtpPort_lp (c : Core) (n : Nat) (f : PtpPort → PtpPort) : (c.onPtpPort n f).lp = c.lp := rfl
@[simp] theorem Core.onPtpPort_mot (c : Core) (n : Nat) (f : PtpPort → PtpPort) : (c.onPtpPort n f).mot = c.mot := rfl
@[simp] theorem Core.onPtpPort_ash (c : Core) (n : Nat) (f : PtpPort → PtpPort) : (c.onPtpPort n f).ash = c.ash := rfl
@[simp] theorem Core.onPtpPort_ln (c : Core) (n : Nat) (f : PtpPort → PtpPort) : (c.onPtpPort n f).ln = c.ln := rfl
@[simp] theorem Core.onPtpPort_mr (c : Core) (n : Nat) (f : PtpPort → PtpPort) : (c.onPtpPort n f).mr = c.mr := rfl
@[simp] theorem Core.onPtpPort_up (c : Core) (n : Nat) (f : PtpPort → PtpPort) : (c.onPtpPort n f).up = c.up := rfl
@[simp] theorem Core.onPtpPort_mem (c : Core) (n : Nat) (f : PtpPort → PtpPort) : (c.onPtpPort n f).mem = c.mem := rfl
@[simp] theorem Core.onPtpPort_pw (c : Core) (n : Nat) (f : PtpPort → PtpPort) : (c.onPtpPort n f).pw = c.pw := rfl
@[simp] theorem Core.onPtpPort_mirror (c : Core) (n : Nat) (f : PtpPort → PtpPort) : (c.onPtpPort n f).mirror = c.mirror := rfl
@[simp] theorem Core.onPtpPort_out (c : Core) (n : Nat) (f : PtpPort → PtpPort) : (c.onPtpPort n f).out = c.out := rfl
@[simp] theorem Core.onPtpPort_free (c : Core) (n : Nat) (f : PtpPort → PtpPort) : (c.onPtpPort n f).free = c.free := rfl
@[simp] theorem Core.onPtpPort_ptpPort (c : Core) (n : Nat) (f : PtpPort → PtpPort) : (c.onPtpPort n f).ptpPort n = f (c.ptpPort n) := by
  simp [Core.onPtpPort, Core.ptpPort]
theorem Core.onPtpPort_ptpPort_ne (c : Core) (n k : Nat) (f : PtpPort → PtpPort) (h : k ≠ n) : (c.onPtpPort n f).ptpPort k = c.ptpPort k := by
  simp [Core.onPtpPort, Core.ptpPort, SMap.get_upd_ne, h]
@[simp] theorem Core.onTin_regs (c : Core) (n : Nat) (f : Tin → Tin) : (c.onTin n f).regs = c.regs := rfl
@[simp] theorem Core.onTin_img (c : Core) (n : Nat) (f : Tin → Tin) : (c.onTin n f).img = c.img := rfl
@[simp] theorem Core.onTin_host (c : Core) (n : Nat) (f : Tin → Tin) : (c.onTin n f).host = c.host := rfl
@[simp] theorem Core.onTin_md (c : Core) (n : Nat) (f : Tin → Tin) : (c.onTin n f).md = c.md := rfl
@[simp] theorem Core.onTin_spr (c : Core) (n : Nat) (f : Tin → Tin) : (c.onTin n f).spr = c.spr := rfl
@[simp] theorem Core.onTin_cap (c : Core) (n : Nat) (f : Tin → Tin) : (c.onTin n f).cap = c.cap := rfl
@[simp] theorem Core.onTin_fab (c : Core) (n : Nat) (f : Tin → Tin) : (c.onTin n f).fab = c.fab := rfl
@[simp] theorem Core.onTin_wq (c : Core) (n : Nat) (f : Tin → Tin) : (c.onTin n f).wq = c.wq := rfl
@[simp] theorem Core.onTin_prog (c : Core) (n : Nat) (f : Tin → Tin) : (c.onTin n f).prog = c.prog := rfl
@[simp] theorem Core.onTin_lp (c : Core) (n : Nat) (f : Tin → Tin) : (c.onTin n f).lp = c.lp := rfl
@[simp] theorem Core.onTin_mot (c : Core) (n : Nat) (f : Tin → Tin) : (c.onTin n f).mot = c.mot := rfl
@[simp] theorem Core.onTin_ash (c : Core) (n : Nat) (f : Tin → Tin) : (c.onTin n f).ash = c.ash := rfl
@[simp] theorem Core.onTin_ln (c : Core) (n : Nat) (f : Tin → Tin) : (c.onTin n f).ln = c.ln := rfl
@[simp] theorem Core.onTin_mr (c : Core) (n : Nat) (f : Tin → Tin) : (c.onTin n f).mr = c.mr := rfl
@[simp] theorem Core.onTin_up (c : Core) (n : Nat) (f : Tin → Tin) : (c.onTin n f).up = c.up := rfl
@[simp] theorem Core.onTin_mem (c : Core) (n : Nat) (f : Tin → Tin) : (c.onTin n f).mem = c.mem := rfl
@[simp] theorem Core.onTin_pw (c : Core) (n : Nat) (f : Tin → Tin) : (c.onTin n f).pw = c.pw := rfl
@[simp] theorem Core.onTin_mirror (c : Core) (n : Nat) (f : Tin → Tin) : (c.onTin n f).mirror = c.mirror := rfl
@[simp] theorem Core.onTin_out (c : Core) (n : Nat) (f : Tin → Tin) : (c.onTin n f).out = c.out := rfl
@[simp] theorem Core.onTin_free (c : Core) (n : Nat) (f : Tin → Tin) : (c.onTin n f).free = c.free := rfl
@[simp] theorem Core.onTin_tin (c : Core) (n : Nat) (f : Tin → Tin) : (c.onTin n f).tin n = f (c.tin n) := by
  simp [Core.onTin, Core.tin]
theorem Core.onTin_tin_ne (c : Core) (n k : Nat) (f : Tin → Tin) (h : k ≠ n) : (c.onTin n f).tin k = c.tin k := by
  simp [Core.onTin, Core.tin, SMap.get_upd_ne, h]
@[simp] theorem Core.onTout_regs (c : Core) (n : Nat) (f : Tout → Tout) : (c.onTout n f).regs = c.regs := rfl
@[simp] theorem Core.onTout_img (c : Core) (n : Nat) (f : Tout → Tout) : (c.onTout n f).img = c.img := rfl
@[simp] theorem Core.onTout_host (c : Core) (n : Nat) (f : Tout → Tout) : (c.onTout n f).host = c.host := rfl
@[simp] theorem Core.onTout_md (c : Core) (n : Nat) (f : Tout → Tout) : (c.onTout n f).md = c.md := rfl
@[simp] theorem Core.onTout_spr (c : Core) (n : Nat) (f : Tout → Tout) : (c.onTout n f).spr = c.spr := rfl
@[simp] theorem Core.onTout_cap (c : Core) (n : Nat) (f : Tout → Tout) : (c.onTout n f).cap = c.cap := rfl
@[simp] theorem Core.onTout_fab (c : Core) (n : Nat) (f : Tout → Tout) : (c.onTout n f).fab = c.fab := rfl
@[simp] theorem Core.onTout_wq (c : Core) (n : Nat) (f : Tout → Tout) : (c.onTout n f).wq = c.wq := rfl
@[simp] theorem Core.onTout_prog (c : Core) (n : Nat) (f : Tout → Tout) : (c.onTout n f).prog = c.prog := rfl
@[simp] theorem Core.onTout_lp (c : Core) (n : Nat) (f : Tout → Tout) : (c.onTout n f).lp = c.lp := rfl
@[simp] theorem Core.onTout_mot (c : Core) (n : Nat) (f : Tout → Tout) : (c.onTout n f).mot = c.mot := rfl
@[simp] theorem Core.onTout_ash (c : Core) (n : Nat) (f : Tout → Tout) : (c.onTout n f).ash = c.ash := rfl
@[simp] theorem Core.onTout_ln (c : Core) (n : Nat) (f : Tout → Tout) : (c.onTout n f).ln = c.ln := rfl
@[simp] theorem Core.onTout_mr (c : Core) (n : Nat) (f : Tout → Tout) : (c.onTout n f).mr = c.mr := rfl
@[simp] theorem Core.onTout_up (c : Core) (n : Nat) (f : Tout → Tout) : (c.onTout n f).up = c.up := rfl
@[simp] theorem Core.onTout_mem (c : Core) (n : Nat) (f : Tout → Tout) : (c.onTout n f).mem = c.mem := rfl
@[simp] theorem Core.onTout_pw (c : Core) (n : Nat) (f : Tout → Tout) : (c.onTout n f).pw = c.pw := rfl
@[simp] theorem Core.onTout_mirror (c : Core) (n : Nat) (f : Tout → Tout) : (c.onTout n f).mirror = c.mirror := rfl
@[simp] theorem Core.onTout_out (c : Core) (n : Nat) (f : Tout → Tout) : (c.onTout n f).out = c.out := rfl
@[simp] theorem Core.onTout_free (c : Core) (n : Nat) (f : Tout → Tout) : (c.onTout n f).free = c.free := rfl
@[simp] theorem Core.onTout_tout (c : Core) (n : Nat) (f : Tout → Tout) : (c.onTout n f).tout n = f (c.tout n) := by
  simp [Core.onTout, Core.tout]
theorem Core.onTout_tout_ne (c : Core) (n k : Nat) (f : Tout → Tout) (h : k ≠ n) : (c.onTout n f).tout k = c.tout k := by
  simp [Core.onTout, Core.tout, SMap.get_upd_ne, h]
@[simp] theorem Core.onJr_regs (c : Core) (f : Journal → Journal) : (c.onJr f).regs = c.regs := rfl
@[simp] theorem Core.onJr_img (c : Core) (f : Journal → Journal) : (c.onJr f).img = c.img := rfl
@[simp] theorem Core.onJr_host (c : Core) (f : Journal → Journal) : (c.onJr f).host = c.host := rfl
@[simp] theorem Core.onJr_md (c : Core) (f : Journal → Journal) : (c.onJr f).md = c.md := rfl
@[simp] theorem Core.onJr_plumb (c : Core) (f : Journal → Journal) : (c.onJr f).plumb = c.plumb := rfl
@[simp] theorem Core.onJr_spr (c : Core) (f : Journal → Journal) : (c.onJr f).spr = c.spr := rfl
@[simp] theorem Core.onJr_cap (c : Core) (f : Journal → Journal) : (c.onJr f).cap = c.cap := rfl
@[simp] theorem Core.onJr_fab (c : Core) (f : Journal → Journal) : (c.onJr f).fab = c.fab := rfl
@[simp] theorem Core.onJr_wq (c : Core) (f : Journal → Journal) : (c.onJr f).wq = c.wq := rfl
@[simp] theorem Core.onJr_lp (c : Core) (f : Journal → Journal) : (c.onJr f).lp = c.lp := rfl
@[simp] theorem Core.onJr_mot (c : Core) (f : Journal → Journal) : (c.onJr f).mot = c.mot := rfl
@[simp] theorem Core.onJr_ash (c : Core) (f : Journal → Journal) : (c.onJr f).ash = c.ash := rfl
@[simp] theorem Core.onJr_ln (c : Core) (f : Journal → Journal) : (c.onJr f).ln = c.ln := rfl
@[simp] theorem Core.onJr_mr (c : Core) (f : Journal → Journal) : (c.onJr f).mr = c.mr := rfl
@[simp] theorem Core.onJr_up (c : Core) (f : Journal → Journal) : (c.onJr f).up = c.up := rfl
@[simp] theorem Core.onJr_mem (c : Core) (f : Journal → Journal) : (c.onJr f).mem = c.mem := rfl
@[simp] theorem Core.onJr_pw (c : Core) (f : Journal → Journal) : (c.onJr f).pw = c.pw := rfl
@[simp] theorem Core.onJr_mirror (c : Core) (f : Journal → Journal) : (c.onJr f).mirror = c.mirror := rfl
@[simp] theorem Core.onJr_out (c : Core) (f : Journal → Journal) : (c.onJr f).out = c.out := rfl
@[simp] theorem Core.onJr_free (c : Core) (f : Journal → Journal) : (c.onJr f).free = c.free := rfl
@[simp] theorem Core.onOlc_regs (c : Core) (f : Olc → Olc) : (c.onOlc f).regs = c.regs := rfl
@[simp] theorem Core.onOlc_img (c : Core) (f : Olc → Olc) : (c.onOlc f).img = c.img := rfl
@[simp] theorem Core.onOlc_host (c : Core) (f : Olc → Olc) : (c.onOlc f).host = c.host := rfl
@[simp] theorem Core.onOlc_md (c : Core) (f : Olc → Olc) : (c.onOlc f).md = c.md := rfl
@[simp] theorem Core.onOlc_plumb (c : Core) (f : Olc → Olc) : (c.onOlc f).plumb = c.plumb := rfl
@[simp] theorem Core.onOlc_spr (c : Core) (f : Olc → Olc) : (c.onOlc f).spr = c.spr := rfl
@[simp] theorem Core.onOlc_cap (c : Core) (f : Olc → Olc) : (c.onOlc f).cap = c.cap := rfl
@[simp] theorem Core.onOlc_fab (c : Core) (f : Olc → Olc) : (c.onOlc f).fab = c.fab := rfl
@[simp] theorem Core.onOlc_wq (c : Core) (f : Olc → Olc) : (c.onOlc f).wq = c.wq := rfl
@[simp] theorem Core.onOlc_lp (c : Core) (f : Olc → Olc) : (c.onOlc f).lp = c.lp := rfl
@[simp] theorem Core.onOlc_mot (c : Core) (f : Olc → Olc) : (c.onOlc f).mot = c.mot := rfl
@[simp] theorem Core.onOlc_ash (c : Core) (f : Olc → Olc) : (c.onOlc f).ash = c.ash := rfl
@[simp] theorem Core.onOlc_ln (c : Core) (f : Olc → Olc) : (c.onOlc f).ln = c.ln := rfl
@[simp] theorem Core.onOlc_mr (c : Core) (f : Olc → Olc) : (c.onOlc f).mr = c.mr := rfl
@[simp] theorem Core.onOlc_up (c : Core) (f : Olc → Olc) : (c.onOlc f).up = c.up := rfl
@[simp] theorem Core.onOlc_mem (c : Core) (f : Olc → Olc) : (c.onOlc f).mem = c.mem := rfl
@[simp] theorem Core.onOlc_pw (c : Core) (f : Olc → Olc) : (c.onOlc f).pw = c.pw := rfl
@[simp] theorem Core.onOlc_mirror (c : Core) (f : Olc → Olc) : (c.onOlc f).mirror = c.mirror := rfl
@[simp] theorem Core.onOlc_out (c : Core) (f : Olc → Olc) : (c.onOlc f).out = c.out := rfl
@[simp] theorem Core.onOlc_free (c : Core) (f : Olc → Olc) : (c.onOlc f).free = c.free := rfl
@[simp] theorem Core.emit_regs (c : Core) (o : Out) : (c.emit o).regs = c.regs := rfl
@[simp] theorem Core.emit_img (c : Core) (o : Out) : (c.emit o).img = c.img := rfl
@[simp] theorem Core.emit_host (c : Core) (o : Out) : (c.emit o).host = c.host := rfl
@[simp] theorem Core.emit_md (c : Core) (o : Out) : (c.emit o).md = c.md := rfl
@[simp] theorem Core.emit_plumb (c : Core) (o : Out) : (c.emit o).plumb = c.plumb := rfl
@[simp] theorem Core.emit_spr (c : Core) (o : Out) : (c.emit o).spr = c.spr := rfl
@[simp] theorem Core.emit_cap (c : Core) (o : Out) : (c.emit o).cap = c.cap := rfl
@[simp] theorem Core.emit_fab (c : Core) (o : Out) : (c.emit o).fab = c.fab := rfl
@[simp] theorem Core.emit_wq (c : Core) (o : Out) : (c.emit o).wq = c.wq := rfl
@[simp] theorem Core.emit_prog (c : Core) (o : Out) : (c.emit o).prog = c.prog := rfl
@[simp] theorem Core.emit_lp (c : Core) (o : Out) : (c.emit o).lp = c.lp := rfl
@[simp] theorem Core.emit_mot (c : Core) (o : Out) : (c.emit o).mot = c.mot := rfl
@[simp] theorem Core.emit_ash (c : Core) (o : Out) : (c.emit o).ash = c.ash := rfl
@[simp] theorem Core.emit_ln (c : Core) (o : Out) : (c.emit o).ln = c.ln := rfl
@[simp] theorem Core.emit_mr (c : Core) (o : Out) : (c.emit o).mr = c.mr := rfl
@[simp] theorem Core.emit_up (c : Core) (o : Out) : (c.emit o).up = c.up := rfl
@[simp] theorem Core.emit_mem (c : Core) (o : Out) : (c.emit o).mem = c.mem := rfl
@[simp] theorem Core.emit_pw (c : Core) (o : Out) : (c.emit o).pw = c.pw := rfl
@[simp] theorem Core.emit_mirror (c : Core) (o : Out) : (c.emit o).mirror = c.mirror := rfl
@[simp] theorem Core.emit_free (c : Core) (o : Out) : (c.emit o).free = c.free := rfl
@[simp] theorem Core.quiet_regs (c : Core) : (c.quiet).regs = c.regs := rfl
@[simp] theorem Core.quiet_img (c : Core) : (c.quiet).img = c.img := rfl
@[simp] theorem Core.quiet_host (c : Core) : (c.quiet).host = c.host := rfl
@[simp] theorem Core.quiet_md (c : Core) : (c.quiet).md = c.md := rfl
@[simp] theorem Core.quiet_plumb (c : Core) : (c.quiet).plumb = c.plumb := rfl
@[simp] theorem Core.quiet_spr (c : Core) : (c.quiet).spr = c.spr := rfl
@[simp] theorem Core.quiet_cap (c : Core) : (c.quiet).cap = c.cap := rfl
@[simp] theorem Core.quiet_fab (c : Core) : (c.quiet).fab = c.fab := rfl
@[simp] theorem Core.quiet_wq (c : Core) : (c.quiet).wq = c.wq := rfl
@[simp] theorem Core.quiet_prog (c : Core) : (c.quiet).prog = c.prog := rfl
@[simp] theorem Core.quiet_lp (c : Core) : (c.quiet).lp = c.lp := rfl
@[simp] theorem Core.quiet_mot (c : Core) : (c.quiet).mot = c.mot := rfl
@[simp] theorem Core.quiet_ash (c : Core) : (c.quiet).ash = c.ash := rfl
@[simp] theorem Core.quiet_ln (c : Core) : (c.quiet).ln = c.ln := rfl
@[simp] theorem Core.quiet_mr (c : Core) : (c.quiet).mr = c.mr := rfl
@[simp] theorem Core.quiet_up (c : Core) : (c.quiet).up = c.up := rfl
@[simp] theorem Core.quiet_mem (c : Core) : (c.quiet).mem = c.mem := rfl
@[simp] theorem Core.quiet_pw (c : Core) : (c.quiet).pw = c.pw := rfl
@[simp] theorem Core.quiet_mirror (c : Core) : (c.quiet).mirror = c.mirror := rfl
@[simp] theorem Core.quiet_free (c : Core) : (c.quiet).free = c.free := rfl
@[simp] theorem Core.setReg_img (c : Core) (a : Nat) (v : Word) : (c.setReg a v).img = c.img := rfl
@[simp] theorem Core.setReg_host (c : Core) (a : Nat) (v : Word) : (c.setReg a v).host = c.host := rfl
@[simp] theorem Core.setReg_md (c : Core) (a : Nat) (v : Word) : (c.setReg a v).md = c.md := rfl
@[simp] theorem Core.setReg_plumb (c : Core) (a : Nat) (v : Word) : (c.setReg a v).plumb = c.plumb := rfl
@[simp] theorem Core.setReg_spr (c : Core) (a : Nat) (v : Word) : (c.setReg a v).spr = c.spr := rfl
@[simp] theorem Core.setReg_cap (c : Core) (a : Nat) (v : Word) : (c.setReg a v).cap = c.cap := rfl
@[simp] theorem Core.setReg_fab (c : Core) (a : Nat) (v : Word) : (c.setReg a v).fab = c.fab := rfl
@[simp] theorem Core.setReg_wq (c : Core) (a : Nat) (v : Word) : (c.setReg a v).wq = c.wq := rfl
@[simp] theorem Core.setReg_prog (c : Core) (a : Nat) (v : Word) : (c.setReg a v).prog = c.prog := rfl
@[simp] theorem Core.setReg_lp (c : Core) (a : Nat) (v : Word) : (c.setReg a v).lp = c.lp := rfl
@[simp] theorem Core.setReg_mot (c : Core) (a : Nat) (v : Word) : (c.setReg a v).mot = c.mot := rfl
@[simp] theorem Core.setReg_ash (c : Core) (a : Nat) (v : Word) : (c.setReg a v).ash = c.ash := rfl
@[simp] theorem Core.setReg_ln (c : Core) (a : Nat) (v : Word) : (c.setReg a v).ln = c.ln := rfl
@[simp] theorem Core.setReg_mr (c : Core) (a : Nat) (v : Word) : (c.setReg a v).mr = c.mr := rfl
@[simp] theorem Core.setReg_up (c : Core) (a : Nat) (v : Word) : (c.setReg a v).up = c.up := rfl
@[simp] theorem Core.setReg_mem (c : Core) (a : Nat) (v : Word) : (c.setReg a v).mem = c.mem := rfl
@[simp] theorem Core.setReg_pw (c : Core) (a : Nat) (v : Word) : (c.setReg a v).pw = c.pw := rfl
@[simp] theorem Core.setReg_mirror (c : Core) (a : Nat) (v : Word) : (c.setReg a v).mirror = c.mirror := rfl
@[simp] theorem Core.setReg_out (c : Core) (a : Nat) (v : Word) : (c.setReg a v).out = c.out := rfl
@[simp] theorem Core.setReg_free (c : Core) (a : Nat) (v : Word) : (c.setReg a v).free = c.free := rfl
@[simp] theorem Core.placeReg_regs (c : Core) (a : Nat) (v : Word) : (c.placeReg a v).regs = c.regs := rfl
@[simp] theorem Core.placeReg_host (c : Core) (a : Nat) (v : Word) : (c.placeReg a v).host = c.host := rfl
@[simp] theorem Core.placeReg_md (c : Core) (a : Nat) (v : Word) : (c.placeReg a v).md = c.md := rfl
@[simp] theorem Core.placeReg_plumb (c : Core) (a : Nat) (v : Word) : (c.placeReg a v).plumb = c.plumb := rfl
@[simp] theorem Core.placeReg_spr (c : Core) (a : Nat) (v : Word) : (c.placeReg a v).spr = c.spr := rfl
@[simp] theorem Core.placeReg_cap (c : Core) (a : Nat) (v : Word) : (c.placeReg a v).cap = c.cap := rfl
@[simp] theorem Core.placeReg_fab (c : Core) (a : Nat) (v : Word) : (c.placeReg a v).fab = c.fab := rfl
@[simp] theorem Core.placeReg_wq (c : Core) (a : Nat) (v : Word) : (c.placeReg a v).wq = c.wq := rfl
@[simp] theorem Core.placeReg_prog (c : Core) (a : Nat) (v : Word) : (c.placeReg a v).prog = c.prog := rfl
@[simp] theorem Core.placeReg_lp (c : Core) (a : Nat) (v : Word) : (c.placeReg a v).lp = c.lp := rfl
@[simp] theorem Core.placeReg_mot (c : Core) (a : Nat) (v : Word) : (c.placeReg a v).mot = c.mot := rfl
@[simp] theorem Core.placeReg_ash (c : Core) (a : Nat) (v : Word) : (c.placeReg a v).ash = c.ash := rfl
@[simp] theorem Core.placeReg_ln (c : Core) (a : Nat) (v : Word) : (c.placeReg a v).ln = c.ln := rfl
@[simp] theorem Core.placeReg_mr (c : Core) (a : Nat) (v : Word) : (c.placeReg a v).mr = c.mr := rfl
@[simp] theorem Core.placeReg_up (c : Core) (a : Nat) (v : Word) : (c.placeReg a v).up = c.up := rfl
@[simp] theorem Core.placeReg_mem (c : Core) (a : Nat) (v : Word) : (c.placeReg a v).mem = c.mem := rfl
@[simp] theorem Core.placeReg_pw (c : Core) (a : Nat) (v : Word) : (c.placeReg a v).pw = c.pw := rfl
@[simp] theorem Core.placeReg_mirror (c : Core) (a : Nat) (v : Word) : (c.placeReg a v).mirror = c.mirror := rfl
@[simp] theorem Core.placeReg_out (c : Core) (a : Nat) (v : Word) : (c.placeReg a v).out = c.out := rfl
@[simp] theorem Core.placeReg_free (c : Core) (a : Nat) (v : Word) : (c.placeReg a v).free = c.free := rfl
@[simp] theorem Core.setTag_regs (c : Core) (t : Tag) (v : DWord) : (c.setTag t v).regs = c.regs := rfl
@[simp] theorem Core.setTag_img (c : Core) (t : Tag) (v : DWord) : (c.setTag t v).img = c.img := rfl
@[simp] theorem Core.setTag_host (c : Core) (t : Tag) (v : DWord) : (c.setTag t v).host = c.host := rfl
@[simp] theorem Core.setTag_md (c : Core) (t : Tag) (v : DWord) : (c.setTag t v).md = c.md := rfl
@[simp] theorem Core.setTag_plumb (c : Core) (t : Tag) (v : DWord) : (c.setTag t v).plumb = c.plumb := rfl
@[simp] theorem Core.setTag_spr (c : Core) (t : Tag) (v : DWord) : (c.setTag t v).spr = c.spr := rfl
@[simp] theorem Core.setTag_cap (c : Core) (t : Tag) (v : DWord) : (c.setTag t v).cap = c.cap := rfl
@[simp] theorem Core.setTag_fab (c : Core) (t : Tag) (v : DWord) : (c.setTag t v).fab = c.fab := rfl
@[simp] theorem Core.setTag_wq (c : Core) (t : Tag) (v : DWord) : (c.setTag t v).wq = c.wq := rfl
@[simp] theorem Core.setTag_prog (c : Core) (t : Tag) (v : DWord) : (c.setTag t v).prog = c.prog := rfl
@[simp] theorem Core.setTag_lp (c : Core) (t : Tag) (v : DWord) : (c.setTag t v).lp = c.lp := rfl
@[simp] theorem Core.setTag_mot (c : Core) (t : Tag) (v : DWord) : (c.setTag t v).mot = c.mot := rfl
@[simp] theorem Core.setTag_ash (c : Core) (t : Tag) (v : DWord) : (c.setTag t v).ash = c.ash := rfl
@[simp] theorem Core.setTag_ln (c : Core) (t : Tag) (v : DWord) : (c.setTag t v).ln = c.ln := rfl
@[simp] theorem Core.setTag_mr (c : Core) (t : Tag) (v : DWord) : (c.setTag t v).mr = c.mr := rfl
@[simp] theorem Core.setTag_up (c : Core) (t : Tag) (v : DWord) : (c.setTag t v).up = c.up := rfl
@[simp] theorem Core.setTag_pw (c : Core) (t : Tag) (v : DWord) : (c.setTag t v).pw = c.pw := rfl
@[simp] theorem Core.setTag_mirror (c : Core) (t : Tag) (v : DWord) : (c.setTag t v).mirror = c.mirror := rfl
@[simp] theorem Core.setTag_out (c : Core) (t : Tag) (v : DWord) : (c.setTag t v).out = c.out := rfl
@[simp] theorem Core.setTag_free (c : Core) (t : Tag) (v : DWord) : (c.setTag t v).free = c.free := rfl
@[simp] theorem Core.setMeta_regs (c : Core) (t : Tag) (v : DWord) : (c.setMeta t v).regs = c.regs := rfl
@[simp] theorem Core.setMeta_img (c : Core) (t : Tag) (v : DWord) : (c.setMeta t v).img = c.img := rfl
@[simp] theorem Core.setMeta_host (c : Core) (t : Tag) (v : DWord) : (c.setMeta t v).host = c.host := rfl
@[simp] theorem Core.setMeta_md (c : Core) (t : Tag) (v : DWord) : (c.setMeta t v).md = c.md := rfl
@[simp] theorem Core.setMeta_plumb (c : Core) (t : Tag) (v : DWord) : (c.setMeta t v).plumb = c.plumb := rfl
@[simp] theorem Core.setMeta_spr (c : Core) (t : Tag) (v : DWord) : (c.setMeta t v).spr = c.spr := rfl
@[simp] theorem Core.setMeta_cap (c : Core) (t : Tag) (v : DWord) : (c.setMeta t v).cap = c.cap := rfl
@[simp] theorem Core.setMeta_fab (c : Core) (t : Tag) (v : DWord) : (c.setMeta t v).fab = c.fab := rfl
@[simp] theorem Core.setMeta_wq (c : Core) (t : Tag) (v : DWord) : (c.setMeta t v).wq = c.wq := rfl
@[simp] theorem Core.setMeta_prog (c : Core) (t : Tag) (v : DWord) : (c.setMeta t v).prog = c.prog := rfl
@[simp] theorem Core.setMeta_lp (c : Core) (t : Tag) (v : DWord) : (c.setMeta t v).lp = c.lp := rfl
@[simp] theorem Core.setMeta_mot (c : Core) (t : Tag) (v : DWord) : (c.setMeta t v).mot = c.mot := rfl
@[simp] theorem Core.setMeta_ash (c : Core) (t : Tag) (v : DWord) : (c.setMeta t v).ash = c.ash := rfl
@[simp] theorem Core.setMeta_ln (c : Core) (t : Tag) (v : DWord) : (c.setMeta t v).ln = c.ln := rfl
@[simp] theorem Core.setMeta_mr (c : Core) (t : Tag) (v : DWord) : (c.setMeta t v).mr = c.mr := rfl
@[simp] theorem Core.setMeta_up (c : Core) (t : Tag) (v : DWord) : (c.setMeta t v).up = c.up := rfl
@[simp] theorem Core.setMeta_pw (c : Core) (t : Tag) (v : DWord) : (c.setMeta t v).pw = c.pw := rfl
@[simp] theorem Core.setMeta_mirror (c : Core) (t : Tag) (v : DWord) : (c.setMeta t v).mirror = c.mirror := rfl
@[simp] theorem Core.setMeta_out (c : Core) (t : Tag) (v : DWord) : (c.setMeta t v).out = c.out := rfl
@[simp] theorem Core.setMeta_free (c : Core) (t : Tag) (v : DWord) : (c.setMeta t v).free = c.free := rfl
@[simp] theorem Core.t1Write_regs (c : Core) (a v n : Nat) : (c.t1Write a v n).regs = c.regs := rfl
@[simp] theorem Core.t1Write_img (c : Core) (a v n : Nat) : (c.t1Write a v n).img = c.img := rfl
@[simp] theorem Core.t1Write_host (c : Core) (a v n : Nat) : (c.t1Write a v n).host = c.host := rfl
@[simp] theorem Core.t1Write_md (c : Core) (a v n : Nat) : (c.t1Write a v n).md = c.md := rfl
@[simp] theorem Core.t1Write_plumb (c : Core) (a v n : Nat) : (c.t1Write a v n).plumb = c.plumb := rfl
@[simp] theorem Core.t1Write_spr (c : Core) (a v n : Nat) : (c.t1Write a v n).spr = c.spr := rfl
@[simp] theorem Core.t1Write_cap (c : Core) (a v n : Nat) : (c.t1Write a v n).cap = c.cap := rfl
@[simp] theorem Core.t1Write_fab (c : Core) (a v n : Nat) : (c.t1Write a v n).fab = c.fab := rfl
@[simp] theorem Core.t1Write_wq (c : Core) (a v n : Nat) : (c.t1Write a v n).wq = c.wq := rfl
@[simp] theorem Core.t1Write_prog (c : Core) (a v n : Nat) : (c.t1Write a v n).prog = c.prog := rfl
@[simp] theorem Core.t1Write_lp (c : Core) (a v n : Nat) : (c.t1Write a v n).lp = c.lp := rfl
@[simp] theorem Core.t1Write_mot (c : Core) (a v n : Nat) : (c.t1Write a v n).mot = c.mot := rfl
@[simp] theorem Core.t1Write_ash (c : Core) (a v n : Nat) : (c.t1Write a v n).ash = c.ash := rfl
@[simp] theorem Core.t1Write_ln (c : Core) (a v n : Nat) : (c.t1Write a v n).ln = c.ln := rfl
@[simp] theorem Core.t1Write_mr (c : Core) (a v n : Nat) : (c.t1Write a v n).mr = c.mr := rfl
@[simp] theorem Core.t1Write_up (c : Core) (a v n : Nat) : (c.t1Write a v n).up = c.up := rfl
@[simp] theorem Core.t1Write_pw (c : Core) (a v n : Nat) : (c.t1Write a v n).pw = c.pw := rfl
@[simp] theorem Core.t1Write_mirror (c : Core) (a v n : Nat) : (c.t1Write a v n).mirror = c.mirror := rfl
@[simp] theorem Core.t1Write_out (c : Core) (a v n : Nat) : (c.t1Write a v n).out = c.out := rfl
@[simp] theorem Core.t1Write_free (c : Core) (a v n : Nat) : (c.t1Write a v n).free = c.free := rfl
@[simp] theorem Core.bump_img (c : Core) (a n : Nat) : (c.bump a n).img = c.img := rfl
@[simp] theorem Core.bump_host (c : Core) (a n : Nat) : (c.bump a n).host = c.host := rfl
@[simp] theorem Core.bump_md (c : Core) (a n : Nat) : (c.bump a n).md = c.md := rfl
@[simp] theorem Core.bump_plumb (c : Core) (a n : Nat) : (c.bump a n).plumb = c.plumb := rfl
@[simp] theorem Core.bump_spr (c : Core) (a n : Nat) : (c.bump a n).spr = c.spr := rfl
@[simp] theorem Core.bump_cap (c : Core) (a n : Nat) : (c.bump a n).cap = c.cap := rfl
@[simp] theorem Core.bump_fab (c : Core) (a n : Nat) : (c.bump a n).fab = c.fab := rfl
@[simp] theorem Core.bump_wq (c : Core) (a n : Nat) : (c.bump a n).wq = c.wq := rfl
@[simp] theorem Core.bump_prog (c : Core) (a n : Nat) : (c.bump a n).prog = c.prog := rfl
@[simp] theorem Core.bump_lp (c : Core) (a n : Nat) : (c.bump a n).lp = c.lp := rfl
@[simp] theorem Core.bump_mot (c : Core) (a n : Nat) : (c.bump a n).mot = c.mot := rfl
@[simp] theorem Core.bump_ash (c : Core) (a n : Nat) : (c.bump a n).ash = c.ash := rfl
@[simp] theorem Core.bump_ln (c : Core) (a n : Nat) : (c.bump a n).ln = c.ln := rfl
@[simp] theorem Core.bump_mr (c : Core) (a n : Nat) : (c.bump a n).mr = c.mr := rfl
@[simp] theorem Core.bump_up (c : Core) (a n : Nat) : (c.bump a n).up = c.up := rfl
@[simp] theorem Core.bump_mem (c : Core) (a n : Nat) : (c.bump a n).mem = c.mem := rfl
@[simp] theorem Core.bump_pw (c : Core) (a n : Nat) : (c.bump a n).pw = c.pw := rfl
@[simp] theorem Core.bump_mirror (c : Core) (a n : Nat) : (c.bump a n).mirror = c.mirror := rfl
@[simp] theorem Core.bump_out (c : Core) (a n : Nat) : (c.bump a n).out = c.out := rfl
@[simp] theorem Core.bump_free (c : Core) (a n : Nat) : (c.bump a n).free = c.free := rfl
@[simp] theorem Core.bumpWrap_img (c : Core) (a n : Nat) : (c.bumpWrap a n).img = c.img := rfl
@[simp] theorem Core.bumpWrap_host (c : Core) (a n : Nat) : (c.bumpWrap a n).host = c.host := rfl
@[simp] theorem Core.bumpWrap_md (c : Core) (a n : Nat) : (c.bumpWrap a n).md = c.md := rfl
@[simp] theorem Core.bumpWrap_plumb (c : Core) (a n : Nat) : (c.bumpWrap a n).plumb = c.plumb := rfl
@[simp] theorem Core.bumpWrap_spr (c : Core) (a n : Nat) : (c.bumpWrap a n).spr = c.spr := rfl
@[simp] theorem Core.bumpWrap_cap (c : Core) (a n : Nat) : (c.bumpWrap a n).cap = c.cap := rfl
@[simp] theorem Core.bumpWrap_fab (c : Core) (a n : Nat) : (c.bumpWrap a n).fab = c.fab := rfl
@[simp] theorem Core.bumpWrap_wq (c : Core) (a n : Nat) : (c.bumpWrap a n).wq = c.wq := rfl
@[simp] theorem Core.bumpWrap_prog (c : Core) (a n : Nat) : (c.bumpWrap a n).prog = c.prog := rfl
@[simp] theorem Core.bumpWrap_lp (c : Core) (a n : Nat) : (c.bumpWrap a n).lp = c.lp := rfl
@[simp] theorem Core.bumpWrap_mot (c : Core) (a n : Nat) : (c.bumpWrap a n).mot = c.mot := rfl
@[simp] theorem Core.bumpWrap_ash (c : Core) (a n : Nat) : (c.bumpWrap a n).ash = c.ash := rfl
@[simp] theorem Core.bumpWrap_ln (c : Core) (a n : Nat) : (c.bumpWrap a n).ln = c.ln := rfl
@[simp] theorem Core.bumpWrap_mr (c : Core) (a n : Nat) : (c.bumpWrap a n).mr = c.mr := rfl
@[simp] theorem Core.bumpWrap_up (c : Core) (a n : Nat) : (c.bumpWrap a n).up = c.up := rfl
@[simp] theorem Core.bumpWrap_mem (c : Core) (a n : Nat) : (c.bumpWrap a n).mem = c.mem := rfl
@[simp] theorem Core.bumpWrap_pw (c : Core) (a n : Nat) : (c.bumpWrap a n).pw = c.pw := rfl
@[simp] theorem Core.bumpWrap_mirror (c : Core) (a n : Nat) : (c.bumpWrap a n).mirror = c.mirror := rfl
@[simp] theorem Core.bumpWrap_out (c : Core) (a n : Nat) : (c.bumpWrap a n).out = c.out := rfl
@[simp] theorem Core.bumpWrap_free (c : Core) (a n : Nat) : (c.bumpWrap a n).free = c.free := rfl
@[simp] theorem Core.setFld_img (c : Core) (a hi lo v : Nat) : (c.setFld a hi lo v).img = c.img := rfl
@[simp] theorem Core.setFld_host (c : Core) (a hi lo v : Nat) : (c.setFld a hi lo v).host = c.host := rfl
@[simp] theorem Core.setFld_md (c : Core) (a hi lo v : Nat) : (c.setFld a hi lo v).md = c.md := rfl
@[simp] theorem Core.setFld_plumb (c : Core) (a hi lo v : Nat) : (c.setFld a hi lo v).plumb = c.plumb := rfl
@[simp] theorem Core.setFld_spr (c : Core) (a hi lo v : Nat) : (c.setFld a hi lo v).spr = c.spr := rfl
@[simp] theorem Core.setFld_cap (c : Core) (a hi lo v : Nat) : (c.setFld a hi lo v).cap = c.cap := rfl
@[simp] theorem Core.setFld_fab (c : Core) (a hi lo v : Nat) : (c.setFld a hi lo v).fab = c.fab := rfl
@[simp] theorem Core.setFld_wq (c : Core) (a hi lo v : Nat) : (c.setFld a hi lo v).wq = c.wq := rfl
@[simp] theorem Core.setFld_prog (c : Core) (a hi lo v : Nat) : (c.setFld a hi lo v).prog = c.prog := rfl
@[simp] theorem Core.setFld_lp (c : Core) (a hi lo v : Nat) : (c.setFld a hi lo v).lp = c.lp := rfl
@[simp] theorem Core.setFld_mot (c : Core) (a hi lo v : Nat) : (c.setFld a hi lo v).mot = c.mot := rfl
@[simp] theorem Core.setFld_ash (c : Core) (a hi lo v : Nat) : (c.setFld a hi lo v).ash = c.ash := rfl
@[simp] theorem Core.setFld_ln (c : Core) (a hi lo v : Nat) : (c.setFld a hi lo v).ln = c.ln := rfl
@[simp] theorem Core.setFld_mr (c : Core) (a hi lo v : Nat) : (c.setFld a hi lo v).mr = c.mr := rfl
@[simp] theorem Core.setFld_up (c : Core) (a hi lo v : Nat) : (c.setFld a hi lo v).up = c.up := rfl
@[simp] theorem Core.setFld_mem (c : Core) (a hi lo v : Nat) : (c.setFld a hi lo v).mem = c.mem := rfl
@[simp] theorem Core.setFld_pw (c : Core) (a hi lo v : Nat) : (c.setFld a hi lo v).pw = c.pw := rfl
@[simp] theorem Core.setFld_mirror (c : Core) (a hi lo v : Nat) : (c.setFld a hi lo v).mirror = c.mirror := rfl
@[simp] theorem Core.setFld_out (c : Core) (a hi lo v : Nat) : (c.setFld a hi lo v).out = c.out := rfl
@[simp] theorem Core.setFld_free (c : Core) (a hi lo v : Nat) : (c.setFld a hi lo v).free = c.free := rfl
@[simp] theorem Core.onBoot_regs (c : Core) (f : BootRec → BootRec) : (c.onBoot f).regs = c.regs := rfl
@[simp] theorem Core.onBoot_img (c : Core) (f : BootRec → BootRec) : (c.onBoot f).img = c.img := rfl
@[simp] theorem Core.onBoot_host (c : Core) (f : BootRec → BootRec) : (c.onBoot f).host = c.host := rfl
@[simp] theorem Core.onBoot_md (c : Core) (f : BootRec → BootRec) : (c.onBoot f).md = c.md := rfl
@[simp] theorem Core.onBoot_plumb (c : Core) (f : BootRec → BootRec) : (c.onBoot f).plumb = c.plumb := rfl
@[simp] theorem Core.onBoot_spr (c : Core) (f : BootRec → BootRec) : (c.onBoot f).spr = c.spr := rfl
@[simp] theorem Core.onBoot_cap (c : Core) (f : BootRec → BootRec) : (c.onBoot f).cap = c.cap := rfl
@[simp] theorem Core.onBoot_fab (c : Core) (f : BootRec → BootRec) : (c.onBoot f).fab = c.fab := rfl
@[simp] theorem Core.onBoot_wq (c : Core) (f : BootRec → BootRec) : (c.onBoot f).wq = c.wq := rfl
@[simp] theorem Core.onBoot_prog (c : Core) (f : BootRec → BootRec) : (c.onBoot f).prog = c.prog := rfl
@[simp] theorem Core.onBoot_lp (c : Core) (f : BootRec → BootRec) : (c.onBoot f).lp = c.lp := rfl
@[simp] theorem Core.onBoot_mot (c : Core) (f : BootRec → BootRec) : (c.onBoot f).mot = c.mot := rfl
@[simp] theorem Core.onBoot_ash (c : Core) (f : BootRec → BootRec) : (c.onBoot f).ash = c.ash := rfl
@[simp] theorem Core.onBoot_ln (c : Core) (f : BootRec → BootRec) : (c.onBoot f).ln = c.ln := rfl
@[simp] theorem Core.onBoot_mr (c : Core) (f : BootRec → BootRec) : (c.onBoot f).mr = c.mr := rfl
@[simp] theorem Core.onBoot_mem (c : Core) (f : BootRec → BootRec) : (c.onBoot f).mem = c.mem := rfl
@[simp] theorem Core.onBoot_pw (c : Core) (f : BootRec → BootRec) : (c.onBoot f).pw = c.pw := rfl
@[simp] theorem Core.onBoot_mirror (c : Core) (f : BootRec → BootRec) : (c.onBoot f).mirror = c.mirror := rfl
@[simp] theorem Core.onBoot_out (c : Core) (f : BootRec → BootRec) : (c.onBoot f).out = c.out := rfl
@[simp] theorem Core.onBoot_free (c : Core) (f : BootRec → BootRec) : (c.onBoot f).free = c.free := rfl

@[simp] theorem Core.emit_out (c : Core) (o : Out) : (c.emit o).out = c.out ++ [o] := rfl
@[simp] theorem Core.quiet_out (c : Core) : c.quiet.out = [] := rfl
@[simp] theorem Core.onJr_jr (c : Core) (f : Journal → Journal) : (c.onJr f).prog = { c.prog with jr := f c.prog.jr } := rfl
@[simp] theorem Core.onOlc_olc (c : Core) (f : Olc → Olc) : (c.onOlc f).prog = { c.prog with olc := f c.prog.olc } := rfl

/-- A read of a stored register after a write of one. -/
theorem Core.reg_setReg (c : Core) (a b : Nat) (v : Word) : (c.setReg a v).reg b = if b = a then v else c.reg b := by
  unfold Core.reg Core.setReg Core.imgWord
  simp only [SMap.get_set]
  split
  · rename_i h; subst h; simp [BitVec.xor_assoc]
  · rfl

@[simp] theorem Core.reg_setReg_self (c : Core) (a : Nat) (v : Word) : (c.setReg a v).reg a = v := by simp [Core.reg_setReg]

theorem Core.reg_setReg_ne (c : Core) (a b : Nat) (v : Word) (h : b ≠ a) : (c.setReg a v).reg b = c.reg b := by
  simp [Core.reg_setReg, h]

/-- A stored register is read from the two register maps alone. -/
theorem Core.reg_congr (c d : Core) (a : Nat) (h1 : c.regs = d.regs) (h2 : c.img = d.img) : c.reg a = d.reg a := by
  unfold Core.reg Core.imgWord; rw [h1, h2]

/-- A read of a tag after a write of one. -/
theorem Core.tagVal_setTag (c : Core) (t u : Tag) (v : DWord) : (c.setTag t v).tagVal u = if u = t then v else c.tagVal u := by
  simp [Core.tagVal, Core.setTag, SMap.get_set]

/-- What a command on the core answers, and what it leaves. -/
theorem coreCmd_next (f : Core → Core) (s : State) :
    coreCmd f s = .next { s with dev := { s.dev with core := f s.dev.core.quiet } } := rfl

theorem devCmd_next (f : Dev → Dev) (s : State) : devCmd f s = .next { s with dev := f (s.dev.onCore Core.quiet) } := rfl

end Sys2Proof.Machine
end

