-- ==== Sys2Proof/Laws/Events.lean ====
section
/-!
SUPPORT. Laws/Events.lean: raising an event changes host access and the registers alone, and leaves its record.
-/
namespace Sys2Proof.Machine

/-- Two cores that differ in host access and registers alone. -/
def Core.HostOnly (c d : Core) : Prop := ∃ h r, d = { c with host := h, regs := r }

theorem Core.HostOnly.refl (c : Core) : c.HostOnly c := ⟨c.host, c.regs, rfl⟩

theorem Core.HostOnly.trans {c d e : Core} (h1 : c.HostOnly d) (h2 : d.HostOnly e) : c.HostOnly e := by
  obtain ⟨h, r, rfl⟩ := h1; obtain ⟨h', r', rfl⟩ := h2; exact ⟨h', r', rfl⟩

theorem Core.HostOnly.foldl {α : Type} (f : Core → α → Core) (hf : ∀ (c : Core) (a : α), c.HostOnly (f c a)) : ∀ (l : List α) (c : Core),
    c.HostOnly (l.foldl f c)
  | [], c => .refl c
  | a :: l, c => (hf c a).trans (Core.HostOnly.foldl f hf l (f c a))

theorem Core.HostOnly.setReg {c d : Core} (h : c.HostOnly d) (a : Nat) (v : Word) : c.HostOnly (d.setReg a v) :=
  h.trans ⟨d.host, _, rfl⟩
theorem Core.HostOnly.onHost {c d : Core} (h : c.HostOnly d) (f : HostSt → HostSt) : c.HostOnly (d.onHost f) := h.trans ⟨_, d.regs, rfl⟩
theorem Core.HostOnly.onSession {c d : Core} (h : c.HostOnly d) (n : Nat) (f : Session → Session) : c.HostOnly (d.onSession n f) :=
  h.trans ⟨_, d.regs, rfl⟩
theorem Core.HostOnly.bump {c d : Core} (h : c.HostOnly d) (a n : Nat) : c.HostOnly (d.bump a n) := h.trans ⟨d.host, _, rfl⟩
theorem Core.HostOnly.bumpWrap {c d : Core} (h : c.HostOnly d) (a n : Nat) : c.HostOnly (d.bumpWrap a n) := h.trans ⟨d.host, _, rfl⟩

theorem Core.HostOnly.queueNotif {c d : Core} (h : c.HostOnly d) (s : Sub) (n : Notif) : c.HostOnly (d.queueNotif s n).1 := by
  unfold Core.queueNotif
  dsimp only
  split
  · dsimp only; exact ((h.onHost _).bump _ _).onSession _ _
  · dsimp only; exact (h.onSession _ _).onHost _

theorem Core.HostOnly.logEvent {c d : Core} (h : c.HostOnly d) (code p : Nat) : c.HostOnly (d.logEvent code p).2 := by
  unfold Core.logEvent
  dsimp only
  split
  · exact ((h.onHost _).setReg _ _).setReg _ _
  · exact (h.onHost _).setReg _ _

theorem Core.HostOnly.deliver {c : Core} (r : EvRec) : ∀ (l : List Sub) {d : Core}, c.HostOnly d → c.HostOnly (Core.deliver r l d).1
  | [], _, h => h
  | s :: l, d, h => by
    unfold Core.deliver
    split
    · exact Core.HostOnly.deliver r l (h.queueNotif _ _)
    · exact Core.HostOnly.deliver r l h

theorem Core.HostOnly.raiseLosses {c : Core} (f : Nat) : ∀ (l : List Nat) {d : Core}, c.HostOnly d → c.HostOnly (Core.raiseLosses f l d) := by
  induction f with
  | zero => intro l d h; unfold Core.raiseLosses; exact h
  | succ f ih =>
    intro l d h
    cases l with
    | nil => exact h
    | cons s l =>
      rw [Core.raiseLosses]
      exact ih _ ((h.logEvent 0x0123 (path 1 3 s)).deliver (d.logEvent 0x0123 (path 1 3 s)).1 (d.logEvent 0x0123 (path 1 3 s)).2.host.subs)

/-- Raising an event. -/
theorem Core.HostOnly.raise {c d : Core} (h : c.HostOnly d) (code p : Nat) : c.HostOnly (d.raise code p) := by
  unfold Core.raise
  dsimp only
  exact Core.HostOnly.raiseLosses _ _ ((h.logEvent code p).deliver (d.logEvent code p).1 (d.logEvent code p).2.host.subs)

theorem Core.HostOnly.raiseIf {c d : Core} (h : c.HostOnly d) (b : Bool) (code p : Nat) : c.HostOnly (d.raiseIf b code p) := by
  unfold Core.raiseIf; split
  · exact h.raise code p
  · exact h

theorem Core.HostOnly.raiseEvery {c d : Core} (h : c.HostOnly d) (g : Time) (code p : Nat) : c.HostOnly (d.raiseEvery g code p) := by
  unfold Core.raiseEvery; split
  · split
    · exact h.raise code p
    · exact h
  · exact h.raise code p

/-! Each field that an event leaves. -/

@[simp] theorem Core.raise_img (c : Core) (code p : Nat) : (c.raise code p).img = c.img := by
  obtain ⟨_, _, h⟩ := (Core.HostOnly.refl c).raise code p; rw [h]
@[simp] theorem Core.raise_md (c : Core) (code p : Nat) : (c.raise code p).md = c.md := by
  obtain ⟨_, _, h⟩ := (Core.HostOnly.refl c).raise code p; rw [h]
@[simp] theorem Core.raise_plumb (c : Core) (code p : Nat) : (c.raise code p).plumb = c.plumb := by
  obtain ⟨_, _, h⟩ := (Core.HostOnly.refl c).raise code p; rw [h]
@[simp] theorem Core.raise_spr (c : Core) (code p : Nat) : (c.raise code p).spr = c.spr := by
  obtain ⟨_, _, h⟩ := (Core.HostOnly.refl c).raise code p; rw [h]
@[simp] theorem Core.raise_cap (c : Core) (code p : Nat) : (c.raise code p).cap = c.cap := by
  obtain ⟨_, _, h⟩ := (Core.HostOnly.refl c).raise code p; rw [h]
@[simp] theorem Core.raise_fab (c : Core) (code p : Nat) : (c.raise code p).fab = c.fab := by
  obtain ⟨_, _, h⟩ := (Core.HostOnly.refl c).raise code p; rw [h]
@[simp] theorem Core.raise_wq (c : Core) (code p : Nat) : (c.raise code p).wq = c.wq := by
  obtain ⟨_, _, h⟩ := (Core.HostOnly.refl c).raise code p; rw [h]
@[simp] theorem Core.raise_prog (c : Core) (code p : Nat) : (c.raise code p).prog = c.prog := by
  obtain ⟨_, _, h⟩ := (Core.HostOnly.refl c).raise code p; rw [h]
@[simp] theorem Core.raise_lp (c : Core) (code p : Nat) : (c.raise code p).lp = c.lp := by
  obtain ⟨_, _, h⟩ := (Core.HostOnly.refl c).raise code p; rw [h]
@[simp] theorem Core.raise_mot (c : Core) (code p : Nat) : (c.raise code p).mot = c.mot := by
  obtain ⟨_, _, h⟩ := (Core.HostOnly.refl c).raise code p; rw [h]
@[simp] theorem Core.raise_ash (c : Core) (code p : Nat) : (c.raise code p).ash = c.ash := by
  obtain ⟨_, _, h⟩ := (Core.HostOnly.refl c).raise code p; rw [h]
@[simp] theorem Core.raise_ln (c : Core) (code p : Nat) : (c.raise code p).ln = c.ln := by
  obtain ⟨_, _, h⟩ := (Core.HostOnly.refl c).raise code p; rw [h]
@[simp] theorem Core.raise_mr (c : Core) (code p : Nat) : (c.raise code p).mr = c.mr := by
  obtain ⟨_, _, h⟩ := (Core.HostOnly.refl c).raise code p; rw [h]
@[simp] theorem Core.raise_up (c : Core) (code p : Nat) : (c.raise code p).up = c.up := by
  obtain ⟨_, _, h⟩ := (Core.HostOnly.refl c).raise code p; rw [h]
@[simp] theorem Core.raise_mem (c : Core) (code p : Nat) : (c.raise code p).mem = c.mem := by
  obtain ⟨_, _, h⟩ := (Core.HostOnly.refl c).raise code p; rw [h]
@[simp] theorem Core.raise_pw (c : Core) (code p : Nat) : (c.raise code p).pw = c.pw := by
  obtain ⟨_, _, h⟩ := (Core.HostOnly.refl c).raise code p; rw [h]
@[simp] theorem Core.raise_mirror (c : Core) (code p : Nat) : (c.raise code p).mirror = c.mirror := by
  obtain ⟨_, _, h⟩ := (Core.HostOnly.refl c).raise code p; rw [h]
@[simp] theorem Core.raise_out (c : Core) (code p : Nat) : (c.raise code p).out = c.out := by
  obtain ⟨_, _, h⟩ := (Core.HostOnly.refl c).raise code p; rw [h]
@[simp] theorem Core.raise_free (c : Core) (code p : Nat) : (c.raise code p).free = c.free := by
  obtain ⟨_, _, h⟩ := (Core.HostOnly.refl c).raise code p; rw [h]
@[simp] theorem Core.raiseIf_img (c : Core) (b : Bool) (code p : Nat) : (c.raiseIf b code p).img = c.img := by
  obtain ⟨_, _, h⟩ := (Core.HostOnly.refl c).raiseIf b code p; rw [h]
@[simp] theorem Core.raiseIf_md (c : Core) (b : Bool) (code p : Nat) : (c.raiseIf b code p).md = c.md := by
  obtain ⟨_, _, h⟩ := (Core.HostOnly.refl c).raiseIf b code p; rw [h]
@[simp] theorem Core.raiseIf_plumb (c : Core) (b : Bool) (code p : Nat) : (c.raiseIf b code p).plumb = c.plumb := by
  obtain ⟨_, _, h⟩ := (Core.HostOnly.refl c).raiseIf b code p; rw [h]
@[simp] theorem Core.raiseIf_spr (c : Core) (b : Bool) (code p : Nat) : (c.raiseIf b code p).spr = c.spr := by
  obtain ⟨_, _, h⟩ := (Core.HostOnly.refl c).raiseIf b code p; rw [h]
@[simp] theorem Core.raiseIf_cap (c : Core) (b : Bool) (code p : Nat) : (c.raiseIf b code p).cap = c.cap := by
  obtain ⟨_, _, h⟩ := (Core.HostOnly.refl c).raiseIf b code p; rw [h]
@[simp] theorem Core.raiseIf_fab (c : Core) (b : Bool) (code p : Nat) : (c.raiseIf b code p).fab = c.fab := by
  obtain ⟨_, _, h⟩ := (Core.HostOnly.refl c).raiseIf b code p; rw [h]
@[simp] theorem Core.raiseIf_wq (c : Core) (b : Bool) (code p : Nat) : (c.raiseIf b code p).wq = c.wq := by
  obtain ⟨_, _, h⟩ := (Core.HostOnly.refl c).raiseIf b code p; rw [h]
@[simp] theorem Core.raiseIf_prog (c : Core) (b : Bool) (code p : Nat) : (c.raiseIf b code p).prog = c.prog := by
  obtain ⟨_, _, h⟩ := (Core.HostOnly.refl c).raiseIf b code p; rw [h]
@[simp] theorem Core.raiseIf_lp (c : Core) (b : Bool) (code p : Nat) : (c.raiseIf b code p).lp = c.lp := by
  obtain ⟨_, _, h⟩ := (Core.HostOnly.refl c).raiseIf b code p; rw [h]
@[simp] theorem Core.raiseIf_mot (c : Core) (b : Bool) (code p : Nat) : (c.raiseIf b code p).mot = c.mot := by
  obtain ⟨_, _, h⟩ := (Core.HostOnly.refl c).raiseIf b code p; rw [h]
@[simp] theorem Core.raiseIf_ash (c : Core) (b : Bool) (code p : Nat) : (c.raiseIf b code p).ash = c.ash := by
  obtain ⟨_, _, h⟩ := (Core.HostOnly.refl c).raiseIf b code p; rw [h]
@[simp] theorem Core.raiseIf_ln (c : Core) (b : Bool) (code p : Nat) : (c.raiseIf b code p).ln = c.ln := by
  obtain ⟨_, _, h⟩ := (Core.HostOnly.refl c).raiseIf b code p; rw [h]
@[simp] theorem Core.raiseIf_mr (c : Core) (b : Bool) (code p : Nat) : (c.raiseIf b code p).mr = c.mr := by
  obtain ⟨_, _, h⟩ := (Core.HostOnly.refl c).raiseIf b code p; rw [h]
@[simp] theorem Core.raiseIf_up (c : Core) (b : Bool) (code p : Nat) : (c.raiseIf b code p).up = c.up := by
  obtain ⟨_, _, h⟩ := (Core.HostOnly.refl c).raiseIf b code p; rw [h]
@[simp] theorem Core.raiseIf_mem (c : Core) (b : Bool) (code p : Nat) : (c.raiseIf b code p).mem = c.mem := by
  obtain ⟨_, _, h⟩ := (Core.HostOnly.refl c).raiseIf b code p; rw [h]
@[simp] theorem Core.raiseIf_pw (c : Core) (b : Bool) (code p : Nat) : (c.raiseIf b code p).pw = c.pw := by
  obtain ⟨_, _, h⟩ := (Core.HostOnly.refl c).raiseIf b code p; rw [h]
@[simp] theorem Core.raiseIf_mirror (c : Core) (b : Bool) (code p : Nat) : (c.raiseIf b code p).mirror = c.mirror := by
  obtain ⟨_, _, h⟩ := (Core.HostOnly.refl c).raiseIf b code p; rw [h]
@[simp] theorem Core.raiseIf_out (c : Core) (b : Bool) (code p : Nat) : (c.raiseIf b code p).out = c.out := by
  obtain ⟨_, _, h⟩ := (Core.HostOnly.refl c).raiseIf b code p; rw [h]
@[simp] theorem Core.raiseIf_free (c : Core) (b : Bool) (code p : Nat) : (c.raiseIf b code p).free = c.free := by
  obtain ⟨_, _, h⟩ := (Core.HostOnly.refl c).raiseIf b code p; rw [h]
@[simp] theorem Core.raiseEvery_img (c : Core) (g : Time) (code p : Nat) : (c.raiseEvery g code p).img = c.img := by
  obtain ⟨_, _, h⟩ := (Core.HostOnly.refl c).raiseEvery g code p; rw [h]
@[simp] theorem Core.raiseEvery_md (c : Core) (g : Time) (code p : Nat) : (c.raiseEvery g code p).md = c.md := by
  obtain ⟨_, _, h⟩ := (Core.HostOnly.refl c).raiseEvery g code p; rw [h]
@[simp] theorem Core.raiseEvery_plumb (c : Core) (g : Time) (code p : Nat) : (c.raiseEvery g code p).plumb = c.plumb := by
  obtain ⟨_, _, h⟩ := (Core.HostOnly.refl c).raiseEvery g code p; rw [h]
@[simp] theorem Core.raiseEvery_spr (c : Core) (g : Time) (code p : Nat) : (c.raiseEvery g code p).spr = c.spr := by
  obtain ⟨_, _, h⟩ := (Core.HostOnly.refl c).raiseEvery g code p; rw [h]
@[simp] theorem Core.raiseEvery_cap (c : Core) (g : Time) (code p : Nat) : (c.raiseEvery g code p).cap = c.cap := by
  obtain ⟨_, _, h⟩ := (Core.HostOnly.refl c).raiseEvery g code p; rw [h]
@[simp] theorem Core.raiseEvery_fab (c : Core) (g : Time) (code p : Nat) : (c.raiseEvery g code p).fab = c.fab := by
  obtain ⟨_, _, h⟩ := (Core.HostOnly.refl c).raiseEvery g code p; rw [h]
@[simp] theorem Core.raiseEvery_wq (c : Core) (g : Time) (code p : Nat) : (c.raiseEvery g code p).wq = c.wq := by
  obtain ⟨_, _, h⟩ := (Core.HostOnly.refl c).raiseEvery g code p; rw [h]
@[simp] theorem Core.raiseEvery_prog (c : Core) (g : Time) (code p : Nat) : (c.raiseEvery g code p).prog = c.prog := by
  obtain ⟨_, _, h⟩ := (Core.HostOnly.refl c).raiseEvery g code p; rw [h]
@[simp] theorem Core.raiseEvery_lp (c : Core) (g : Time) (code p : Nat) : (c.raiseEvery g code p).lp = c.lp := by
  obtain ⟨_, _, h⟩ := (Core.HostOnly.refl c).raiseEvery g code p; rw [h]
@[simp] theorem Core.raiseEvery_mot (c : Core) (g : Time) (code p : Nat) : (c.raiseEvery g code p).mot = c.mot := by
  obtain ⟨_, _, h⟩ := (Core.HostOnly.refl c).raiseEvery g code p; rw [h]
@[simp] theorem Core.raiseEvery_ash (c : Core) (g : Time) (code p : Nat) : (c.raiseEvery g code p).ash = c.ash := by
  obtain ⟨_, _, h⟩ := (Core.HostOnly.refl c).raiseEvery g code p; rw [h]
@[simp] theorem Core.raiseEvery_ln (c : Core) (g : Time) (code p : Nat) : (c.raiseEvery g code p).ln = c.ln := by
  obtain ⟨_, _, h⟩ := (Core.HostOnly.refl c).raiseEvery g code p; rw [h]
@[simp] theorem Core.raiseEvery_mr (c : Core) (g : Time) (code p : Nat) : (c.raiseEvery g code p).mr = c.mr := by
  obtain ⟨_, _, h⟩ := (Core.HostOnly.refl c).raiseEvery g code p; rw [h]
@[simp] theorem Core.raiseEvery_up (c : Core) (g : Time) (code p : Nat) : (c.raiseEvery g code p).up = c.up := by
  obtain ⟨_, _, h⟩ := (Core.HostOnly.refl c).raiseEvery g code p; rw [h]
@[simp] theorem Core.raiseEvery_mem (c : Core) (g : Time) (code p : Nat) : (c.raiseEvery g code p).mem = c.mem := by
  obtain ⟨_, _, h⟩ := (Core.HostOnly.refl c).raiseEvery g code p; rw [h]
@[simp] theorem Core.raiseEvery_pw (c : Core) (g : Time) (code p : Nat) : (c.raiseEvery g code p).pw = c.pw := by
  obtain ⟨_, _, h⟩ := (Core.HostOnly.refl c).raiseEvery g code p; rw [h]
@[simp] theorem Core.raiseEvery_mirror (c : Core) (g : Time) (code p : Nat) : (c.raiseEvery g code p).mirror = c.mirror := by
  obtain ⟨_, _, h⟩ := (Core.HostOnly.refl c).raiseEvery g code p; rw [h]
@[simp] theorem Core.raiseEvery_out (c : Core) (g : Time) (code p : Nat) : (c.raiseEvery g code p).out = c.out := by
  obtain ⟨_, _, h⟩ := (Core.HostOnly.refl c).raiseEvery g code p; rw [h]
@[simp] theorem Core.raiseEvery_free (c : Core) (g : Time) (code p : Nat) : (c.raiseEvery g code p).free = c.free := by
  obtain ⟨_, _, h⟩ := (Core.HostOnly.refl c).raiseEvery g code p; rw [h]

@[simp] theorem Core.logEvent_plumb (c : Core) (code p : Nat) : (c.logEvent code p).2.plumb = c.plumb := by
  obtain ⟨_, _, h⟩ := (Core.HostOnly.refl c).logEvent code p; rw [h]
@[simp] theorem Core.deliver_plumb (r : EvRec) (l : List Sub) (c : Core) : (Core.deliver r l c).1.plumb = c.plumb := by
  obtain ⟨_, _, h⟩ := (Core.HostOnly.refl c).deliver r l; rw [h]

/-! The record that a raised event leaves (R833). -/

theorem lastEvent_congr (c d : Core) (h : c.host.lastEv = d.host.lastEv) (code p : Nat) : lastEvent c code p = lastEvent d code p := by
  unfold lastEvent; rw [h]

@[simp] theorem Core.lastEv_queueNotif (c : Core) (s : Sub) (n : Notif) : (c.queueNotif s n).1.host.lastEv = c.host.lastEv := by
  unfold Core.queueNotif; dsimp only; split <;> simp [Core.onSession]

@[simp] theorem Core.lastEv_deliver (r : EvRec) : ∀ (l : List Sub) (c : Core), (Core.deliver r l c).1.host.lastEv = c.host.lastEv
  | [], c => rfl
  | s :: l, c => by
    unfold Core.deliver
    split
    · dsimp only; rw [Core.lastEv_deliver r l]; simp
    · exact Core.lastEv_deliver r l c

theorem Core.lastEv_logEvent (c : Core) (code p : Nat) : (c.logEvent code p).2.host.lastEv =
    ((code, p), c.plumb.elapsed) :: c.host.lastEv.filter (fun e => e.1 != (code, p)) := by
  unfold Core.logEvent; dsimp only; split <;> simp

theorem lastEvent_logEvent (c : Core) (code p k q : Nat) : lastEvent (c.logEvent code p).2 k q =
    if (k, q) = (code, p) then some c.plumb.elapsed else lastEvent c k q := by
  unfold lastEvent
  rw [Core.lastEv_logEvent]
  by_cases h : (k, q) = (code, p)
  · rw [if_pos h, h]; simp
  · have hb : ((code, p) == (k, q)) = false := by
      rw [beq_eq_false_iff_ne]; exact fun h' => h h'.symm
    rw [if_neg h, List.find?_cons, hb]
    dsimp only
    rw [List.find?_filter]
    congr 2
    funext e
    by_cases he : e.1 = (k, q)
    · simp [he, h]
    · simp [he]

/-- An event raised is the last of its code on its path, at the present elapsed time. -/
@[simp] theorem lastEvent_raise (c : Core) (code p : Nat) : lastEvent (c.raise code p) code p = some c.plumb.elapsed := by
  unfold Core.raise
  dsimp only
  have key : ∀ (f : Nat) (l : List Nat) (d : Core), d.plumb.elapsed = c.plumb.elapsed → lastEvent d code p = some c.plumb.elapsed →
      lastEvent (Core.raiseLosses f l d) code p = some c.plumb.elapsed := by
    intro f
    induction f with
    | zero => intro l d _ h; unfold Core.raiseLosses; exact h
    | succ f ih =>
      intro l d h1 h2
      cases l with
      | nil => exact h2
      | cons s l =>
        show lastEvent (Core.raiseLosses f _ ((d.logEvent 0x0123 (path 1 3 s)).2.deliver (d.logEvent 0x0123 (path 1 3 s)).1
          (d.logEvent 0x0123 (path 1 3 s)).2.host.subs).1) code p = _
        refine ih _ _ ?_ ?_
        · simp only [Core.deliver_plumb, Core.logEvent_plumb]; exact h1
        · rw [lastEvent_congr _ _ (Core.lastEv_deliver _ _ _), lastEvent_logEvent]
          split
          · rw [h1]
          · exact h2
  refine key _ _ _ ?_ ?_
  · simp
  · rw [lastEvent_congr _ _ (Core.lastEv_deliver _ _ _), lastEvent_logEvent, if_pos rfl]

end Sys2Proof.Machine
end

