-- ==== Sys2Proof/Laws/Ops.lean ====
section
/-!
SUPPORT. Laws/Ops.lean: operand buffers and predicates read after they are written, and what one op of the table answers.
-/
namespace Sys2Proof.Machine

/-! ## A tile's words and predicates -/

theorem Tile.word_setWord (t : Tile) (i k : Nat) (v : Word) : (t.setWord i v).word k = if k = i then v else t.word k := by
  unfold Tile.word Tile.setWord Tile.base
  simp only [SMap.get_set]
  split
  · rename_i h; subst h; rw [BitVec.xor_assoc]; simp
  · rfl

@[simp] theorem Tile.word_setWord_self (t : Tile) (i : Nat) (v : Word) : (t.setWord i v).word i = v := by simp [Tile.word_setWord]

theorem Tile.word_setWord_ne (t : Tile) (i k : Nat) (v : Word) (h : k ≠ i) : (t.setWord i v).word k = t.word k := by
  simp [Tile.word_setWord, h]

theorem Tile.setWord_eq (t : Tile) (i : Nat) (v : Word) : t.setWord i v = { t with buf := (t.setWord i v).buf } := rfl

/-- A 64-bit value is its two halves. -/
theorem append_halves (v : BitVec 64) : (v >>> 32).setWidth 32 ++ v.setWidth 32 = v := by
  apply BitVec.eq_of_getLsbD_eq
  intro k hk
  simp only [BitVec.getLsbD_append, BitVec.getLsbD_setWidth, BitVec.getLsbD_ushiftRight]
  by_cases h : k < 32
  · simp [h]
  · have : k - 32 < 32 := by omega
    have e : 32 + (k - 32) = k := by omega
    simp [h, this, e]

theorem Tile.setDword_eq (t : Tile) (i : Nat) (v : DWord) : t.setDword i v = { t with buf := (t.setDword i v).buf } := rfl

@[simp] theorem Tile.dword_setDword_self (t : Tile) (i : Nat) (v : DWord) : (t.setDword i v).dword i = v := by
  unfold Tile.dword Tile.setDword
  rw [Tile.word_setWord_self, Tile.word_setWord_ne _ _ _ _ (by omega), Tile.word_setWord_self]
  exact append_halves v

theorem Tile.word_setDword_ne (t : Tile) (i k : Nat) (v : DWord) (h : k ≠ i) (h1 : k ≠ i + 1) : (t.setDword i v).word k = t.word k := by
  unfold Tile.setDword
  rw [Tile.word_setWord_ne _ _ _ _ h1, Tile.word_setWord_ne _ _ _ _ h]

theorem Tile.pred_setPred (t : Tile) (i k : Nat) (b : Bool) (hi : i < 16) : (t.setPred i b).pred k = if k = i then b else t.pred k := by
  unfold Tile.pred Tile.setPred
  by_cases hk : k < 16
  · have hs : (1#16 <<< i).getLsbD k = decide (k = i) := by
      simp only [BitVec.getLsbD_shiftLeft, BitVec.getLsbD_one]
      by_cases h : k = i
      · subst h; simp [hk]
      · by_cases h2 : k < i <;> simp [h, h2, hk]
        omega
    by_cases h : k = i
    · subst h; cases b <;> simp [hk]
    · cases b
      · rw [if_neg h, if_neg (by decide), BitVec.getLsbD_and, BitVec.getLsbD_not, hs]; simp [h, hk]
      · rw [if_neg h, if_pos rfl, BitVec.getLsbD_or, hs]; simp [h]
  · have h : k ≠ i := by omega
    rw [if_neg h, BitVec.getLsbD_of_ge _ k (by omega), BitVec.getLsbD_of_ge t.preds k (by omega)]

theorem Tile.setPred_eq (t : Tile) (i : Nat) (b : Bool) : t.setPred i b = { t with preds := (t.setPred i b).preds } := rfl

/-! ## One op -/

@[simp] theorem Core.countOp_tile (c : Core) (t : Nat) : (c.countOp t).tile t = { c.tile t with ops := (c.tile t).ops + 1 } := by
  simp [Core.countOp]

theorem Core.countOp_tile_ne (c : Core) (t u : Nat) (h : u ≠ t) : (c.countOp t).tile u = c.tile u := by
  simp [Core.countOp, Core.onTile_tile_ne, h]

/-- What one op answers: counted, and its effect where COND is met. -/
theorem opCmd_next (op : Nat) (f : Nat → OpWord → Core → Core) (t : Fin 16) (o : OpWord) (s : State) (h : opOk op o = true)
    (hc : (s.dev.core.tile t).condMet o = true) :
    opCmd op f t o s = .next { s with dev := { s.dev with core := f t.val o (s.dev.core.quiet.countOp t.val) } } := by
  have : (s.dev.core.quiet.tile t.val).condMet o = true := hc
  simp [opCmd, h, coreCmd, this]

theorem opCmd_skip (op : Nat) (f : Nat → OpWord → Core → Core) (t : Fin 16) (o : OpWord) (s : State) (h : opOk op o = true)
    (hc : (s.dev.core.tile t).condMet o = false) :
    opCmd op f t o s = .next { s with dev := { s.dev with core := s.dev.core.quiet.countOp t.val } } := by
  have : (s.dev.core.quiet.tile t.val).condMet o = false := hc
  simp [opCmd, h, coreCmd, this]

theorem opCmd_refused (op : Nat) (f : Nat → OpWord → Core → Core) (t : Fin 16) (o : OpWord) (s : State) (h : opOk op o = false) :
    opCmd op f t o s = .refused .illFormedOp := by simp [opCmd, h]

/-- An op on its tile changes that tile alone. -/
theorem onTileOp_tile (f : OpWord → Tile → Tile) (t : Nat) (o : OpWord) (c : Core) :
    (onTileOp f t o (c.countOp t)).tile t = f o { c.tile t with ops := (c.tile t).ops + 1 } := by
  simp [onTileOp]

theorem onTileOp_tile_ne (f : OpWord → Tile → Tile) (t u : Nat) (o : OpWord) (c : Core) (h : u ≠ t) :
    (onTileOp f t o (c.countOp t)).tile u = c.tile u := by
  simp [onTileOp, Core.onTile_tile_ne, h, Core.countOp_tile_ne]

theorem onTileOp_frame (f : OpWord → Tile → Tile) (t : Nat) (o : OpWord) (c : Core) :
    onTileOp f t o (c.quiet.countOp t) = { c with out := [], fab := (onTileOp f t o (c.quiet.countOp t)).fab } := rfl

theorem onTileFree_tile (f : (Nat → Word) → OpWord → Tile → Tile) (t : Nat) (o : OpWord) (c : Core) :
    (onTileFree f t o (c.countOp t)).tile t =
      f (fun i => Config.freeWord (c.free + i)) o { c.tile t with ops := (c.tile t).ops + 1 } := by
  have h : (onTileFree f t o (c.countOp t)).tile t = ((c.countOp t).onTile t (f (fun i => Config.freeWord ((c.countOp t).free + i)) o)).tile t := rfl
  rw [h, Core.onTile_tile, Core.countOp_tile]
  rfl

theorem onTileFree_tile_ne (f : (Nat → Word) → OpWord → Tile → Tile) (t u : Nat) (o : OpWord) (c : Core) (h : u ≠ t) :
    (onTileFree f t o (c.countOp t)).tile u = c.tile u := by
  have h1 : (onTileFree f t o (c.countOp t)).tile u = ((c.countOp t).onTile t (f (fun i => Config.freeWord ((c.countOp t).free + i)) o)).tile u := rfl
  rw [h1, Core.onTile_tile_ne _ _ _ _ h, Core.countOp_tile_ne _ _ _ h]

/-- A latch changes Tarn 1 and what the next latch compares with, and nothing else. -/
theorem Core.latchm_only (c : Core) (m a : Nat) :
    ∃ p, c.latchm m a = { c with mem := { c.mem with tarn1 := c.latched m a }, prog := p } := ⟨_, rfl⟩

end Sys2Proof.Machine
end

