-- ==== Sys2Proof/Safety.lean ====
section
/-!
DEFINITION. Safety.lean: what a safe run is, and the terms in which the statements speak: a request that is admitted and answered, an
event raised, and what a command leaves unchanged.
-/
namespace Sys2Proof.Machine

/-- A step that ends in a state. -/
def Completes (s : State) : Prop := ∃ t, step s = .next t

/-- No command of a run stops. -/
def SafeRun : Nat → State → Prop
  | 0, _ => True
  | k + 1, s => ∃ t, step s = .next t ∧ SafeRun k t

/-- Both channels of every safe output are off. -/
def Island.safeOff (i : Island) : Prop := ∀ n, n < 8 → (i.fn n).pinP = false ∧ (i.fn n).pinW = false

/-- A locked island drives no safe output (R764). -/
def Island.safe (i : Island) : Prop := i.locked = true → i.safeOff

/-! ## What a command leaves -/

/-- Nothing changes but the core: the queue and the island stay. -/
def CoreOnly (s s' : State) : Prop := s'.pending = s.pending ∧ s'.dev.isl = s.dev.isl

/-- Nothing changes but one tile and the outputs of the last command. -/
def TileOnly (s s' : State) (t : Nat) : Prop :=
  CoreOnly s s' ∧ (∃ f, s'.dev.core = { s.dev.core with out := [], fab := f }) ∧
    ∀ u, u ≠ t → s'.dev.core.tile u = s.dev.core.tile u

/-- The same, where the op may also take free values. -/
def TileFree (s s' : State) (t : Nat) : Prop :=
  CoreOnly s s' ∧ (∃ f n, s'.dev.core = { s.dev.core with out := [], fab := f, free := n }) ∧
    ∀ u, u ≠ t → s'.dev.core.tile u = s.dev.core.tile u

/-- Of tile t the operand buffer alone changes, in the words of a list, and one op is counted. -/
def WordsOnly (s s' : State) (t : Nat) (l : List Nat) : Prop :=
  (∃ b, s'.dev.core.tile t = { s.dev.core.tile t with buf := b, ops := (s.dev.core.tile t).ops + 1 }) ∧
    ∀ i, i ∉ l → (s'.dev.core.tile t).word i = (s.dev.core.tile t).word i

/-- Of tile t predicate k alone takes a value, and one op is counted. -/
def PredOnly (s s' : State) (t k : Nat) (b : Bool) : Prop :=
  (∃ p, s'.dev.core.tile t = { s.dev.core.tile t with preds := p, ops := (s.dev.core.tile t).ops + 1 }) ∧
    (s'.dev.core.tile t).pred k = b ∧ ∀ i, i ≠ k → (s'.dev.core.tile t).pred i = (s.dev.core.tile t).pred i

/-! ## What a command leaves, part by part -/

/-- The parts of the core. -/
inductive Part where
  | regs | img | host | md | plumb | spr | cap | fab | wq | prog | lp | mot | ash | ln | mr | up | mem | pw | mirror | out | free
  deriving DecidableEq, Repr

/-- Two cores agree in a part. -/
def Part.same (c d : Core) : Part → Prop
  | .regs => d.regs = c.regs
  | .img => d.img = c.img
  | .host => d.host = c.host
  | .md => d.md = c.md
  | .plumb => d.plumb = c.plumb
  | .spr => d.spr = c.spr
  | .cap => d.cap = c.cap
  | .fab => d.fab = c.fab
  | .wq => d.wq = c.wq
  | .prog => d.prog = c.prog
  | .lp => d.lp = c.lp
  | .mot => d.mot = c.mot
  | .ash => d.ash = c.ash
  | .ln => d.ln = c.ln
  | .mr => d.mr = c.mr
  | .up => d.up = c.up
  | .mem => d.mem = c.mem
  | .pw => d.pw = c.pw
  | .mirror => d.mirror = c.mirror
  | .out => d.out = c.out
  | .free => d.free = c.free

/-- The queue and the island stay, and so does every part of the core outside a list; the outputs of the last command go. -/
def Touches (l : List Part) (s s' : State) : Prop :=
  s'.pending = s.pending ∧ s'.dev.isl = s.dev.isl ∧ ∀ p, p ∉ .out :: l → p.same s.dev.core s'.dev.core

/-- Registers that events and host access keep for themselves: status and event word of a block header (R36, R37), and the counters of
the sessions of a channel or of a subscription (R206, R227). -/
def Core.Booked (c : Core) (a : Nat) : Prop :=
  (∃ b, b < 16 ∧ (a = b * 0x10000 + 4 ∨ a = b * 0x10000 + 8)) ∨
    ∃ n, (n < 16 ∨ n ∈ c.host.subs.map Sub.sess) ∧ (a = A.HA_SESS_REQS + 0x20 * n ∨ a = A.HA_SESS_LOST + 0x20 * n)

/-- No register changes but those of a list and those that events and host access keep. -/
def RegsBut (l : List Nat) (s s' : State) : Prop :=
  ∀ a, a ∉ l → ¬ s.dev.core.Booked a → s'.dev.core.reg a = s.dev.core.reg a

/-- Ashlar's state but for the frames that are built and have not left (R615). -/
def Ashlar.BuiltOnly (x y : Ashlar) : Prop :=
  ∃ l, y = { x with ports := l } ∧ ∀ p, ∃ b, SMap.get {} l p = { SMap.get {} x.ports p with built := b }

/-- A Lintel port but for what sending changes: what waits, what is being sent, and the bulk share (R658). -/
def LnPort.SendsOnly (x y : LnPort) : Prop := ∃ w b f k, y = { x with waiting := w, busy := b, bulkFrom := f, bulkBytes := k }

/-- The pair's state but for what sending changes: what waits, what is being sent, and the epoch last sent whole (R690, R696). -/
def Mortar.SendsOnly (x y : Mortar) : Prop := ∃ w b e, y = { x with waiting := w, busy := b, epoch := e }

/-- A frame of a type with these words waits for a Lintel port, or has just gone over its unit. -/
def Core.LnSent (c : Core) (u type : Nat) (ws : List Nat) : Prop :=
  (∃ f ∈ (c.lnPort u).waiting, f.type = type ∧ f.words = ws) ∨ ∃ et n, .lintel u et type n ws ∈ c.out

/-- A frame of this content waits for MOR, or has just gone over it. -/
def Core.MorSent (c : Core) (m : MorMsg) : Prop := (∃ f ∈ c.mr.waiting, f.msg = m) ∨ ∃ et k, .mor et k m ∈ c.out

/-! ## The ops of the fabric -/

/-- Opcodes and commands of the op set, part 1 (R242). -/
def allOps1 : List (Nat × (Fin 16 → OpWord → Instr)) :=
  [(0x00, .opNop), (0x01, .opAdd), (0x02, .opSub), (0x03, .opMul), (0x04, .opMulh), (0x05, .opDivs), (0x06, .opDivu),
   (0x07, .opRems), (0x08, .opShl), (0x09, .opShrs), (0x0A, .opShru), (0x0B, .opCmpeq), (0x0C, .opCmplt), (0x0D, .opCmpltu),
   (0x0E, .opMin), (0x0F, .opMax), (0x10, .opAbs), (0x11, .opMov), (0x12, .opLdi), (0x13, .opSel), (0x14, .opLdx),
   (0x15, .opStx), (0x20, .opAdd64), (0x21, .opSub64), (0x22, .opMul64), (0x23, .opDiv64s), (0x24, .opDiv64u), (0x25, .opShl64)]

/-- Opcodes and commands of the op set, part 2 (R242). -/
def allOps2 : List (Nat × (Fin 16 → OpWord → Instr)) :=
  [(0x26, .opShrs64), (0x27, .opShru64), (0x28, .opCmp64eq), (0x29, .opCmp64lt), (0x2A, .opCmp64ltu), (0x2B, .opSext),
   (0x40, .opVmac), (0x41, .opVmul), (0x42, .opVadd), (0x43, .opVsat), (0x60, .opFadd), (0x61, .opFsub), (0x62, .opFmul),
   (0x63, .opFmac), (0x64, .opFdiv), (0x65, .opFsqrt), (0x66, .opFcmpeq), (0x67, .opFcmplt), (0x68, .opFtoi), (0x69, .opItof),
   (0x6A, .opFmin), (0x6B, .opFmax), (0x6C, .opFabs), (0x80, .opAnd), (0x81, .opOr), (0x82, .opXor), (0x83, .opNot),
   (0x84, .opBset)]

/-- Opcodes and commands of the op set, part 3 (R242). -/
def allOps3 : List (Nat × (Fin 16 → OpWord → Instr)) :=
  [(0x85, .opBclr), (0x86, .opBtst), (0x87, .opPset), (0x88, .opPand), (0x89, .opPor), (0x8A, .opPnot), (0xA0, .opTon),
   (0xA1, .opTof), (0xA2, .opTp), (0xA3, .opRtrig), (0xA4, .opFtrig), (0xB0, .opTrd1), (0xB1, .opTwr1), (0xB2, .opTrdt),
   (0xB3, .opTwrt), (0xB4, .opTrdx), (0xC0, .opLatchm), (0xC1, .opCmtout), (0xC2, .opCmtlp), (0xC3, .opCmtax), (0xD0, .opWrdy),
   (0xD1, .opWcan), (0xD2, .opWrel), (0xD3, .opEvt)]

/-- The 80 ops of R242. -/
def allOps : List (Nat × (Fin 16 → OpWord → Instr)) := allOps1 ++ allOps2 ++ allOps3

/-- Element i of a Q15 vector at a word index (R838). -/
def Tile.q15 (t : Tile) (x i : Nat) : Int :=
  sx 16 (if i % 2 = 0 then bits (t.word (x + i / 2)) 15 0 else bits (t.word (x + i / 2)) 31 16)

/-- A tile with one op counted and an entry issued: to the commit buffer, or to the output commit of its work item (R244, R281). -/
def Tile.issued (x : Tile) (g : CommitTarget) (vals : List Word) : Tile :=
  match x.run with
  | some r => { x with ops := x.ops + 1, run := some { r with entries := r.entries ++ [{ target := g, vals := vals, item := some r.item }] } }
  | none => { x with ops := x.ops + 1, commit := x.commit ++ [{ target := g, vals := vals }] }

/-- No tile has an open SLACK window, so that no item is dispatched (R277). -/
def Core.NoSlack (c : Core) : Prop := ∀ t, t < 16 → (c.tile t).slackEnd = none

/-! ## Requests and events -/

/-- A datagram of a type that SVC or the chain brings and whose header passes (R162, R168). -/
def Core.Takes (c : Core) (type : Nat) (d : Dgram) : Prop := (c.netIn d).2 = true ∧ headerOk type d = true

/-- A request that the device admits (R129, R173, R189, R190): it is not held in reset and not in Recovery, the session is open with a
role that suffices, the request number is new, and the response fits the session's sequence numbers (R182). -/
def Core.Asks (c : Core) (sess req : Nat) (need : Role) : Prop :=
  sess < 16 ∧ c.md.held = false ∧ c.md.mode ≠ .recovery ∧ (c.session sess).st = .open ∧ roleNum need ≤ roleNum (c.session sess).role ∧
    (c.host.held.any fun h => h.sess == sess && h.req == req) = false ∧ (c.session sess).cache.find? (fun e => e.1 == req) = none ∧
    (c.session sess).txSeq + 16 ≤ 2 ^ 48

/-- A request that may write (R129): admitted with OPERATE, outside Minimal. -/
def Core.MayWrite (c : Core) (sess req : Nat) : Prop := c.Asks sess req .operate ∧ c.md.mode ≠ .minimal

/-- The last output is the response of a request. -/
def Core.Answered (c : Core) (sess req op status : Nat) (body : List Nat) : Prop :=
  c.out.getLast? = some (.resp sess req (op + 0x80) status body)

/-- A write of one register that the device takes: answered OK, and beside host access only the parts and registers of two lists change. -/
def Accepted (s s' : State) (sess req : Nat) (l : List Part) (rs : List Nat) : Prop :=
  Touches (.host :: .regs :: l) s s' ∧ RegsBut rs s s' ∧ s'.dev.core.Answered sess req 2 0 [1, 0]

/-- An event of a code was raised on a path at the present instant (R16, R833). -/
def Core.Raised (c : Core) (code p : Nat) : Prop := lastEvent c code p = some c.plumb.elapsed

end Sys2Proof.Machine
end

