-- ==== Sys2Proof/Certificates/Slice0/Obligations.lean ====
section
/-!
DEFINITION. Certificates/Slice0/Obligations.lean: the statements for the provers.
-/
open Sys2Proof Sys2Proof.Machine

/-- For every command c, queue and state, step with c at the front of the queue is exec of c on the state with the queue's rest, and step on an
empty queue answers the state as it is (log entry 3). (00_scope.md, 95_what_each_step_holds.md) -/
def Obligations.StepTakesTheFront : Prop :=
  (∀ (c : Instr) (rest : List Instr) (s : State), step { s with pending := c :: rest } = exec c { s with pending := rest }) ∧
    ∀ s : State, s.pending = [] → step s = .next s

/-- From every state, a step that answers a next state leaves exactly the rest of the queue: no command adds to it or drops from it.
(00_scope.md, 95_what_each_step_holds.md) -/
def Obligations.QueueIsFifo : Prop :=
  ∀ s t : State, step s = .next t → t.pending = s.pending.tail

/-- For every one of these ops with an admissible op word whose COND is met, exec answers a next state in which the word DST is the result of
the words A and B, every other word, predicate and tile is as before, one op is counted, and nothing outside the tile changes but the
outputs. (05_fabric_and_compiler_contract.md R242, 05_fabric_and_compiler_contract.md R237) -/
def Obligations.WordOpsResult : Prop :=
  ∀ p ∈ ([(0x01, .opAdd, fun a b => a + b), (0x02, .opSub, fun a b => a - b), (0x03, .opMul, fun a b => a * b),
    (0x04, .opMulh, fun a b => BitVec.ofInt 32 (a.toInt * b.toInt / 2 ^ 32)),
    (0x08, .opShl, fun a b => a <<< (b.toNat % 32)), (0x09, .opShrs, fun a b => a.sshiftRight (b.toNat % 32)),
    (0x0A, .opShru, fun a b => a >>> (b.toNat % 32)), (0x0E, .opMin, fun a b => if a.toInt ≤ b.toInt then a else b),
    (0x0F, .opMax, fun a b => if a.toInt ≤ b.toInt then b else a), (0x80, .opAnd, fun a b => a &&& b),
    (0x81, .opOr, fun a b => a ||| b), (0x82, .opXor, fun a b => a ^^^ b)] :
      List (Nat × (Fin 16 → OpWord → Instr) × (Word → Word → Word))),
    ∀ (s : State) (t : Fin 16) (o : OpWord), opOk p.1 o = true → (s.dev.core.tile t).condMet o = true →
      ∃ s', exec (p.2.1 t o) s = .next s' ∧ TileOnly s s' t ∧ WordsOnly s s' t [o.dst.toNat] ∧
        (s'.dev.core.tile t).word o.dst.toNat =
          p.2.2 ((s.dev.core.tile t).word o.a.toNat) ((s.dev.core.tile t).word o.b.toNat)

/-- DIVS, DIVU and REMS complete on every operand: by zero with the values of R243, the most negative value by −1 with itself, otherwise with
the quotient or remainder truncated toward zero (the direction of rounding is log entry 26), and change nothing else.
(05_fabric_and_compiler_contract.md R243, 05_fabric_and_compiler_contract.md R242) -/
def Obligations.DivisionResult : Prop :=
  ∀ (s : State) (t : Fin 16) (o : OpWord), (s.dev.core.tile t).condMet o = true →
    let a := (s.dev.core.tile t).word o.a.toNat
    let b := (s.dev.core.tile t).word o.b.toNat
    (opOk 0x05 o = true → ∃ s', exec (.opDivs t o) s = .next s' ∧ TileOnly s s' t ∧ WordsOnly s s' t [o.dst.toNat] ∧
      (s'.dev.core.tile t).word o.dst.toNat =
        (if b = 0 then (if a = 0 then 0 else if 0 < a.toInt then 0x7FFFFFFF else 0x80000000)
         else if a = 0x80000000 ∧ b = 0xFFFFFFFF then 0x80000000 else BitVec.ofInt 32 (a.toInt.tdiv b.toInt))) ∧
    (opOk 0x06 o = true → ∃ s', exec (.opDivu t o) s = .next s' ∧ TileOnly s s' t ∧ WordsOnly s s' t [o.dst.toNat] ∧
      (s'.dev.core.tile t).word o.dst.toNat = (if b = 0 then 0xFFFFFFFF else a / b)) ∧
    (opOk 0x07 o = true → ∃ s', exec (.opRems t o) s = .next s' ∧ TileOnly s s' t ∧ WordsOnly s s' t [o.dst.toNat] ∧
      (s'.dev.core.tile t).word o.dst.toNat = (if b = 0 then a else BitVec.ofInt 32 (a.toInt.tmod b.toInt)))

/-- For all 80 ops: with an admissible op word whose COND is not met, exec answers a next state in which the op is counted (log entry 24) and
the outputs of the last command are gone, and everything else is as before. (05_fabric_and_compiler_contract.md R239) -/
def Obligations.CondNotMetDoesNothing : Prop :=
  ∀ p ∈ allOps, ∀ (s : State) (t : Fin 16) (o : OpWord), opOk p.1 o = true → (s.dev.core.tile t).condMet o = false →
    exec (p.2 t o) s = .next { s with dev := { s.dev with core := s.dev.core.quiet.countOp t } }

/-- For all 80 ops: an op word with COND 3, an odd index where R837 requires an even one, or a field outside the ranges of R836, R839 and R840
is refused with illFormedOp, since no image holds it (log entry 28). (05_fabric_and_compiler_contract.md R836,
05_fabric_and_compiler_contract.md R837, 05_fabric_and_compiler_contract.md R839) -/
def Obligations.IllFormedOpsAreRefused : Prop :=
  ∀ p ∈ allOps, ∀ (s : State) (t : Fin 16) (o : OpWord),
    (opOk p.1 o = false → exec (p.2 t o) s = .refused .illFormedOp) ∧ (o.cond = 3 → opOk p.1 o = false)

/-- CMPEQ to CMPLTU, CMP64EQ to CMP64LTU, PSET, PAND, POR, PNOT write predicate IMM and BTST predicate PRED with the value of R242; words, other
predicates and everything outside the tile stay. (05_fabric_and_compiler_contract.md R242, 05_fabric_and_compiler_contract.md R836) -/
def Obligations.ComparesWritePredicates : Prop :=
  ∀ p ∈ ([(0x0B, .opCmpeq, fun x o => decide (x.word o.a.toNat = x.word o.b.toNat)),
      (0x0C, .opCmplt, fun x o => (x.word o.a.toNat).slt (x.word o.b.toNat)),
      (0x0D, .opCmpltu, fun x o => (x.word o.a.toNat).ult (x.word o.b.toNat)),
      (0x28, .opCmp64eq, fun x o => decide (x.dword o.a.toNat = x.dword o.b.toNat)),
      (0x29, .opCmp64lt, fun x o => (x.dword o.a.toNat).slt (x.dword o.b.toNat)),
      (0x2A, .opCmp64ltu, fun x o => (x.dword o.a.toNat).ult (x.dword o.b.toNat)),
      (0x87, .opPset, fun x o => decide (x.word o.a.toNat ≠ 0)),
      (0x88, .opPand, fun x o => x.pred o.a.toNat && x.pred o.b.toNat),
      (0x89, .opPor, fun x o => x.pred o.a.toNat || x.pred o.b.toNat),
      (0x8A, .opPnot, fun x o => !x.pred o.a.toNat)] :
      List (Nat × (Fin 16 → OpWord → Instr) × (Tile → OpWord → Bool))),
    ∀ (s : State) (t : Fin 16) (o : OpWord), (s.dev.core.tile t).condMet o = true →
      (opOk p.1 o = true → ∃ s', exec (p.2.1 t o) s = .next s' ∧ TileOnly s s' t ∧
        PredOnly s s' t o.imm.toNat (p.2.2 (s.dev.core.tile t) o)) ∧
      (opOk 0x86 o = true → ∃ s', exec (.opBtst t o) s = .next s' ∧ TileOnly s s' t ∧
        PredOnly s s' t o.pred.toNat (((s.dev.core.tile t).word o.a.toNat).getLsbD o.imm.toNat))

/-- Each writes its one word with the value of R242 and changes nothing else: LDX reads 0 and STX writes nothing at an index outside the buffer;
ABS of the most negative word writes some word; NOP writes nothing. (05_fabric_and_compiler_contract.md R242,
05_fabric_and_compiler_contract.md R839) -/
def Obligations.MovesAndBitOps : Prop :=
  (∀ p ∈ ([(0x11, .opMov, fun x o => x.word o.a.toNat), (0x12, .opLdi, fun _ o => o.addr),
      (0x13, .opSel, fun x o => if x.pred o.pred.toNat then x.word o.a.toNat else x.word o.b.toNat),
      (0x14, .opLdx, fun x o => if (x.word o.a.toNat + o.imm.setWidth 32).toNat < 16384 then
        x.word (x.word o.a.toNat + o.imm.setWidth 32).toNat else 0),
      (0x83, .opNot, fun x o => ~~~ x.word o.a.toNat),
      (0x84, .opBset, fun x o => x.word o.a.toNat ||| BitVec.twoPow 32 o.imm.toNat),
      (0x85, .opBclr, fun x o => x.word o.a.toNat &&& ~~~ BitVec.twoPow 32 o.imm.toNat)] :
      List (Nat × (Fin 16 → OpWord → Instr) × (Tile → OpWord → Word))),
    ∀ (s : State) (t : Fin 16) (o : OpWord), opOk p.1 o = true → (s.dev.core.tile t).condMet o = true →
      ∃ s', exec (p.2.1 t o) s = .next s' ∧ TileOnly s s' t ∧ WordsOnly s s' t [o.dst.toNat] ∧
        (s'.dev.core.tile t).word o.dst.toNat = p.2.2 (s.dev.core.tile t) o) ∧
  (∀ (s : State) (t : Fin 16) (o : OpWord), (s.dev.core.tile t).condMet o = true →
    let x := s.dev.core.tile t
    let i := (x.word o.a.toNat + o.imm.setWidth 32).toNat
    (opOk 0x15 o = true → ∃ s', exec (.opStx t o) s = .next s' ∧ TileOnly s s' t ∧
      WordsOnly s s' t (if i < 16384 then [i] else []) ∧ (i < 16384 → (s'.dev.core.tile t).word i = x.word o.b.toNat)) ∧
    (opOk 0x10 o = true → ∃ s', exec (.opAbs t o) s = .next s' ∧ TileFree s s' t ∧ WordsOnly s s' t [o.dst.toNat] ∧
      (x.word o.a.toNat ≠ 0x80000000 → (s'.dev.core.tile t).word o.dst.toNat =
        (if (x.word o.a.toNat).msb then - x.word o.a.toNat else x.word o.a.toNat))) ∧
    (opOk 0x00 o = true → ∃ s', exec (.opNop t o) s = .next s' ∧ TileOnly s s' t ∧ WordsOnly s s' t []))

/-- ADD64, SUB64, MUL64, DIV64S, DIV64U, SHL64, SHRS64, SHRU64 and SEXT write the 64-bit result in the words DST (low) and DST + 1 (high) and
change nothing else; division by zero gives the values of R243. (05_fabric_and_compiler_contract.md R242, 05_fabric_and_compiler_contract.md
R243, 05_fabric_and_compiler_contract.md R837) -/
def Obligations.DoubleWordOps : Prop :=
  ∀ p ∈ ([(0x20, .opAdd64, fun x o => x.dword o.a.toNat + x.dword o.b.toNat),
      (0x21, .opSub64, fun x o => x.dword o.a.toNat - x.dword o.b.toNat),
      (0x22, .opMul64, fun x o => x.dword o.a.toNat * x.dword o.b.toNat),
      (0x23, .opDiv64s, fun x o => if x.dword o.b.toNat = 0 then
          (if x.dword o.a.toNat = 0 then 0 else if 0 < (x.dword o.a.toNat).toInt then 0x7FFFFFFFFFFFFFFF else 0x8000000000000000)
        else BitVec.ofInt 64 ((x.dword o.a.toNat).toInt.tdiv (x.dword o.b.toNat).toInt)),
      (0x24, .opDiv64u, fun x o => if x.dword o.b.toNat = 0 then 0xFFFFFFFFFFFFFFFF else x.dword o.a.toNat / x.dword o.b.toNat),
      (0x25, .opShl64, fun x o => x.dword o.a.toNat <<< ((x.word o.b.toNat).toNat % 64)),
      (0x26, .opShrs64, fun x o => (x.dword o.a.toNat).sshiftRight ((x.word o.b.toNat).toNat % 64)),
      (0x27, .opShru64, fun x o => x.dword o.a.toNat >>> ((x.word o.b.toNat).toNat % 64)),
      (0x2B, .opSext, fun x o => (x.word o.a.toNat).signExtend 64)] :
      List (Nat × (Fin 16 → OpWord → Instr) × (Tile → OpWord → DWord))),
    ∀ (s : State) (t : Fin 16) (o : OpWord), opOk p.1 o = true → (s.dev.core.tile t).condMet o = true →
      ∃ s', exec (p.2.1 t o) s = .next s' ∧ TileOnly s s' t ∧ WordsOnly s s' t [o.dst.toNat, o.dst.toNat + 1] ∧
        (s'.dev.core.tile t).dword o.dst.toNat = p.2.2 (s.dev.core.tile t) o

/-- FADD, FSUB, FMUL, FDIV, FMIN, FMAX, FMAC, FSQRT, FABS, FTOI and ITOF write the word DST with the binary32 result and FCMPEQ and FCMPLT
predicate IMM, and change nothing else. (05_fabric_and_compiler_contract.md R242, 05_fabric_and_compiler_contract.md R243) -/
def Obligations.FloatOpsResult : Prop :=
  (∀ p ∈ ([(0x60, .opFadd, fun x o => f32add (x.word o.a.toNat) (x.word o.b.toNat)),
      (0x61, .opFsub, fun x o => f32sub (x.word o.a.toNat) (x.word o.b.toNat)),
      (0x62, .opFmul, fun x o => f32mul (x.word o.a.toNat) (x.word o.b.toNat)),
      (0x63, .opFmac, fun x o => f32mac (x.word o.dst.toNat) (x.word o.a.toNat) (x.word o.b.toNat)),
      (0x64, .opFdiv, fun x o => f32div (x.word o.a.toNat) (x.word o.b.toNat)),
      (0x65, .opFsqrt, fun x o => f32sqrt (x.word o.a.toNat)),
      (0x68, .opFtoi, fun x o => (fp32 (x.word o.a.toNat)).toInt32),
      (0x69, .opItof, fun x o => f32ofInt (x.word o.a.toNat)),
      (0x6A, .opFmin, fun x o => toF32 ((fp32 (x.word o.a.toNat)).minNum (fp32 (x.word o.b.toNat)))),
      (0x6B, .opFmax, fun x o => toF32 ((fp32 (x.word o.a.toNat)).maxNum (fp32 (x.word o.b.toNat)))),
      (0x6C, .opFabs, fun x o => toF32 (fp32 (x.word o.a.toNat &&& 0x7FFFFFFF)))] :
      List (Nat × (Fin 16 → OpWord → Instr) × (Tile → OpWord → Word))),
    ∀ (s : State) (t : Fin 16) (o : OpWord), opOk p.1 o = true → (s.dev.core.tile t).condMet o = true →
      ∃ s', exec (p.2.1 t o) s = .next s' ∧ TileOnly s s' t ∧ WordsOnly s s' t [o.dst.toNat] ∧
        (s'.dev.core.tile t).word o.dst.toNat = p.2.2 (s.dev.core.tile t) o) ∧
  (∀ (s : State) (t : Fin 16) (o : OpWord), (s.dev.core.tile t).condMet o = true →
    let a := fp32 ((s.dev.core.tile t).word o.a.toNat)
    let b := fp32 ((s.dev.core.tile t).word o.b.toNat)
    (opOk 0x66 o = true → ∃ s', exec (.opFcmpeq t o) s = .next s' ∧ TileOnly s s' t ∧ PredOnly s s' t o.imm.toNat (a.eqv b)) ∧
    (opOk 0x67 o = true → ∃ s', exec (.opFcmplt t o) s = .next s' ∧ TileOnly s s' t ∧
      PredOnly s s' t o.imm.toNat (a.lt? b == some true)))

/-- VMUL and VADD write the elements 0 to IMM of DST with the rounded product or the sum of the elements of A and B, saturated to Q15, and leave
every other element; VMAC adds the products to the accumulator at DST while every partial sum fits 40 bits; VSAT writes acc(A) shifted right
by IMM and saturated (the sign extension of its word is log entry 22). A vector that runs past the buffer also completes, and what it holds
there is open (log entry 20). (05_fabric_and_compiler_contract.md R242, 05_fabric_and_compiler_contract.md R838) -/
def Obligations.VectorOps : Prop :=
  ∀ (s : State) (t : Fin 16) (o : OpWord), (s.dev.core.tile t).condMet o = true →
    let x := s.dev.core.tile t
    let m := o.imm.toNat
    let inside := o.a.toNat + m / 2 < 16384 ∧ o.b.toNat + m / 2 < 16384
    (∀ p ∈ ([(0x41, .opVmul, fun a b => satQ15 ((a * b + 16384) / 32768)), (0x42, .opVadd, fun a b => satQ15 (a + b))] :
        List (Nat × (Fin 16 → OpWord → Instr) × (Int → Int → Int))),
      opOk p.1 o = true → ∃ s', exec (p.2.1 t o) s = .next s' ∧ TileFree s s' t ∧
        WordsOnly s s' t ((List.range (m / 2 + 1)).map (o.dst.toNat + ·)) ∧
        (inside ∧ o.dst.toNat + m / 2 < 16384 → ∀ i, (s'.dev.core.tile t).q15 o.dst.toNat i =
          if i ≤ m then p.2.2 (x.q15 o.a.toNat i) (x.q15 o.b.toNat i) else x.q15 o.dst.toNat i)) ∧
    (opOk 0x40 o = true → ∃ s', exec (.opVmac t o) s = .next s' ∧ TileFree s s' t ∧ WordsOnly s s' t [o.dst.toNat, o.dst.toNat + 1] ∧
      (inside → (∀ k, k ≤ m + 1 → fits40 (x.acc o.dst.toNat +
          ((List.range k).map fun i => x.q15 o.a.toNat i * x.q15 o.b.toNat i).sum) = true) →
        (s'.dev.core.tile t).acc o.dst.toNat =
          x.acc o.dst.toNat + ((List.range (m + 1)).map fun i => x.q15 o.a.toNat i * x.q15 o.b.toNat i).sum)) ∧
    (opOk 0x43 o = true → ∃ s', exec (.opVsat t o) s = .next s' ∧ TileOnly s s' t ∧ WordsOnly s s' t [o.dst.toNat] ∧
      (s'.dev.core.tile t).word o.dst.toNat = BitVec.ofInt 32 (satQ15 (x.acc o.a.toNat / 2 ^ m)))

/-- A timer takes time from the start of the present base cycle, writes Q to predicate IMM and its instance words, and nothing else (what an
instance or a preset past the buffer gives is open, log entry 20; the layout of the instance words and the predicate are the model's choice,
log entry 23). TON: Q once the input has held for the preset; TOF: Q while the input holds and until the preset has passed since its fall;
TP: a rise starts a pulse of the preset's length. RTRIG and FTRIG write predicate IMM with a rise or fall of A since their last evaluation
and keep A's state in bit 0 of DST. (05_fabric_and_compiler_contract.md R242) -/
def Obligations.TimersAndEdges : Prop :=
  ∀ (s : State) (t : Fin 16) (o : OpWord), (s.dev.core.tile t).condMet o = true →
    let x := s.dev.core.tile t
    let d := o.dst.toNat
    let now := s.dev.core.prog.cycleStart / 65536
    let start := (x.word d).toNat + (x.word (d + 1)).toNat * 2 ^ 32
    let preset := (x.word o.a.toNat).toNat + (x.word (o.a.toNat + 1)).toNat * 2 ^ 32
    let input := decide (x.word o.b.toNat ≠ 0)
    let was := (x.word (d + 2)).getLsbD 2
    let runs := (x.word (d + 2)).getLsbD 1
    let since := now - start
    (∀ p ∈ ([(0xA0, .opTon, input && (if runs then decide (preset ≤ since) else preset == 0), input),
        (0xA1, .opTof, input || (if was then decide (0 < preset) else runs && decide (since < preset)),
          !input && (if was then decide (0 < preset) else runs && decide (since < preset))),
        (0xA2, .opTp, if runs then decide (since < preset) else input && !was && decide (0 < preset),
          if runs then decide (since < preset) else input && !was && decide (0 < preset))] :
        List (Nat × (Fin 16 → OpWord → Instr) × Bool × Bool)),
      opOk p.1 o = true → ∃ s', exec (p.2.1 t o) s = .next s' ∧ TileFree s s' t ∧
        (∀ i, i ≠ o.imm.toNat → (s'.dev.core.tile t).pred i = x.pred i) ∧
        (∀ i, i ≠ d → i ≠ d + 1 → i ≠ d + 2 → (s'.dev.core.tile t).word i = x.word i) ∧
        (d + 2 < 16384 → o.a.toNat + 1 < 16384 → (o.imm.toNat < 16 → (s'.dev.core.tile t).pred o.imm.toNat = p.2.2.1) ∧
          ((s'.dev.core.tile t).word (d + 2)).getLsbD 0 = p.2.2.1 ∧ ((s'.dev.core.tile t).word (d + 2)).getLsbD 1 = p.2.2.2 ∧
          ((s'.dev.core.tile t).word (d + 2)).getLsbD 2 = input)) ∧
    (∀ p ∈ ([(0xA3, .opRtrig, fun a b => a && !b), (0xA4, .opFtrig, fun a b => !a && b)] :
        List (Nat × (Fin 16 → OpWord → Instr) × (Bool → Bool → Bool))),
      opOk p.1 o = true → ∃ s', exec (p.2.1 t o) s = .next s' ∧ TileOnly s s' t ∧
        (o.imm.toNat < 16 →
          (s'.dev.core.tile t).pred o.imm.toNat = p.2.2 (decide (x.word o.a.toNat ≠ 0)) ((x.word d).getLsbD 0)) ∧
        (∀ i, i ≠ o.imm.toNat → (s'.dev.core.tile t).pred i = x.pred i) ∧
        (s'.dev.core.tile t).word d = (if x.word o.a.toNat = 0 then 0 else 1) ∧
        ∀ i, i ≠ d → (s'.dev.core.tile t).word i = x.word i)

/-- TRD1, TRDT and TRDX write the pair at DST with the eight bytes of Tarn 1 at ADDR (low byte first), the tag ADDR or the tag ADDR + A, a force
on a local point of class 4 in its place (log entry 124), and nothing else. TWR1 writes the eight bytes at ADDR with the pair at A, and TWRT
the tag ADDR, and every other byte and tag stays. (05_fabric_and_compiler_contract.md R242, 05_fabric_and_compiler_contract.md R839) -/
def Obligations.TarnAndTagOps : Prop :=
  ∀ (s : State) (t : Fin 16) (o : OpWord), (s.dev.core.tile t).condMet o = true →
    let c := s.dev.core
    let x := c.tile t
    (∀ p ∈ ([(0xB0, .opTrd1, BitVec.ofNat 64 ((List.range 8).foldr (fun i n => (c.t1Byte (o.addr.toNat + i)).toNat + 256 * n) 0)),
        (0xB2, .opTrdt, c.progTag (o.addr.toNat % 2 ^ 25)),
        (0xB4, .opTrdx, c.progTag ((o.addr.toNat + (x.word o.a.toNat).toNat) % 2 ^ 25))] :
        List (Nat × (Fin 16 → OpWord → Instr) × DWord)),
      opOk p.1 o = true → ∃ s', exec (p.2.1 t o) s = .next s' ∧ TileOnly s s' t ∧ WordsOnly s s' t [o.dst.toNat, o.dst.toNat + 1] ∧
        (s'.dev.core.tile t).dword o.dst.toNat = p.2.2) ∧
    (opOk 0xB1 o = true → ∃ s', exec (.opTwr1 t o) s = .next s' ∧ Touches [.fab, .mem] s s' ∧ WordsOnly s s' t [] ∧
      (∀ i, i < 8 → (s'.dev.core.t1Byte (o.addr.toNat + i)).toNat = (x.dword o.a.toNat).toNat / 256 ^ i % 256) ∧
      (∀ a, (a < o.addr.toNat ∨ o.addr.toNat + 8 ≤ a) → s'.dev.core.t1Byte a = c.t1Byte a) ∧
      ∀ g, s'.dev.core.tagVal g = c.tagVal g) ∧
    (opOk 0xB3 o = true → ∃ s', exec (.opTwrt t o) s = .next s' ∧ Touches [.fab, .mem] s s' ∧ WordsOnly s s' t [] ∧
      s'.dev.core.tagVal (o.addr.toNat % 2 ^ 25) = x.dword o.a.toNat ∧
      (∀ g, g ≠ o.addr.toNat % 2 ^ 25 → s'.dev.core.tagVal g = c.tagVal g) ∧ ∀ a, s'.dev.core.t1Byte a = c.t1Byte a)

/-- CMTOUT, CMTLP and CMTAX place one entry, in issue order, in the commit buffer or in the output commit of the work item that runs, and change
nothing else. LATCHM writes at AUX the header of R307 for the active half of the input area and then IN_BYTES bytes (R644) of it (zeros
where no frame came), and no other byte of Tarn 1; forces and host writes of points are left out of the clause on the bytes.
(05_fabric_and_compiler_contract.md R242, 05_fabric_and_compiler_contract.md R244, 07_cycle_program.md R307, 07_cycle_program.md R308,
07_cycle_program.md R309) -/
def Obligations.CommitOps : Prop :=
  ∀ (s : State) (t : Fin 16) (o : OpWord), (s.dev.core.tile t).condMet o = true →
    let c := s.dev.core
    let x := c.tile t
    let a := o.a.toNat
    (opOk 0xC1 o = true → ∃ s', exec (.opCmtout t o) s = .next s' ∧ TileOnly s s' t ∧
      s'.dev.core.tile t = x.issued (.out o.addr.toNat) [x.word a]) ∧
    (opOk 0xC2 o = true → ∃ s', exec (.opCmtlp t o) s = .next s' ∧ TileOnly s s' t ∧
      s'.dev.core.tile t = x.issued (.loop (bits o.addr 9 0) (bits o.addr 17 16)) [x.word a]) ∧
    (opOk 0xC3 o = true → ∃ s' v1 v2, exec (.opCmtax t o) s = .next s' ∧ TileFree s s' t ∧
      s'.dev.core.tile t = x.issued (.axis o.addr.toNat o.aux.toNat) [x.word a, v1, v2] ∧
      (a + 2 < 16384 → v1 = x.word (a + 1) ∧ v2 = x.word (a + 2))) ∧
    (opOk 0xC0 o = true →
      let m := c.mod o.addr.toNat
      let at_ := o.aux.toNat
      let before := SMap.get (65536, 255) c.prog.latched o.addr.toNat
      let fresh := m.hasData && decide (m.act.seq ≠ before.1)
      ∃ s', exec (.opLatchm t o) s = .next s' ∧ Touches [.fab, .mem, .prog] s s' ∧ WordsOnly s s' t [] ∧
        (∀ b, (b < at_ ∨ at_ + 16 + c.latchLen o.addr.toNat ≤ b) → s'.dev.core.t1Byte b = c.t1Byte b) ∧
        (∀ g, s'.dev.core.tagVal g = c.tagVal g) ∧
        (m.act.seq < 65536 →
          s'.dev.core.t1Read at_ 4 = (if m.hasData then secOf m.act.time % 2 ^ 32 else 0) ∧
          s'.dev.core.t1Read (at_ + 4) 4 = (if m.hasData then nsOf m.act.time else 0) ∧
          s'.dev.core.t1Read (at_ + 8) 4 = (if m.hasData then fracOf m.act.time * 65536 + m.act.seq else 0) ∧
          s'.dev.core.t1Read (at_ + 12) 4 = (if m.st = .operational then 2 ^ 31 else 0) + (if fresh then 2 ^ 30 else 0) +
            65536 * (if !m.hasData then 255 else if fresh then 0 else min 255 (before.2 + 1))) ∧
        (c.prog.forcesNow = [] → c.prog.tagNow = [] → (∀ b ∈ m.act.bytes, b < 256) → ∀ i, i < c.latchLen o.addr.toNat →
          s'.dev.core.t1Byte (at_ + 16 + i) = if m.hasData then BitVec.ofNat 8 (m.act.bytes.getD i 0) else 0))

/-- Inside a work item each of the four is held, in issue order, until the item completes. In a cyclic window with no SLACK window open: WRDY of
an item IDLE with room makes it READY at the tail of its priority; WCAN of an item WAITING makes it IDLE; WREL of an item IDLE at an instant
not yet passed makes it WAITING with that instant; EVT raises the program event ADDR. (05_fabric_and_compiler_contract.md R242,
06_work_item_queues.md R273, 06_work_item_queues.md R274, 06_work_item_queues.md R283, 06_work_item_queues.md R285) -/
def Obligations.QueueOpsAndEvents : Prop :=
  ∀ (s : State) (t : Fin 16) (o : OpWord), (s.dev.core.tile t).condMet o = true →
    let c := s.dev.core
    let x := c.tile t
    let i := o.addr.toNat
    let p := c.itemPrio i
    let a := o.a.toNat
    let r : Time := ((x.word a).toNat + (x.word (a + 1)).toNat * 2 ^ 32) * second + ns (x.word (a + 2)).toNat
    (∀ q ∈ ([(0xD0, .opWrdy), (0xD1, .opWcan), (0xD2, .opWrel), (0xD3, .opEvt)] : List (Nat × (Fin 16 → OpWord → Instr))),
      opOk q.1 o = true → ∀ k, x.run = some k → ∃ s' ws, exec (q.2 t o) s = .next s' ∧ TileFree s s' t ∧
        s'.dev.core.tile t = { x with ops := x.ops + 1, run := some { k with held := k.held ++ [(q.1, i, ws)] } } ∧
        (q.1 = 0xD2 → a + 3 < 16384 → ws = [x.word a, x.word (a + 1), x.word (a + 2), x.word (a + 3)])) ∧
    (x.run = none →
      (opOk 0xD0 o = true → c.NoSlack → (c.item i).phase = .idle → c.room_ p = true →
        ∃ s', exec (.opWrdy t o) s = .next s' ∧ Touches [.fab, .wq] s s' ∧ (s'.dev.core.item i).phase = .ready ∧
          s'.dev.core.readyOf p = c.readyOf p ++ [i] ∧ (∀ k, k ≠ p → s'.dev.core.readyOf k = c.readyOf k) ∧
          ∀ j, j ≠ i → s'.dev.core.item j = c.item j) ∧
      (opOk 0xD1 o = true → c.NoSlack → (c.item i).phase = .waiting →
        ∃ s', exec (.opWcan t o) s = .next s' ∧ Touches [.fab, .wq] s s' ∧ (s'.dev.core.item i).phase = .idle ∧
          s'.dev.core.wq.ready = c.wq.ready ∧ ∀ j, j ≠ i → s'.dev.core.item j = c.item j) ∧
      (opOk 0xD2 o = true → c.NoSlack → (c.item i).phase = .idle → a + 3 < 16384 → (x.word (a + 2)).toNat ≤ 999999999 → c.now ≤ r →
        ∃ s', exec (.opWrel t o) s = .next s' ∧ Touches [.fab, .wq] s s' ∧ (s'.dev.core.item i).phase = .waiting ∧
          (s'.dev.core.item i).rel = r ∧ s'.dev.core.wq.ready = c.wq.ready ∧ ∀ j, j ≠ i → s'.dev.core.item j = c.item j) ∧
      (opOk 0xD3 o = true → ∃ s', exec (.opEvt t o) s = .next s' ∧ Touches [.fab, .host, .regs] s s' ∧ RegsBut [] s s' ∧
        WordsOnly s s' t [] ∧ s'.dev.core.Raised i (path 8 0 0)))

/-- A write of LP_CTL.MODE_REQ that a session may make is answered OK and leaves a request for the mode, which clears ABORTED; the loop acts on
it at its next update. No other loop, register or part of the device changes, host access aside. (08_control_loops.md R371,
08_control_loops.md R372, 08_control_loops.md R373, 04_host_access.md R192) -/
def Obligations.LoopModeRequests : Prop :=
  ∀ (s : State) (sess req n : Nat), s.dev.core.MayWrite sess req → n < 1024 → s.dev.core.image.loops.contains n = true →
    ∀ p ∈ ([(.modeReqOpen, .open), (.modeReqManual, .manual), (.modeReqClosed, .closed)] : List ((Nat → Nat → Nat → Instr) × LoopMode)),
      ∃ t, exec (p.1 sess req n) s = .next t ∧ Accepted s t sess req [.lp] [] ∧
        t.dev.core.loop n = { s.dev.core.loop n with aborted := false, modeReq := some (p.2, true) } ∧
        ∀ k, k ≠ n → t.dev.core.loop k = s.dev.core.loop k

/-- CLEAR of a loop that is not closed, or has no weight in use, waits for the next period start. A write of LEARN stores the bit, and LEARN = 1
clears ABT_FROZEN. START by the session that owns Service, where nothing of R429 refuses it, lets an injection wait for the next period
start and raises 0x0915; an injection that arms a capture unit changes that unit too. STOP of an injection that runs or waits ends it with
END = 2 and raises 0x0916. No other loop changes, and no register but RC_CTL for LEARN. (09_learning_and_tuning.md R420,
09_learning_and_tuning.md R421, 09_learning_and_tuning.md R429, 09_learning_and_tuning.md R431) -/
def Obligations.LearningAndInjectionRequests : Prop :=
  ∀ (s : State) (sess req n : Nat), s.dev.core.MayWrite sess req → n < 1024 → s.dev.core.image.loops.contains n = true →
    let c := s.dev.core
    let l := c.loop n
    let a := lpAddr A.RC_CTL n
    let others (t : State) : Prop := ∀ k, k ≠ n → t.dev.core.loop k = c.loop k
    (l.mode ≠ .closed ∨ l.lrn.w = 0 → ∃ t, exec (.rcClear sess req n) s = .next t ∧ Accepted s t sess req [.lp] [] ∧
      t.dev.core.loop n = { l with lrn := { l.lrn with clearReq := true } } ∧ others t) ∧
    (∀ v : Word, ∃ t, exec (.rcLearn sess req n v) s = .next t ∧ Accepted s t sess req [.lp] [a] ∧
      t.dev.core.reg a = (c.reg a &&& 0xFFFFFFFE) ||| (v &&& 1) ∧
      t.dev.core.loop n = (if v.getLsbD 0 then { l with lrn := { l.lrn with abtFrozen := false } } else l) ∧ others t) ∧
    (c.md.mode = .service → c.host.svcOwner = some sess →
      (c.injRefusal n = none → ∃ t, exec (.injStart sess req n) s = .next t ∧
        Accepted s t sess req (if c.injField n 20 20 = 1 then [.lp, .cap] else [.lp]) [] ∧
        t.dev.core.loop n = { l with inj := { l.inj with waiting := true, endReason := 0, refuse := 0, j := 0, x := 0 } } ∧
        others t ∧ t.dev.core.Raised 0x0915 (lpPath n 2)) ∧
      (l.inj.running = true ∨ l.inj.waiting = true → ∃ t, exec (.injStop sess req n) s = .next t ∧ Accepted s t sess req [.lp] [] ∧
        t.dev.core.loop n = { l with inj := { l.inj with running := false, waiting := false, x := 0, endReason := 2 } } ∧
        others t ∧ t.dev.core.Raised 0x0916 (lpPath n 2)))

/-- STOP, QSTOP and RESUME of AX_CMD, and a jog that the owner of Service writes to an axis in STANDSTILL or JOGGING, are answered OK and wait,
in the order of arrival, for the next generator step; a jog also notes the instant of its write. Nothing else of the axis, no other axis and
no register changes. (10_motion_profiles.md R444, 10_motion_profiles.md R467, 10_motion_profiles.md R469, 10_motion_profiles.md R471) -/
def Obligations.AxisCommandRequests : Prop :=
  ∀ (s : State) (sess req a : Nat), s.dev.core.MayWrite sess req → a < 192 → s.dev.core.image.axes.contains a = true →
    let c := s.dev.core
    let x := c.axis a
    (∀ p ∈ ([(.axStop, 1), (.axQstop, 2), (.axResume, 3)] : List ((Nat → Nat → Nat → Instr) × Nat)),
      ∃ t, exec (p.1 sess req a) s = .next t ∧ Accepted s t sess req [.mot] [] ∧
        t.dev.core.axis a = { x with inbox := x.inbox ++ [.command p.2 true] } ∧ ∀ k, k ≠ a → t.dev.core.axis k = c.axis k) ∧
    (c.md.mode = .service → c.host.svcOwner = some sess → x.st = .standstill ∨ x.st = .jogging →
      ∀ p ∈ ([(.jogPositive, 1), (.jogNegative, 2), (.jogEnd, 0)] : List ((Nat → Nat → Nat → Instr) × Nat)),
        ∃ t, exec (p.1 sess req a) s = .next t ∧ Accepted s t sess req [.mot] [] ∧
          t.dev.core.axis a = { x with jogLast := c.now, inbox := x.inbox ++ [.jog p.2] } ∧ ∀ k, k ≠ a → t.dev.core.axis k = c.axis k)

/-- START that nothing of R517 refuses raises 0x0A14; by methods 1 to 7 the axis is HOMING with no target and RESULT 0, and method 8 ends at the
same step with RESULT 1, at standstill, homed with a valid position. ABANDON of an axis that homes raises 0x0A43 and ends homing with RESULT
5: a moving axis stops at rank 3, one at rest stands still, and POS_VALID and HOMED stay. No other axis and no register changes.
(11_axis_io_limits_stall.md R517, 11_axis_io_limits_stall.md R522, 11_axis_io_limits_stall.md R523, 10_motion_profiles.md R467) -/
def Obligations.HomingRequests : Prop :=
  ∀ (s : State) (sess req a : Nat), s.dev.core.MayWrite sess req → a < 192 → s.dev.core.image.axes.contains a = true →
    let c := s.dev.core
    let x := c.axis a
    (c.homeStatus a = 0 → ∃ t, exec (.homeStart sess req a) s = .next t ∧ Accepted s t sess req [.mot] [] ∧
      (∀ k, k ≠ a → t.dev.core.axis k = c.axis k) ∧ t.dev.core.Raised 0x0A14 (axPath a 2) ∧
      let y := t.dev.core.axis a
      if c.homeMethod a = 8 then y.st = .standstill ∧ y.homeResult = 1 ∧ y.homed = true ∧ y.posValid = true ∧
        t.dev.core.Raised 0x0A15 (axPath a 2)
      else y.st = .homing ∧ y.hasTgt = false ∧ y.homeResult = 0 ∧ y.posValid = x.posValid ∧ y.homed = x.homed) ∧
    (x.st = .homing → (x.stopRank = 0 ∨ 3 < x.stopRank) → ∃ t, exec (.homeAbandon sess req a) s = .next t ∧
      Accepted s t sess req [.mot, .md] [] ∧ (∀ k, k ≠ a → t.dev.core.axis k = c.axis k) ∧ t.dev.core.Raised 0x0A43 (axPath a 2) ∧
      let y := t.dev.core.axis a
      y.homeResult = 5 ∧ y.homeSt = .idle ∧ y.hasTgt = false ∧ y.posValid = x.posValid ∧ y.homed = x.homed ∧
        if x.vel = 0 ∧ x.acc = 0 then y.st = .standstill else y.st = .stopping ∧ y.stopRank = 3)

/-- PB_SET_NS with no slave port and a value of at most 999,999,999 takes the time set as a measured offset: it becomes the outstanding
correction when its net part is within PB_STEP_LIMIT; beyond it the device slews with 0x0204 where it never steps, and else holds a step
with 0x0207. PB_PORT_ASYM takes the word and clears ASYM_UNVERIFIED. ARM of an idle output within the limits of R100 waits for START, and
skips what lies less than 2 us ahead as missed with 0x0242; settings outside the limits give 0x0243 and BAD_VALUE. DISARM stops the output
at the end of the pulse in progress, or at once. (02_time_and_ticks.md R74, 02_time_and_ticks.md R78, 02_time_and_ticks.md R81,
02_time_and_ticks.md R84, 02_time_and_ticks.md R100, 02_time_and_ticks.md R101, 02_time_and_ticks.md R102, 02_time_and_ticks.md R104) -/
def Obligations.PlumbRequests : Prop :=
  ∀ (s : State) (sess req : Nat), s.dev.core.MayWrite sess req →
    let c := s.dev.core
    let b := c.plumb
    (∀ v : Word, c.anySlave = false → v.toNat ≤ 999999999 →
      let off : Int := (c.now : Int) - (((c.regN A.PB_SET_SEC_HI * 2 ^ 32 + c.regN A.PB_SET_SEC_LO) * second + ns v.toNat : Nat) : Int)
      let within : Bool := decide ((off - b.slewRemain).natAbs ≤ ns (c.regN A.PB_STEP_LIMIT))
      ∃ t, exec (.setTime sess req v) s = .next t ∧ Accepted s t sess req [.plumb] [A.PB_SET_NS] ∧ t.dev.core.reg A.PB_SET_NS = v ∧
        t.dev.core.plumb = (
          let n := { b with timeValid := true, offset := off }
          if within then { n with slewRemain := off }
          else if c.neverSteps then { n with slewRemain := off, slewing := true }
          else { n with step := some off }) ∧
        (within = false → t.dev.core.Raised (if c.neverSteps then 0x0204 else 0x0207) plumbPath)) ∧
    (∀ (p : Nat) (v : Word), p < 12 → (c.session sess).role = .engineer →
      ∃ t, exec (.asymWrite sess req p v) s = .next t ∧ Accepted s t sess req [.plumb] [A.PB_PORT_ASYM + 16 * p] ∧
        t.dev.core.reg (A.PB_PORT_ASYM + 16 * p) = v ∧ (t.dev.core.ptpPort p) = { c.ptpPort p with asymUnverified := false } ∧
        ∀ q, q ≠ p → t.dev.core.ptpPort q = c.ptpPort q) ∧
    ∀ m, m < 16 → c.toutOn m = true →
      let o := c.tout m
      let others (t : State) : Prop := ∀ k, k ≠ m → t.dev.core.tout k = c.tout k
      (o.st = .idle → c.toutOk m = true → ∃ t n, exec (.toutArm sess req m) s = .next t ∧ Accepted s t sess req [.plumb] [] ∧ others t ∧
        let w : Tout := { o with st := .waiting, start := c.toutStart m, width := c.toutWidth m, period := c.toutPeriod m,
                                 count := c.fld (A.PB_TOUT_COUNT + 0x20 * m) 15 0, once := !c.toutPeriodic m, index := 0, pulse := none }
        let missedAt (j : Nat) : Prop := w.start + j * w.period < c.now + 2 * us
        let done : Bool := decide (0 < n) && (w.once || (decide (w.count ≠ 0) && decide (n = w.count)))
        t.dev.core.tout m = (if n = 0 then w else
          { w with index := n, missed := min (o.missed + n) 0xFFFF, st := if done then .idle else .waiting }) ∧
        (∀ j, j < n → missedAt j) ∧ (done = false → ¬ missedAt n) ∧ (0 < n → t.dev.core.Raised 0x0242 (toutPath m))) ∧
      (o.st = .idle → c.toutOk m = false → ∃ t, exec (.toutArm sess req m) s = .next t ∧ Touches [.host, .regs] s t ∧ RegsBut [] s t ∧
        t.dev.core.Answered sess req 2 8 [1, 8] ∧ t.dev.core.Raised 0x0243 (toutPath m)) ∧
      (∃ t, exec (.toutDisarm sess req m) s = .next t ∧ Accepted s t sess req [.plumb] [] ∧ others t ∧
        t.dev.core.tout m = { o with st := if o.st = .idle then .idle else if o.pulse.isSome then .stopping else .idle })

/-- In Run and Service, for an item that the image opens to the host, and with no SLACK window open: READY of an IDLE item with room puts it at
the tail of its priority; CANCEL of a WAITING item makes it IDLE; RELEASE of an IDLE item at an instant not yet past, taken from the WQ_REL
registers of the session, makes it WAITING with that instant. Nothing else of the queues changes. READY of an item already READY is a
duplicate: it counts and changes nothing of any item. (06_work_item_queues.md R274, 06_work_item_queues.md R285, 06_work_item_queues.md
R286, 06_work_item_queues.md R288, 06_work_item_queues.md R290) -/
def Obligations.QueueRequests : Prop :=
  ∀ (s : State) (sess req i : Nat) (d : ItemDef), s.dev.core.MayWrite sess req → i < 65536 → s.dev.core.running = true →
    s.dev.core.itemDef i = some d → d.hostOk = true → s.dev.core.NoSlack →
    let c := s.dev.core
    let p := c.itemPrio i
    let r : Time := (secOf c.now / 2 ^ 32 * 2 ^ 32 + c.selOf sess A.WQ_REL_SEC) * second + ns (c.selOf sess A.WQ_REL_NS)
    let others (t : State) : Prop := ∀ j, j ≠ i → t.dev.core.item j = c.item j
    ((c.item i).phase = .idle → c.room_ p = true → ∃ t, exec (.wqReady sess req i) s = .next t ∧ Accepted s t sess req [.wq] [] ∧
      (t.dev.core.item i).phase = .ready ∧ t.dev.core.readyOf p = c.readyOf p ++ [i] ∧
      (∀ k, k ≠ p → t.dev.core.readyOf k = c.readyOf k) ∧ others t) ∧
    ((c.item i).phase = .ready → ∃ t, exec (.wqReady sess req i) s = .next t ∧ Accepted s t sess req [.wq] [] ∧
      t.dev.core.wq = { c.wq with dup := sat32 (c.wq.dup + 1) }) ∧
    ((c.item i).phase = .waiting → ∃ t, exec (.wqCancel sess req i) s = .next t ∧ Accepted s t sess req [.wq] [] ∧
      (t.dev.core.item i).phase = .idle ∧ t.dev.core.wq.ready = c.wq.ready ∧ others t) ∧
    ((c.item i).phase = .idle → c.selOf sess A.WQ_REL_NS ≤ 999999999 → c.now ≤ r →
      ∃ t, exec (.wqRelease sess req i) s = .next t ∧ Accepted s t sess req [.wq] [] ∧
        (t.dev.core.item i).phase = .waiting ∧ (t.dev.core.item i).rel = r ∧ t.dev.core.wq.ready = c.wq.ready ∧ others t)

/-- For the owner of Service: SET of a tag that R334 accepts adds a force with the value of the two value registers, or replaces the value of a
force that is there; RELEASE takes the force of the tag away and leaves every other force; RELEASE_ALL leaves none. The FORCED bit follows,
and no register changes. (07_cycle_program.md R334, 07_cycle_program.md R335, 07_cycle_program.md R337) -/
def Obligations.ForceRequests : Prop :=
  ∀ (s : State) (sess req : Nat), s.dev.core.MayWrite sess req → s.dev.core.md.mode = .service →
    s.dev.core.host.svcOwner = some sess →
    let c := s.dev.core
    let g := c.regN A.PG_FORCE_TAG % 2 ^ 25
    let v : DWord := BitVec.ofNat 64 (c.reg64 A.PG_FORCE_VAL_LO)
    let l := c.prog.forces
    let has : Bool := l.any fun f => f.tag == g
    (c.forceable g = true → has = true ∨ l.length < 1024 →
      ∃ t, exec (.forceSet sess req) s = .next t ∧ Accepted s t sess req (if has then [.prog] else [.prog, .mem]) [] ∧
        t.dev.core.prog = { c.prog with forces :=
          if has then (l.map fun f => if f.tag = g then { f with value := v } else f)
          else l ++ [{ tag := g, output := c.tagIsOut g, value := v }] } ∧
        (has = false → (t.dev.core.metaOf g).getLsbD 51 = true) ∧ ∀ k, k ≠ g → t.dev.core.metaOf k = c.metaOf k) ∧
    (∃ t, exec (.forceRelease sess req) s = .next t ∧ Accepted s t sess req (if has then [.prog, .mem] else []) [] ∧
      (has = true → (t.dev.core.metaOf g).getLsbD 51 = false) ∧ (∀ k, k ≠ g → t.dev.core.metaOf k = c.metaOf k) ∧
      ((l.map Force.tag).Nodup → ∀ f, f ∈ t.dev.core.prog.forces ↔ f ∈ l ∧ f.tag ≠ g)) ∧
    (∃ t, exec (.forceReleaseAll sess req) s = .next t ∧ Accepted s t sess req [.prog, .mem] [] ∧
      t.dev.core.prog = { c.prog with forces := [] } ∧ ∀ f ∈ l, (t.dev.core.metaOf f.tag).getLsbD 51 = false)

/-- ARM by an engineer, in Standby, Run or Service, of a package that is READY and whose partner in sync has it too, makes it ARMED with the
swap time of the registers and the present instant. DISARM of an armed package makes it READY again and changes nothing in any other state.
No register changes. (07_cycle_program.md R341, 07_cycle_program.md R357) -/
def Obligations.OlcRequests : Prop :=
  ∀ (s : State) (sess req : Nat), s.dev.core.MayWrite sess req → (s.dev.core.session sess).role = .engineer →
    let c := s.dev.core
    let o := c.prog.olc
    (c.running = true ∨ c.md.mode = .standby → o.st = .ready →
      (c.pairOn && c.mr.role == .active && c.mr.partnerKnown && c.mr.beat.inSync && !c.mr.beat.olcReady) = false →
      ∃ t, exec (.olcArm sess req) s = .next t ∧ Accepted s t sess req [.prog] [] ∧
        t.dev.core.prog = { c.prog with olc := { o with
          st := .armed, reason := 0, armedAt := c.now, cleared := false
          swapAt := (secOf c.now / 2 ^ 32 * 2 ^ 32 + c.regN A.PG_OLC_SWAP_SEC) * second + ns (c.regN A.PG_OLC_SWAP_NS) } }) ∧
    ∃ t, exec (.olcDisarm sess req) s = .next t ∧ Accepted s t sess req [.prog] [] ∧
      t.dev.core.prog = { c.prog with olc := if o.st = .armed then { o with st := .ready, cleared := false } else o }

/-- REENUM in Standby of a port that carries a line sends ENUM over it and starts the enumeration with nothing found; in another mode it answers
MODE_REFUSED and does nothing. APPROVE by an engineer of a neighbour that is NEW stores its fingerprint, makes it KNOWN and raises 0x0403.
FORGET clears the stored fingerprint, and a unit with a link sends a challenge and verifies anew. Every other port and unit stays.
(14_ashlar_line_ports.md R633, 14_ashlar_line_ports.md R634, 15_lintel_chain.md R662, 15_lintel_chain.md R664) -/
def Obligations.LineAndChainRequests : Prop :=
  ∀ (s : State) (sess req : Nat), s.dev.core.MayWrite sess req →
    let c := s.dev.core
    (∀ p, p < 8 → c.lineRole p = true → c.md.mode = .standby → ∃ t, exec (.ashReenum sess req p) s = .next t ∧
      Accepted s t sess req [.ash] [] ∧ (∀ k, k ≠ p → t.dev.core.port k = c.port k) ∧
      t.dev.core.port p = { c.port p with st := .enumerating, enum := some .enum, prevCount := none, got := [], found := 0 } ∧
      ((c.port p).linkUp = true → .ash (c.ashHdr p 3 4) [0] ∈ t.dev.core.out)) ∧
    (∀ p, p < 8 → c.md.mode ≠ .standby → ∃ t, exec (.ashReenum sess req p) s = .next t ∧
      Touches [.host, .regs] s t ∧ RegsBut [] s t ∧ t.dev.core.Answered sess req 2 9 [1, 9]) ∧
    ((c.session sess).role = .engineer → ∀ u, u < 4 →
      let x := c.lnPort u
      let others (t : State) : Prop := ∀ k, k ≠ u → t.dev.core.lnPort k = c.lnPort k
      (x.nb = .new → ∃ t, exec (.lnApprove sess req u) s = .next t ∧ Accepted s t sess req [.ln] [] ∧ others t ∧
        t.dev.core.lnPort u = { x with knownFp := x.nbFp, nb := .known } ∧ t.dev.core.Raised 0x0403 (c.nbPath u)) ∧
      (x.link = false → ∃ t, exec (.lnForget sess req u) s = .next t ∧ Accepted s t sess req [.ln] [] ∧ others t ∧
        t.dev.core.lnPort u = { x with knownFp := 0 }) ∧
      (x.link = true → ∃ t, exec (.lnForget sess req u) s = .next t ∧ Accepted s t sess req [.ln, .free] [] ∧ others t ∧
        LnPort.SendsOnly { x with
          knownFp := 0, nb := .verifying, identFrom := c.plumb.elapsed, nonce := Config.freeNat c.free, identGot := [] } (t.dev.core.lnPort u) ∧
        t.dev.core.LnSent u 0x10 (c.lnHead ++ [0, Config.freeNat c.free])))

/-- On a unit of a pair, by an engineer. YIELD of the active whose known partner is in sync and heard sends YIELD and makes it YIELDING, or
waits for the capture of the cycle that has released. RESYNC of a standby gives up sync and asks for a resync, with 0x0542 if it was in
sync. APPROVE of a new partner stores its fingerprint and raises 0x0504. FORGET clears the stored fingerprint, and a partner that neither
this nor the image knows is new again, with 0x0503. No register changes. (16_mortar_redundancy.md R689, 16_mortar_redundancy.md R699,
16_mortar_redundancy.md R715, 16_mortar_redundancy.md R716, 16_mortar_redundancy.md R725) -/
def Obligations.PairRequests : Prop :=
  ∀ (s : State) (sess req : Nat), s.dev.core.MayWrite sess req → (s.dev.core.session sess).role = .engineer →
    s.dev.core.image.pair.en = true →
    let c := s.dev.core
    let m := c.mr
    (m.role = .active → m.partnerKnown = true → m.missRun = 0 → m.beat.inSync = true → ∃ t, exec (.mrYield sess req) s = .next t ∧
      Accepted s t sess req [.mr] [] ∧
      if c.running = true ∧ c.prog.released = true ∧ c.prog.captured = false then t.dev.core.mr = { m with yieldReq := true }
      else (∃ b l, Mortar.SendsOnly { m with role := .yielding, yieldReq := false, activePin := b, pinsLive := l } t.dev.core.mr) ∧
        (m.link = true → t.dev.core.MorSent (.yield m.lastEpoch (match c.md.mode with | .run => 5 | .service => 6 | _ => 4)))) ∧
    (m.role = .standby → ∃ t st, exec (.mrResync sess req) s = .next t ∧ Accepted s t sess req [.mr] [] ∧
      t.dev.core.mr = { m with inSync := false, snapDone := false, resyncReq := true, resyncStop := false, staging2 := (0, []), state := st } ∧
      (m.inSync = true → t.dev.core.Raised 0x0542 (mrPath 1)) ∧ (m.state ≠ .synced → st = m.state)) ∧
    (m.state = .partnerNew → ∃ t, exec (.mrApprove sess req) s = .next t ∧ Accepted s t sess req [.mr] [] ∧
      t.dev.core.mr = { m with knownFp := m.partnerFp, partnerKnown := true, state := if m.role = .standby then .resyncing else .unsynced } ∧
      t.dev.core.Raised 0x0504 (mrPath 1)) ∧
    (∃ t, exec (.mrForget sess req) s = .next t ∧ Accepted s t sess req [.mr] [] ∧ t.dev.core.mr.knownFp = 0 ∧
      (m.partnerFp = 0 → t.dev.core.mr = { m with knownFp := 0 }) ∧
      (m.partnerFp ≠ 0 → m.partnerFp ≠ c.image.pair.fpA → m.partnerFp ≠ c.image.pair.fpB →
        t.dev.core.mr.partnerKnown = false ∧ t.dev.core.mr.state = .partnerNew ∧ t.dev.core.Raised 0x0503 (mrPath 1)))

/-- START of a stream that does not run makes it RUNNING with 0x0B01; STOP of a running stream makes it STOPPED with its segment closed, with
0x0B02. CLAIM of a stream that no other session holds gives it to the session, and UNCLAIM by the holder gives it back. RS_ACK by the holder
frees the units counted from the front of the ring. RS_MARK in a running stream with room appends a MARK record of kind 2 from source
0xFFFF, and leaves a stream that does not run as it is. No register and no other stream changes. (12_signal_recording.md R541,
12_signal_recording.md R551, 12_signal_recording.md R553, 12_signal_recording.md R555, 12_signal_recording.md R560) -/
def Obligations.StreamRequests : Prop :=
  ∀ (s : State) (sess req k : Nat), s.dev.core.MayWrite sess req → k < 16 → s.dev.core.image.streams.contains k = true →
    let c := s.dev.core
    let x := c.stream k
    let others (t : State) : Prop := ∀ j, j ≠ k → t.dev.core.stream j = c.stream j
    (x.st ≠ .running → ∃ t, exec (.rsStart sess req k) s = .next t ∧ Accepted s t sess req [.spr] [] ∧ others t ∧
      (t.dev.core.stream k).st = .running ∧ (t.dev.core.stream k).segBase = secOf c.now ∧ (t.dev.core.stream k).segOpen = true ∧
      t.dev.core.Raised 0x0B01 (path 0xB k 0)) ∧
    (x.st = .running → ∃ t, exec (.rsStop sess req k) s = .next t ∧ Accepted s t sess req [.spr] [] ∧ others t ∧
      (t.dev.core.stream k).st = .stopped ∧ (t.dev.core.stream k).segOpen = false ∧ (t.dev.core.stream k).staged = 0 ∧
      t.dev.core.Raised 0x0B02 (path 0xB k 0)) ∧
    (x.owner = none ∨ x.owner = some sess → ∃ t, exec (.rsClaim sess req k) s = .next t ∧ Accepted s t sess req [.spr] [] ∧ others t ∧
      t.dev.core.stream k = { x with owner := some sess }) ∧
    (∃ t, exec (.rsUnclaim sess req k) s = .next t ∧ Accepted s t sess req [.spr] [] ∧ others t ∧
      t.dev.core.stream k = { x with owner := if x.owner = some sess then none else x.owner }) ∧
    (∀ v : Word, x.owner = some sess → c.rsDest k ≠ 0 → c.rsDest k ≠ 2 → 0 < v.toNat → v.toNat ≤ x.ring.length →
      ∃ t, exec (.rsAck sess req k v) s = .next t ∧ Accepted s t sess req [.spr] [] ∧ others t ∧
        t.dev.core.stream k = { x with ring := x.ring.drop v.toNat, rdPtr := (x.rdPtr + v.toNat) % max 1 (c.rsSize k) }) ∧
    ∀ v : Word, ∃ t, exec (.rsMark sess req k v) s = .next t ∧ Accepted s t sess req [.spr] [] ∧ others t ∧
      (x.st ≠ .running → t.dev.core.stream k = x) ∧
      (x.st = .running → x.loss = none → x.headerWritten = true → c.now / 65536 + 2 ^ 31 ≥ x.segBase * 1000000000 →
        x.staged + 32 ≤ c.regN (rsA A.RS_STAGE_QUOTA k) → x.ring.length + 2 ≤ c.rsSize k →
        (t.dev.core.stream k).ring = x.ring ++ [unit128 0x80000000 (recOffset x.segBase c.now) v 0,
          unit128 (wd (fracOf c.now * 65536 + 0xFFFF)) 2 0 0] ∧ (t.dev.core.stream k).written = x.written + 1)

/-- FIRE of a SOFTWARE trigger that runs counts a firing at the present instant, and where no combination is configured logs it under the next
index. ENABLE stores the bit, and clearing it resets the condition state but for the count and the last firing time. Every other trigger
stays where no combination is configured. (13_triggers_and_captures.md R570, 13_triggers_and_captures.md R578, 13_triggers_and_captures.md
R581) -/
def Obligations.TriggerRequests : Prop :=
  ∀ (s : State) (sess req x : Nat), s.dev.core.MayWrite sess req → x < 128 →
    let c := s.dev.core
    let a := A.TR_CTL + 0x20 * x
    (c.trigKind x = 5 → c.trigRuns x = true → ∃ t, exec (.trFire sess req x) s = .next t ∧
      Accepted s t sess req [.cap, .spr, .ln] [] ∧
      (t.dev.core.trig x).count = sat32 ((c.trig x).count + 1) ∧ (t.dev.core.trig x).lastTime = c.now ∧
      ((∀ y, y < 128 → c.trigKind y ≠ 7 ∧ c.trigKind y ≠ 8) → (∀ y, y ≠ x → t.dev.core.trig y = c.trig y) ∧
        t.dev.core.cap.logNext = c.cap.logNext + 1 ∧
        t.dev.core.cap.log.head?.map (fun e => (e.index, e.trigger, e.device, e.time, e.arrivalNs)) =
          some (c.cap.logNext, x, 0xFFFF, c.now, 0))) ∧
    ∀ v : Word, ∃ t, exec (.trEnable sess req x v) s = .next t ∧ Accepted s t sess req [.cap] [a] ∧
      t.dev.core.reg a = (c.reg a &&& 0xFFFFFFFE) ||| (v &&& 1) ∧ (∀ y, y ≠ x → t.dev.core.trig y = c.trig y) ∧
      t.dev.core.trig x = if v.getLsbD 0 then c.trig x else { count := (c.trig x).count, lastTime := (c.trig x).lastTime }

/-- ARM that nothing of R587 refuses makes the unit ARMING, with T_s now and T_first the first row instant at least one tick later; a refused
ARM leaves its state, notes the refusal and answers its status. DISARM makes an ARMING or ARMED unit IDLE with its slot free, holds a
triggered capture as complete with ABORTED and 0x0C01, and leaves the others. RELEASE frees the oldest held slot. TRIGGER logs a firing with
trigger 0xFFFF at the present instant, which an ARMED unit past its re-arm interval takes. (13_triggers_and_captures.md R578,
13_triggers_and_captures.md R587, 13_triggers_and_captures.md R589, 13_triggers_and_captures.md R592, 13_triggers_and_captures.md R593,
13_triggers_and_captures.md R597) -/
def Obligations.CaptureRequests : Prop :=
  ∀ (s : State) (sess req u : Nat), s.dev.core.MayWrite sess req → u < 64 → s.dev.core.unitDeclared u = true →
    let c := s.dev.core
    let x := c.unit u
    let others (t : State) : Prop := ∀ k, k ≠ u → t.dev.core.unit k = c.unit k
    (c.armRefuse u = none → ∃ t, exec (.cpArm sess req u) s = .next t ∧ Accepted s t sess req [.cap] [] ∧
      (t.dev.core.unit u).st = .arming ∧ (t.dev.core.unit u).tStart = c.now ∧
      (t.dev.core.unit u).tFirst = alignUp (c.rowPeriod u) (c.now + tickLen) ∧ (t.dev.core.unit u).held = x.held ∧
      (t.dev.core.unit u).cur.isSome = true ∧ ∀ k, k ≠ u → (t.dev.core.unit k).st = (c.unit k).st) ∧
    (∀ r st ev, c.armRefuse u = some (r, st, ev) → ∃ t, exec (.cpArm sess req u) s = .next t ∧ Touches [.host, .regs, .cap] s t ∧
      RegsBut [] s t ∧ t.dev.core.Answered sess req 2 st [1, st] ∧ others t ∧ t.dev.core.unit u = { x with refuse := r } ∧
      (∀ e, ev = some e → t.dev.core.Raised e (unitPath u))) ∧
    (∃ t, exec (.cpDisarm sess req u) s = .next t ∧ Accepted s t sess req [.cap] [] ∧ others t ∧
      (x.st = .arming ∨ x.st = .armed → t.dev.core.unit u = { x with st := .idle, cur := none, waiting := none }) ∧
      (x.st = .idle ∨ x.st = .hold → t.dev.core.unit u = x) ∧
      (∀ b, x.st = .triggered → x.cur = some b → (t.dev.core.unit u).st = .hold ∧ (t.dev.core.unit u).cur = none ∧
        (t.dev.core.unit u).held = x.held ++ [{ b.cut true with flags := (b.cut true).flags ||| 0x10 }] ∧
        t.dev.core.Raised 0x0C01 (unitPath u))) ∧
    (∃ t, exec (.cpRelease sess req u) s = .next t ∧ Accepted s t sess req [.cap] [] ∧
      (x.st ≠ .hold ∨ c.flag (cpA A.CP_CFG u) 10 = false ∨ x.held = [] →
        t.dev.core.unit u = { x with held := x.held.drop 1 } ∧ others t)) ∧
    ∃ t, exec (.cpTrigger sess req u) s = .next t ∧ Accepted s t sess req [.cap, .spr] [] ∧
      t.dev.core.cap.logNext = c.cap.logNext + 1 ∧
      t.dev.core.cap.log.head?.map (fun e => (e.index, e.trigger, e.time)) = some (c.cap.logNext, 0xFFFF, c.now) ∧
      (x.st = .idle ∨ x.st = .hold → t.dev.core.unit u = x) ∧
      (x.st = .armed → x.tFirst ≤ c.now → (t.dev.core.cap.log.head?.map fun e => e.taken.testBit u) = some true)

/-- CLR_EXPERT of a block other than the island's by an engineer is answered OK; no chapter gives a pair of fields, so nothing is left to clear
(log entry 73). In block 0x0D it answers READ_ONLY. LOCK closes an open debug port with 0x010C and leaves a closed one. No register changes.
(01_two_hierarchies.md R39, 01_two_hierarchies.md R13, 18_update_and_identity.md R804, 18_update_and_identity.md R806) -/
def Obligations.ExpertAndDebugRequests : Prop :=
  ∀ (s : State) (sess req : Nat), s.dev.core.MayWrite sess req →
    let c := s.dev.core
    ((c.session sess).role = .engineer → ∀ b, b < 16 → ∃ t, exec (.clrExpert sess req b) s = .next t ∧
      if b = 13 then Touches [.host, .regs] s t ∧ RegsBut [] s t ∧ t.dev.core.Answered sess req 2 1 [1, 1]
      else Accepted s t sess req [] []) ∧
    ∃ t, exec (.dbgLock sess req) s = .next t ∧ Accepted s t sess req [.up] [] ∧
      t.dev.core.up = { c.up with dbgLevel := 0, dbgTicks := if c.up.dbgLevel = 0 then c.up.dbgTicks else 0 } ∧
      (c.up.dbgLevel ≠ 0 → t.dev.core.Raised 0x010C idPath)

/-- PING answers with an empty body. GET_CERT answers an engineer with the 1,330 words of the certificate. ATTEST, at most once a second and
never beside a level 2 token, answers the report with its signature and notes its time. SUBSCRIBE within its limits adds one subscription
and answers its number and the effective period; UNSUBSCRIBE takes away one of the session's own, and answers BAD_VALUE for another. CLOSE
answers, then frees the channel with its subscriptions, ends Service that it owned and raises 0x0121. Nothing else changes.
(04_host_access.md R183, 04_host_access.md R190, 04_host_access.md R199, 04_host_access.md R209, 04_host_access.md R210, 04_host_access.md
R211, 18_update_and_identity.md R802) -/
def Obligations.SessionRequests : Prop :=
  ∀ (s : State) (sess req : Nat), s.dev.core.Asks sess req .observe →
    let c := s.dev.core
    let quietly (t : State) (op st : Nat) (body : List Nat) : Prop :=
      Touches [.host, .regs] s t ∧ RegsBut [] s t ∧ t.dev.core.Answered sess req op st body
    (∃ t, exec (.ping sess req) s = .next t ∧ quietly t 9 0 [] ∧ t.dev.core.host.subs = c.host.subs) ∧
    (c.Asks sess req .engineer → ∃ t, exec (.getCert sess req) s = .next t ∧
      quietly t 0x25 0 ((List.range 1330).map fun i => (certWord i).toNat) ∧ t.dev.core.host.subs = c.host.subs) ∧
    (∀ nonce, c.up.dbgLevel ≠ 2 → ∃ t, exec (.attest sess req nonce) s = .next t ∧
      if (∃ x, (c.session sess).lastAttest = some x ∧ c.plumb.elapsed < x + second) then quietly t 8 0x0F []
      else quietly t 8 0 (c.report nonce ++ [Config.attestSig (c.report nonce)]) ∧
        (t.dev.core.session sess).lastAttest = some c.plumb.elapsed) ∧
    (∀ x : SubReq, (x.kind = 1 ∧ x.addrs = [] ∧ x.minBand ≤ 2) ∨
        (x.kind = 2 ∧ x.addrs ≠ [] ∧ x.addrs.length ≤ 64 ∧ 6 ≤ x.periodK ∧ x.periodK ≤ 16 ∧
          ∀ a ∈ x.addrs, a % 4 = 0 ∧ (inTagWindow a = true ∨ (regAt a).isSome = true)) →
      c.host.subs.length < 64 → (c.host.subs.filter fun k => k.sess == sess).length < 16 →
      ∃ t, exec (.subscribe sess req x) s = .next t ∧
        quietly t 4 0 [c.host.nextSub, if x.kind = 2 then max x.periodK c.image.schedule.baseK else 0] ∧
        t.dev.core.host.subs = c.host.subs ++ [{ id := c.host.nextSub, sess := sess, kind := x.kind, changeOnly := x.changeOnly, periodK := x.periodK, minBand := x.minBand,
                                                 blockMask := x.blockMask, addrs := x.addrs }]) ∧
    (∀ id, let mine (k : Sub) : Bool := k.id == id && k.sess == sess
      ∃ t, exec (.unsubscribe sess req id) s = .next t ∧ quietly t 5 (if c.host.subs.any mine then 0 else 8) [] ∧
        t.dev.core.host.subs = c.host.subs.filter fun k => !mine k) ∧
    ∃ t, exec (.close sess req) s = .next t ∧ Touches [.host, .regs, .spr, .md] s t ∧ RegsBut [] s t ∧
      t.dev.core.Answered sess req 0x0A 0 [] ∧ t.dev.core.session sess = {} ∧ t.dev.core.Raised 0x0121 (path 1 3 sess) ∧
      t.dev.core.host.subs.map Sub.id = (c.host.subs.filter fun k => k.sess != sess).map Sub.id ∧
      t.dev.core.md = (if c.md.mode = .service ∧ c.host.svcOwner = some sess then { c.md with svcEnd := true } else c.md) ∧
      t.dev.core.host.svcOwner ≠ some sess

/-- A READ of a tag that is assigned answers its low or high word and changes nothing; of an address that is no multiple of 4 ALIGNMENT; of
HA_RX_DROP the count, which the read clears. A READ of PB_TIME_SEC_HI latches device time, of AX_POS_LO the axis and of RS_OFFERED LO the
counters of the stream, and each answers from what it latched. A READ_BLOCK of assigned tags answers their words in ascending order, and of
the four words of a stamp the oldest entry, which it removes. (04_host_access.md R191, 04_host_access.md R197, 01_two_hierarchies.md R7,
01_two_hierarchies.md R45, 02_time_and_ticks.md R64, 02_time_and_ticks.md R98, 10_motion_profiles.md R480, 12_signal_recording.md R563) -/
def Obligations.ReadRequests : Prop :=
  ∀ (s : State) (sess req : Nat), s.dev.core.Asks sess req .observe →
    let c := s.dev.core
    let ok (t : State) (l : List Part) (v : Word) : Prop :=
      Touches (.host :: .regs :: l) s t ∧ RegsBut [] s t ∧ t.dev.core.Answered sess req 1 0 [v.toNat]
    let typed (g : Nat) : Prop := g < 2 ^ 25 ∧ 2 ^ 60 ≤ (c.metaOf g).toNat
    (∀ g, typed g → (∃ t, exec (.read sess req (0x10000000 + 8 * g)) s = .next t ∧ ok t [] (loW (c.tagVal g))) ∧
      ∃ t, exec (.read sess req (0x10000004 + 8 * g)) s = .next t ∧ ok t [] (hiW (c.tagVal g))) ∧
    (∀ a, a % 4 ≠ 0 → ∃ t, exec (.read sess req a) s = .next t ∧ Touches [.host, .regs] s t ∧ RegsBut [] s t ∧
      t.dev.core.Answered sess req 1 7 [0]) ∧
    (∃ t, exec (.read sess req A.HA_RX_DROP) s = .next t ∧ Touches [.host, .regs] s t ∧ RegsBut [A.HA_RX_DROP] s t ∧
      t.dev.core.Answered sess req 1 0 [(c.reg A.HA_RX_DROP).toNat] ∧ t.dev.core.reg A.HA_RX_DROP = 0) ∧
    (∃ t, exec (.timeLatchRead sess req) s = .next t ∧ ok t [.plumb] (wd (secOf c.now / 2 ^ 32)) ∧
      t.dev.core.plumb = { c.plumb with latch := c.now }) ∧
    (∀ a, a < 192 → c.image.axes.contains a = true → let x := c.axis a
      ∃ t, exec (.axPosLatch sess req a) s = .next t ∧ ok t [.mot] (wi (x.pos / 2 ^ 32)) ∧
        t.dev.core.axis a = { x with latch := some (x.pos, x.vel, x.acc, x.actual) } ∧ ∀ k, k ≠ a → t.dev.core.axis k = c.axis k) ∧
    (∀ k, k < 16 → c.image.streams.contains k = true → let x := c.stream k
      ∃ t, exec (.rsCounterLatch sess req k) s = .next t ∧ ok t [.spr] (wd x.offered) ∧
        t.dev.core.stream k = { x with latch := x.counters } ∧ ∀ j, j ≠ k → t.dev.core.stream j = c.stream j) ∧
    (∀ n, n < 32 → c.tinOn n = true → ∃ t, exec (.tinStampRead sess req n) s = .next t ∧ Touches [.host, .regs, .plumb] s t ∧
      RegsBut [] s t ∧ t.dev.core.Answered sess req 3 0 (0xFFFFFFFF :: (c.tinWords n).map BitVec.toNat) ∧
      t.dev.core.tin n = { c.tin n with fifo := (c.tin n).fifo.drop 1 } ∧ ∀ k, k ≠ n → t.dev.core.tin k = c.tin k) ∧
    ∀ g n, 0 < n → n ≤ 2000 → (∀ i, i < n → typed (g + i)) → ∃ t, exec (.readBlock sess req (0x10000000 + 8 * g) (2 * n)) s = .next t ∧
      Touches [.host, .regs] s t ∧ RegsBut [] s t ∧ t.dev.core.Answered sess req 3 0
        (0xFFFFFFFF :: (List.range n).flatMap fun i => [(loW (c.tagVal (g + i))).toNat, (hiW (c.tagVal (g + i))).toNat])

/-- Items of PG_OLC_SWAP_SEC and of AX_FE_WINDOW of configured axes, by an engineer: each leaves (old AND NOT MASK) OR (VALUE AND MASK), in
their order, and all answer OK; no other register changes. Pairs of words over whole tags that the host may write wait, in order, for the
next input latch. With CYCLE_ALIGNED in Run and Service the items are held unanswered; CYCLE_ALIGNED_APPLY after the commit applies those
that are due and answers them. (04_host_access.md R192, 04_host_access.md R193, 04_host_access.md R195, 04_host_access.md R196,
01_two_hierarchies.md R46, 01_two_hierarchies.md R47) -/
def Obligations.WriteRequests : Prop :=
  ∀ (s : State),
    let c := s.dev.core
    let plain (x : WriteItem) : Prop := x.addr = A.PG_OLC_SWAP_SEC ∨
      ∃ a, a < 192 ∧ c.image.axes.contains a = true ∧ x.addr = A.AX_FE_WINDOW + 0x200 * a
    let stored (l : List WriteItem) (a : Nat) : Word :=
      l.foldl (fun v x => if x.addr = a then (v &&& ~~~ x.mask) ||| (x.value &&& x.mask) else v) (c.reg a)
    let allOk (l : List WriteItem) : List Nat := writeBody (l.map fun _ => 0)
    (∀ sess req flags items, c.MayWrite sess req → (c.session sess).role = .engineer → items ≠ [] → items.length ≤ 256 →
      (∀ x ∈ items, plain x) →
      (flags.testBit 0 = false ∨ c.running = false → ∃ t, exec (.write sess req flags items) s = .next t ∧
        Touches [.host, .regs] s t ∧ (∀ a, ¬ c.Booked a → t.dev.core.reg a = stored items a) ∧
        t.dev.core.Answered sess req 2 0 (allOk items)) ∧
      (flags.testBit 0 = true → c.running = true → ∃ t, exec (.write sess req flags items) s = .next t ∧
        Touches [.host, .regs] s t ∧ RegsBut [] s t ∧ t.dev.core.out = [] ∧
        t.dev.core.host.held = c.host.held ++ [{ sess := sess, role := .engineer, req := req, stopOnError := flags.testBit 1, items := items }])) ∧
    (∀ sess req g, ∀ l : List DWord, c.MayWrite sess req → l ≠ [] → l.length ≤ 128 → g + l.length ≤ 2 ^ 25 →
      (∀ i, i < l.length → (c.metaOf (g + i)).getLsbD 53 = true) →
      ∃ t, exec (.tagWindowWrite sess req (0x10000000 + 8 * g) (l.flatMap fun v => [loW v, hiW v])) s = .next t ∧
        Touches [.host, .regs, .prog] s t ∧ RegsBut [] s t ∧
        t.dev.core.prog = { c.prog with tagWrites := c.prog.tagWrites ++ (List.range l.length).map fun i => (g + i, l.getD i 0) } ∧
        t.dev.core.Answered sess req 2 0 (writeBody ((List.range (2 * l.length)).map fun _ => 0))) ∧
    ∀ h : HeldWrite, c.running = true → (c.prog.begun = false ∨ c.prog.ended = true) → c.host.held = [h] → h.due = true →
      h.sess < 16 → h.role = .engineer → (∀ x ∈ h.items, plain x) → h.items ≠ [] →
      (c.session h.sess).st = .open → (c.session h.sess).txSeq + 16 ≤ 2 ^ 48 →
      ∃ t, exec .cycleAlignedApply s = .next t ∧ Touches [.host, .regs] s t ∧
        (∀ a, ¬ c.Booked a → t.dev.core.reg a = stored h.items a) ∧ t.dev.core.host.held = [] ∧
        t.dev.core.Answered h.sess h.req 2 0 (allOk h.items)

/-- With no change in progress and no fault pending: Standby is accepted from Run and Service, Run from Standby with every required module up
and from Service, and Service by an engineer from Run; Run and Service only on a unit that is active and Run not beside a level 2 token. An
accepted request is noted with its session and answers the mode and the target; nothing else changes until the boundary. A request for the
present mode answers OK and changes nothing. The silence of the owner for DEV_SVC_TIMEOUT lets Service end at the boundary.
(03_modes_and_start.md R131, 03_modes_and_start.md R133, 03_modes_and_start.md R134, 04_host_access.md R184, 04_host_access.md R207) -/
def Obligations.ModeRequests : Prop :=
  ∀ (s : State),
    let c := s.dev.core
    let may : Bool := !c.image.pair.en || c.mr.role == .active
    let kept (t : State) (sess req st : Nat) (body : List Nat) : Prop :=
      Touches [.host, .regs] s t ∧ RegsBut [] s t ∧ t.dev.core.Answered sess req 6 st body
    let taken (t : State) (sess req : Nat) (m : Mode) : Prop :=
      Touches [.host, .regs, .md] s t ∧ RegsBut [] s t ∧ t.dev.core.md = { c.md with req := some (m, sess) } ∧
        t.dev.core.Answered sess req 6 0 [modeCode c.md.mode, modeCode m]
    (c.modeTarget = none → c.md.faults = [] → ∀ sess req,
      (c.Asks sess req .operate →
        (c.running = true → ∃ t, exec (.enterStandby sess req) s = .next t ∧ taken t sess req .standby) ∧
        (c.md.mode = .standby → ∃ t, exec (.enterStandby sess req) s = .next t ∧ kept t sess req 0 [4, 0]) ∧
        ((c.md.mode = .standby ∧ c.requiredUp = true) ∨ c.md.mode = .service → may = true → c.up.dbgLevel ≠ 2 →
          ∃ t, exec (.enterRun sess req) s = .next t ∧ taken t sess req .run) ∧
        (c.md.mode = .standby → c.requiredUp = false → ∃ t, exec (.enterRun sess req) s = .next t ∧ kept t sess req 9 [4, 0]) ∧
        (c.md.mode = .run → ∃ t, exec (.enterRun sess req) s = .next t ∧ kept t sess req 0 [5, 0])) ∧
      (c.Asks sess req .engineer → c.md.mode = .run → may = true →
        ∃ t, exec (.enterService sess req) s = .next t ∧ taken t sess req .service)) ∧
    ∀ o, c.host.svcOwner = some o → c.md.mode = .service → ∃ t, exec .serviceTimeout s = .next t ∧ Touches [.md, .plumb] s t ∧
      t.dev.core.md = { c.md with svcEnd := true } ∧
      (c.plumb.slewRemain = 0 → t.dev.core.plumb.elapsed =
        max c.plumb.elapsed ((c.session o).lastRx + c.regN A.DEV_SVC_TIMEOUT * ms))

/-- ABORT answers OK with the path, the time of arrival, the time of completion and the time taken. For a stream it stops a running stream, for
an axis it sets ABORTED, and for a capture unit it acts as DISARM, each leaving every other instance; a time beyond the bound of the level
raises 0x0041. A path that does not exist answers NO_SUCH_PATH, and block 0x0D READ_ONLY; nothing is stopped then. (04_host_access.md R212,
04_host_access.md R215, 12_signal_recording.md R551, 10_motion_profiles.md R469, 13_triggers_and_captures.md R597) -/
def Obligations.AbortRequests : Prop :=
  ∀ (s : State) (sess req took : Nat), s.dev.core.Asks sess req .operate →
    let c := s.dev.core
    let done (t : State) (p : Nat) (st : Nat) (l : List Part) : Prop :=
      Touches (.host :: .regs :: .plumb :: l) s t ∧ RegsBut [] s t ∧ t.dev.core.now = c.now + ns took ∧
        t.dev.core.Answered sess req 7 st ([p] ++ timeFields c.now ++ timeFields t.dev.core.now ++ [took])
    (∀ k, k < 16 → (c.stream k).st = .running → ∃ t, exec (.abort sess req (wd (path 0xB k allOf)) took) s = .next t ∧
      done t (path 0xB k allOf) 0 [.spr] ∧ (t.dev.core.stream k).st = .stopped ∧
      (∀ j, j ≠ k → t.dev.core.stream j = c.stream j) ∧ (100000 < took → t.dev.core.Raised 0x0041 0)) ∧
    (∀ a, a < 192 → c.image.axes.contains a = true → ∃ t, exec (.abort sess req (wd (path 0xA a allOf)) took) s = .next t ∧
      done t (path 0xA a allOf) 0 [.mot, .md] ∧ (t.dev.core.axis a).aborted = true ∧
      (∀ k, k ≠ a → t.dev.core.axis k = c.axis k) ∧ (100000 < took → t.dev.core.Raised 0x0041 0)) ∧
    (∀ u, u < 64 → c.unitDeclared u = true → (c.unit u).st = .armed ∨ (c.unit u).st = .arming →
      ∃ t, exec (.abort sess req (wd (path 0xC u allOf)) took) s = .next t ∧ done t (path 0xC u allOf) 0 [.cap] ∧
        t.dev.core.unit u = { c.unit u with st := .idle, cur := none, waiting := none } ∧
        (∀ k, k ≠ u → t.dev.core.unit k = c.unit k) ∧ (100000 < took → t.dev.core.Raised 0x0041 0)) ∧
    ∀ p ∈ ([(path 0xA 192 0, 4), (path 0xB allOf 0, 4), (path 16 0 0, 4), (path 0xD 0 0, 1), (path 6 0 0, 0x0B)] : List (Nat × Nat)),
      ∃ t, exec (.abort sess req (wd p.1) took) s = .next t ∧ done t p.1 p.2 []

/-- In Run and Service, after the commit of a base cycle in which its period starts and that it has not sampled, and outside them at the next
starting tick of its period, a value subscription reads its addresses: without CHANGE_ONLY, or with a value that differs from the last sent,
one notification of the values goes into the queue of its session when the queue has room, with the time of the base cycle or of the tick;
with CHANGE_ONLY and nothing new, 64 periods not yet over, none does. In a cycle that starts no period, or was sampled, nothing happens.
(04_host_access.md R200, 04_host_access.md R201, 04_host_access.md R203, 04_host_access.md R205) -/
def Obligations.ValueSubscriptionSamples : Prop :=
  ∀ (s : State) (id : Nat) (x : Sub),
    let c := s.dev.core
    let others (t : State) : Prop := ∀ n, n ≠ x.sess → t.dev.core.session n = c.session n
    let sent (t : State) (at_ : Time) (vals : List Word) : Prop :=
      (t.dev.core.session x.sess).queue = (c.session x.sess).queue ++
        [{ sub := id, kind := 2, nseq := x.nseq, lost := x.lost, time := at_, vals := vals }]
    let vals : List Word := x.addrs.map fun a => if c.readStatus x.sess a = 0 then s.dev.readWord x.sess a else 0
    let starts := c.prog.begun = true ∧ c.prog.cycleStart % (2 ^ (max x.periodK c.image.schedule.baseK) * tickLen) = 0 ∧
      x.sampledAt ≠ some c.prog.cycleStart
    c.host.subs.find? (fun k => k.id == id && k.kind == 2) = some x → x.sess < 16 →
    (c.running = true → starts →
      (c.prog.ended = true → x.changeOnly = false ∨ vals ≠ x.last ∨ 63 ≤ x.since → (c.session x.sess).queue.length < 64 →
        ∃ t, exec (.valueSubscriptionSample id) s = .next t ∧ Touches [.host] s t ∧ others t ∧ sent t c.prog.cycleStart vals) ∧
      (c.prog.ended = true → x.changeOnly = true → vals = x.last → x.since < 63 →
        ∃ t, exec (.valueSubscriptionSample id) s = .next t ∧ Touches [.host] s t ∧ ∀ n, t.dev.core.session n = c.session n) ∧
      (c.prog.ended = false → ∃ t, exec (.valueSubscriptionSample id) s = .next t ∧ t.dev.core.prog.ended = true)) ∧
    (c.running = true → ¬ starts → ∃ t, exec (.valueSubscriptionSample id) s = .next t ∧ Touches [] s t) ∧
    (c.running = false → x.changeOnly = false → (c.session x.sess).queue.length < 64 →
      let p := 2 ^ x.periodK * tickLen
      let at_ := if x.sampledAt = some (alignUp p c.now) then alignUp p c.now + p else alignUp p c.now
      ∃ t vs, exec (.valueSubscriptionSample id) s = .next t ∧ Touches [.host, .plumb] s t ∧ others t ∧
        t.dev.core.now = at_ ∧ vs.length = x.addrs.length ∧ sent t at_ vs)

/-- The last fragment of a SESSION_INIT to this device within the rate takes the lowest free channel for the role that its key may have and
sends SESSION_ACCEPT, with a device nonce, a ciphertext and a signature over the transcript; a wrong version, an unknown key, a role too
high or no free channel is rejected with reason 7, 1, 2 or 4, counted in HA_HS_REFUSED. SESSION_CONFIRM in time, whose key is the one
announced and whose signature verifies, opens the session under the keys of its transcript, with READY and 0x0120; another one frees the
channel with reason 3. A handshake 2 s old frees its channel with reason 6, and a session without traffic for HA_SESS_TIMEOUT ends with
0x0122. Nonces, ciphertexts and keys are free functions (log entry 82). (04_host_access.md R174, 04_host_access.md R176, 04_host_access.md
R177, 04_host_access.md R178, 04_host_access.md R179, 04_host_access.md R180, 04_host_access.md R183) -/
def Obligations.HandshakeDatagrams : Prop :=
  ∀ (s : State),
    let c := s.dev.core
    let started : Nat := if c.host.hsSecond.1 = c.second_ then c.host.hsSecond.2 else 0
    let rejected (t : State) (host reason : Nat) (l : List Part) : Prop :=
      Touches (.host :: .regs :: l) s t ∧ RegsBut [A.HA_HS_REFUSED] s t ∧
        t.dev.core.reg A.HA_HS_REFUSED = wd (sat32 (c.regN A.HA_HS_REFUSED + 1)) ∧
        t.dev.core.out.getLast? = some (.datagram 0x13 [host, reason])
    (∀ m : InitMsg, c.md.held = false → c.Takes 0x10 m.d → c.elsewhere m.d.target = false →
      (c.assemble (hsKey m.d) m.d m.d.length).2 = some 1252 → started < c.fld A.HA_RATE_CTL 23 16 →
      let kr := c.keyRole m.fp
      (m.d.version ≠ 1 → ∃ t, exec (.sessionInit m) s = .next t ∧ rejected t m.d.src 7 []) ∧
      (m.d.version = 1 → kr = 0 → ∃ t, exec (.sessionInit m) s = .next t ∧ rejected t m.d.src 1 []) ∧
      (m.d.version = 1 → kr ≠ 0 → m.role = 0 ∨ kr < m.role → ∃ t, exec (.sessionInit m) s = .next t ∧ rejected t m.d.src 2 []) ∧
      (m.d.version = 1 → m.role ≠ 0 → m.role ≤ kr →
        (∀ n, n < 16 → (c.session n).st = .free → (∀ k, k < n → (c.session k).st ≠ .free) →
          ∃ t, exec (.sessionInit m) s = .next t ∧ Touches [.host, .free] s t ∧
            let nonce := Config.freeNat c.free % 2 ^ 256
            let text := Config.kemText m.ek c.free
            let th1 := Config.sha3 [m.nonce, m.fp, m.role, m.ek, nonce, Config.identityKey, text, c.host.nextIdent]
            t.dev.core.session n = {
              st := .handshake, role := roleOf m.role, ident := c.host.nextIdent, fp := m.fp, addr := m.d.src, viaChain := m.d.viaChain
              hostNonce := m.nonce, devNonce := nonce, secret := Config.kemSecret m.ek c.free, th1 := th1
              lastRx := c.plumb.elapsed, hsStart := c.plumb.elapsed } ∧
            (∀ k, k ≠ n → t.dev.core.session k = c.session k) ∧ t.dev.core.out.getLast? =
              some (.datagram 0x11 [m.d.src, c.host.nextIdent, nonce, Config.identityKey, text, Config.sign th1])) ∧
        ((∀ n, n < 16 → (c.session n).st ≠ .free) → ∃ t, exec (.sessionInit m) s = .next t ∧ rejected t m.d.src 4 []))) ∧
    (∀ m : ConfirmMsg, c.md.held = false → c.Takes 0x12 m.d → c.elsewhere m.d.target = false → m.chan < 16 →
      (c.assemble (hsKey m.d) m.d m.d.length).2 = some 5261 →
      (c.session m.chan).st = .handshake → (c.session m.chan).ident = m.d.session →
      c.plumb.elapsed ≤ (c.session m.chan).hsStart + 2 * second →
      let x := c.session m.chan
      (Config.sha3 [m.hostKey] = x.fp → m.sigOk = true → ∃ t, exec (.sessionConfirm m) s = .next t ∧ Touches [.host, .regs] s t ∧
        RegsBut [] s t ∧
        (let y := t.dev.core.session m.chan
         let k := x.keyed m.hostKey
         y.st = .open ∧ y.role = x.role ∧ y.txSeq = 1 ∧ y.rxKey = k.rxKey ∧ y.txKey = k.txKey ∧ y.rxIv = k.rxIv ∧ y.txIv = k.txIv) ∧
        t.dev.core.Raised 0x0120 (path 1 3 m.chan) ∧
        t.dev.core.out.getLast? = some (.resp m.chan 0 0x41 0 [roleNum x.role, m.chan])) ∧
      (Config.sha3 [m.hostKey] ≠ x.fp ∨ m.sigOk = false → m.chan ∉ c.host.subs.map Sub.sess →
        ∃ t, exec (.sessionConfirm m) s = .next t ∧ rejected t x.addr 3 [] ∧ t.dev.core.session m.chan = {})) ∧
    (∀ n, (c.session n).st = .handshake → n ∉ c.host.subs.map Sub.sess → ∃ t, exec (.handshakeTimeout n) s = .next t ∧
      rejected t (c.session n).addr 6 [.plumb] ∧ t.dev.core.session n = {}) ∧
    ∀ n, n < 16 → (c.session n).st = .open → ∃ t, exec (.sessionTimeout n) s = .next t ∧
      Touches [.host, .regs, .plumb, .spr, .md] s t ∧ RegsBut [] s t ∧ t.dev.core.session n = {} ∧
      t.dev.core.Raised 0x0122 (path 1 3 n) ∧ (c.plumb.slewRemain = 0 → t.dev.core.plumb.elapsed =
        max c.plumb.elapsed ((c.session n).lastRx + c.regN A.HA_SESS_TIMEOUT * second))

/-- A PROBE to this device is answered with a beacon to its sender while the rate of the second allows; one whose header fails is counted in
HA_RX_DROP, and an address resolution or echo request for this device is answered. The periodic beacon goes to every host over IPv4 and IPv6
and its time is noted. A SECURE datagram of one fragment that is authentic and new lets its request wait and moves the window of sequence
numbers, or is answered BUSY where 64 wait; one that is not authentic only counts in HA_AUTH_FAIL. A first fragment of several waits for the
others, and a message not complete in time is dropped and counted in HA_REASM_FAIL. (04_host_access.md R162, 04_host_access.md R167,
04_host_access.md R168, 04_host_access.md R170, 04_host_access.md R171, 04_host_access.md R182, 04_host_access.md R189) -/
def Obligations.DiscoveryAndDatagrams : Prop :=
  ∀ (s : State),
    let c := s.dev.core
    let counted (t : State) (a : Nat) (l : List Part) : Prop := Touches (.regs :: l) s t ∧
      (∀ k, k ≠ a → t.dev.core.reg k = c.reg k) ∧ t.dev.core.reg a = wd (sat32 (c.regN a + 1)) ∧ t.dev.core.out = []
    (∀ (src target : Nat) (d0 : Dgram), let d : Dgram := { d0 with src := src, target := target }
      c.md.held = false → c.Takes 0x01 d → c.elsewhere d.target = false → d.target ≠ 0xFFFE →
      let n : Nat := if c.host.probeSecond.1 = c.second_ then c.host.probeSecond.2 else 0
      ∃ t, exec (.probe src target d0) s = .next t ∧
        if n < c.fld A.HA_RATE_CTL 15 8 then Touches [.host] s t ∧ t.dev.core.host = { c.host with probeSecond := (c.second_, n + 1) } ∧
          t.dev.core.out.getLast? = some (.datagram 0x02 (d.src :: c.beaconWords))
        else Touches [] s t ∧ t.dev.core.out = []) ∧
    (∀ (src target : Nat) (d0 : Dgram), let d : Dgram := { d0 with src := src, target := target }
      c.md.held = false →
      ((c.netIn d).2 = true → headerOk 0x01 d = false → ∃ t, exec (.probe src target d0) s = .next t ∧ counted t A.HA_RX_DROP []) ∧
      (d.viaChain = false → d.net.fragment = true → ∃ t, exec (.probe src target d0) s = .next t ∧ counted t A.HA_RX_DROP []) ∧
      ∀ p ∈ [(NetUse.arp, 1), (NetUse.ndp, 2), (NetUse.echo, 3)], d.viaChain = false → d.net.fragment = false → c.vlanOk d.net = true →
        c.ours d.net = true → d.net.use = p.1 →
          ∃ t, exec (.probe src target d0) s = .next t ∧ Touches [] s t ∧ t.dev.core.out = [.net p.2 d.src]) ∧
    (c.md.held = false → c.fld A.HA_RATE_CTL 7 0 ≠ 0 → ∃ t, exec .beacon s = .next t ∧ Touches [.host, .plumb] s t ∧
      t.dev.core.host = { c.host with lastBeacon := t.dev.core.plumb.elapsed } ∧
      ∀ a ∈ [0xFFFFFFFF, 0xFF02 * 2 ^ 112 + 1], .datagram 0x02 (a :: c.beaconWords) ∈ t.dev.core.out) ∧
    (∀ m : SecureMsg, c.md.held = false → c.Takes 0x20 m.d → c.elsewhere m.d.target = false →
      let d := m.d
      let x := c.session m.chan
      let next := max x.seqNext (d.seq + 1)
      let new : Session := { x with
        lastRx := c.plumb.elapsed, seqNext := next, seqSeen := (d.seq :: x.seqSeen).filter fun q => decide (next ≤ q + 64) }
      (m.authentic = false → ∃ t, exec (.secure m) s = .next t ∧ counted t A.HA_AUTH_FAIL []) ∧
      (m.authentic = true → x.st = .open → x.ident = d.session → x.fresh d.seq = true → 16 ≤ d.length → next < 2 ^ 48 →
        let others (t : State) : Prop := ∀ k, k ≠ m.chan → t.dev.core.session k = c.session k
        (d.frags = 1 → hostOp m.op = true → bodyFits m.op m.bodyLen m.count = true → d.length = 28 + m.bodyLen →
          (x.cache.any fun e => e.1 == m.req) = false →
          (x.waiting < 64 → ∃ t, exec (.secure m) s = .next t ∧ Touches [.host] s t ∧ t.dev.core.out = [] ∧ others t ∧
            t.dev.core.session m.chan = { new with waiting := x.waiting + 1 }) ∧
          (64 ≤ x.waiting → x.txSeq < 2 ^ 48 → ∃ t, exec (.secure m) s = .next t ∧ Touches [.host] s t ∧ others t ∧
            t.dev.core.session m.chan = { new with txSeq := x.txSeq + 1 } ∧
            t.dev.core.out.getLast? = some (.resp m.chan m.req (m.op + 0x80) 0x0F []))) ∧
        (1 < d.frags → (∀ r ∈ c.host.reasm, ¬ (r.key = m.chan ∧ r.base = d.seq - d.frag)) → ∃ t, exec (.secure m) s = .next t ∧
          Touches [.host] s t ∧ t.dev.core.out = [] ∧ others t ∧ t.dev.core.session m.chan = new ∧
          t.dev.core.host.reasm = c.host.reasm ++ [{ key := m.chan, base := d.seq - d.frag, count := d.frags
                                                     have_ := [(d.frag, d.length - 16)], first := c.plumb.elapsed }]))) ∧
    ∀ r ∈ c.host.reasm, ∃ t, exec (.reassemblyTimeout r.key r.base) s = .next t ∧ counted t A.HA_REASM_FAIL [.host, .plumb] ∧
      t.dev.core.host = { c.host with reasm := c.host.reasm.filter fun x => !(x.key == r.key && x.base == r.base) }

/-- Power-on, PORST_N, the watchdog outside Configure, VCORE restored, a keep-alive supply returned, the end of a thermal hold and a cold or
warm restart by the host start the core: no session is left, RESET_OUT_N and SVC_PHY_RST_N are high, device time runs on by the duration of
the start, from 0 where both keep-alive supplies were out, and DEV_RESTART_CAUSE takes the code of the cause. TEST_EN sampled high at
power-on or PORST_N holds core and channel P in reset instead. Of the two copies of the boot record the valid one of higher SEQ counts;
without one the device ends in Recovery (log entry 120). Where no pass fails and no trial runs: a Recovery request or the strap at a start
from power or PORST_N ends in Recovery, and so does a device without a set that starts. Else the set of FW_ACTIVE runs, or the other one;
the start is counted; three failed starts end in Minimal, a set that is not valid in Minimal with reason 3, and a missing configuration
image in Minimal with reason 2. An image without a safety reference and without pairing ends in Standby with 0x0002 and no failed start
left, or in Minimal with reason 2 where the image check refuses it. The slots of the boot flash stay, and power-on and PORST_N lock the
island. (03_modes_and_start.md R129, 03_modes_and_start.md R130, 03_modes_and_start.md R136, 03_modes_and_start.md R139,
03_modes_and_start.md R140, 03_modes_and_start.md R141, 03_modes_and_start.md R155, 02_time_and_ticks.md R63, 19_pins_power_package.md R814,
19_pins_power_package.md R817, 19_pins_power_package.md R819, 18_update_and_identity.md R794) -/
def Obligations.StartSequence : Prop :=
  ∀ (s : State) (env : StartEnv) (len sess req : Nat),
    let c := s.dev.core
    let u := c.up
    let asked : Prop := c.Asks sess req .engineer ∧ c.md.mode = .standby ∧ c.modeTarget = none ∧ c.md.faults = []
    (env.testEn = true → ∀ p ∈ ([(c.pw.kaLost = false, .powerOn env),
        (10000 ≤ len ∧ (c.md.held = false ∨ c.pw.testHold = true), .porstNAssert len env)] : List (Prop × Instr)),
      p.1 → ∃ t, exec p.2 s = .next t ∧ t.pending = s.pending ∧ t.dev.core.md.held = true ∧ t.dev.core.pw.testHold = true ∧
        t.dev.isl.p.inReset = true ∧ t.dev.core.now = c.now ∧ ∀ n, (t.dev.core.session n).st = .free) ∧
    (env.testEn = false → env.fails = [] → (∀ b, u.bootPick env = some b → b.trial = false) →
      ∀ p ∈ ([(c.pw.kaLost = false, .powerOn env, 0, true),
        (10000 ≤ len ∧ (c.md.held = false ∨ c.pw.testHold = true), .porstNAssert len env, 1, true),
        (c.md.held = false ∧ c.md.mode ≠ .configure, .watchdogExpiry env, 4, false),
        (c.pw.uv = true ∧ c.pw.kaLost = false ∧ c.pw.on = true ∧ c.pw.hold = false, .vcoreRestored env, 5, false),
        (c.pw.kaLost = true ∧ c.pw.on = true, .keepAliveReturn env, 0, true),
        (c.pw.hold = true ∧ c.pw.kaLost = false ∧ c.pw.on = true, .thermalHoldRelease env, 8, false),
        (asked, .coldRestart sess req env, 2, false), (asked, .warmRestart sess req env, 3, false)] : List (Prop × Instr × Nat × Bool)),
      p.1 → ∃ t, exec p.2.1 s = .next t ∧
        let d := t.dev.core
        t.pending = s.pending ∧ d.md.held = false ∧ d.md.cause = p.2.2.1 ∧ (∀ n, (d.session n).st = .free) ∧
          d.now = (if p.2.1 = .keepAliveReturn env then 0 else c.now) + env.ms * ms ∧ d.pw.resetN = true ∧ d.pw.phyN = true ∧
          d.up.fwA = u.fwA ∧ d.up.fwB = u.fwB ∧ d.up.cfgA = u.cfgA ∧ d.up.cfgB = u.cfgB ∧
          (p.2.1 = .powerOn env ∨ p.2.1 = .porstNAssert len env → t.dev.isl.locked = true) ∧
          (p.2.1 = .coldRestart sess req env ∨ p.2.1 = .warmRestart sess req env → .resp sess req 0x86 0 [4, 0] ∈ d.out) ∧
          (u.bootPick env = none → d.md.mode = .recovery) ∧
          ∀ b, u.bootPick env = some b →
            let v : Update := { u with boot := b }
            (b.reqRecovery = true → d.md.mode = .recovery ∧ d.up.boot.reqRecovery = false) ∧
            (b.reqRecovery = false → p.2.2.2 = true ∧ env.recovery = true → d.md.mode = .recovery) ∧
            (b.reqRecovery = false → ¬ (p.2.2.2 = true ∧ env.recovery = true) →
              match (if v.startable env b.fwActive then some b.fwActive
                     else if v.startable env (!b.fwActive) then some (!b.fwActive) else none) with
              | none => d.md.mode = .recovery
              | some slot =>
                let f := (u.fwOf slot).getD {}
                d.up.boot.boots = (b.boots + 1) % 2 ^ 32 ∧ d.up.boot.fwActive = slot ∧ d.up.runFw = some f ∧
                  (b.startFails = 3 → d.md.mode = .minimal ∧ d.md.reason = if b.lastFail = 2 then 5 else 1) ∧
                  (b.startFails < 3 → firmwareOk f = false → d.md.mode = .minimal ∧ d.md.reason = 3) ∧
                  (b.startFails < 3 → firmwareOk f = true → b.cfgActive = none → d.md.mode = .minimal ∧ d.md.reason = 2) ∧
                  (b.startFails < 3 → firmwareOk f = true → ∀ cs i, b.cfgActive = some cs → u.cfgOf cs = some i →
                    (if cs then env.cfgBOk else env.cfgAOk) = true → f.formats.contains i.format = true → i.safetyRef = 0 →
                    i.pair.en = false →
                    (d.md.mode = .standby ∧ d.up.boot.startFails = 0 ∧ d.Raised 0x0002 0 ∧ d.up.runCfg = some i) ∨
                      (d.md.mode = .minimal ∧ d.md.reason = 2 ∧ d.up.runCfg = none))))

/-- A MODE request for Recovery in Standby is answered and restarts the device into Recovery with cause 7. The loss of both keep-alive supplies
resets both channels of the island; the loss of power, and a junction at 125 °C or above that is no hold yet, reset channel P; the second
sample of VCORE 8 mV and more below 0.62 V resets the core alone and counts in PW_UV_RESETS. Each of these holds the core in reset, without
sessions, and device time stands. (03_modes_and_start.md R131, 03_modes_and_start.md R155, 19_pins_power_package.md R817,
19_pins_power_package.md R819, 19_pins_power_package.md R835, 18_update_and_identity.md R799, 17_safety_island.md R731) -/
def Obligations.HoldsInReset : Prop :=
  ∀ (s : State) (sess req mv : Nat) (env : StartEnv) (temps : List Int),
    let c := s.dev.core
    let held (t : State) (k : Nat) : Prop := t.pending = s.pending ∧ t.dev.core.md.held = true ∧ t.dev.core.md.cause = k ∧
      (∀ n, (t.dev.core.session n).st = .free) ∧ t.dev.core.now = c.now ∧ t.dev.core.up.fwA = c.up.fwA ∧ t.dev.core.up.fwB = c.up.fwB
    (c.Asks sess req .engineer → c.md.mode = .standby → c.modeTarget = none → c.md.faults = [] →
      ∃ t, exec (.enterRecovery sess req env) s = .next t ∧ t.dev.core.md.mode = .recovery ∧ t.dev.core.md.cause = 7 ∧
        (env.recAOk = true ∨ env.recBOk = true → t.dev.core.up.boot.reqRecovery = false) ∧ (∀ n, (t.dev.core.session n).st = .free) ∧ .resp sess req 0x86 0 [4, 0] ∈ t.dev.core.out) ∧
    (∃ t, exec .keepAliveLoss s = .next t ∧ held t 0 ∧ t.dev.core.pw = { t.dev.core.pw with kaLost := true, vkaA := false, vkaB := false } ∧
      t.dev.isl.p = { inReset := true } ∧ t.dev.isl.w = { inReset := true } ∧ t.dev.isl.safeOff ∧ t.dev.core.Raised 0x0D81 islPath) ∧
    (∃ t, exec .powerLoss s = .next t ∧ held t 0 ∧ t.dev.core.pw.on = false ∧ t.dev.isl.p = { inReset := true } ∧
      t.dev.isl.w = s.dev.isl.w ∧ t.dev.isl.safeOff ∧ t.dev.core.prog.jr.finalPending = false) ∧
    (c.pw.hold = false → 2000 ≤ (junction ((List.range 8).map fun n => temps.getD n (c.pw.temps.getD n 0))).1 →
      ∃ t, exec (.tempSample temps) s = .next t ∧ held t 8 ∧ t.dev.core.pw.hold = true ∧ t.dev.isl.p = { inReset := true } ∧
        t.dev.isl.w = s.dev.isl.w ∧ t.dev.isl.safeOff) ∧
    (c.md.held = false → c.pw.below = 1 → mv < 612 → ∃ t, exec (.paceSample mv) s = .next t ∧ held t 5 ∧ t.dev.isl = s.dev.isl ∧
      t.dev.core.pw.uv = true ∧ t.dev.core.pw.uvResets = sat32 (c.pw.uvResets + 1))

/-- A keep-alive input, the other one staying, or a feed that changes reports the loss or the return and gives the level to its class 4 tags.
PACE_REQ is noted, and an assertion with no episode open begins one with 0x0F06, an episode being over 1 ms after the throttle reached zero.
Loss of the PLL raises 0x0281 and, in Run or Service, asks for Standby. An uncorrectable DRAM error is counted with its address and raises
0x0E41; a corrected one is counted and raises 0x0E01 at most once per second. PFW gives 1 to its tag and, enabled, makes the staging set the
FINAL record, after one still being written is complete, and abandons a compaction; its commit appends the record and raises 0x0807; its end
clears the state. No register changes but by events, and no other part of the device. (19_pins_power_package.md R719,
19_pins_power_package.md R720, 19_pins_power_package.md R818, 19_pins_power_package.md R829, 02_time_and_ticks.md R106, 07_cycle_program.md
R327, 07_cycle_program.md R328, 07_cycle_program.md R331, 04_host_access.md R833) -/
def Obligations.PowerEvents : Prop :=
  ∀ (s : State),
    let c := s.dev.core
    let watch : List Part := [.host, .regs, .spr, .cap, .ln, .mem]
    let told (t : State) (l : List Part) : Prop := Touches l s t ∧ RegsBut [] s t
    let tags (t : State) (src : Nat) (v : DWord) : Prop :=
      ∀ d ∈ c.image.tags, tagClass d.tag = 4 → d.binding = Config.hwPoint src → t.dev.core.tagVal d.tag = v
    let tells (t : State) (code p : Nat) : Prop := c.md.held = false → t.dev.core.Raised code p
    (∀ b ok : Bool, c.pw.kaLost = false → (if b then c.pw.vkaB else c.pw.vkaA) ≠ ok → ok = true ∨ (if b then c.pw.vkaA else c.pw.vkaB) = true →
      ∃ t, exec (.keepAliveInputChange b ok) s = .next t ∧ told t (.pw :: watch) ∧
        t.dev.core.pw = (if b then { c.pw with vkaB := ok } else { c.pw with vkaA := ok }) ∧
        tags t (if b then 36 else 35) (if ok then 1 else 0) ∧ tells t (if ok then 0x0F02 else 0x0F01) (path 15 0 (if b then 1 else 0))) ∧
    (∀ b ok : Bool, (if b then c.pw.feedB else c.pw.feedA) ≠ ok → ok = true ∨ c.image.pair.en = false →
      ∃ t, exec (.feedChange b ok) s = .next t ∧ told t (.pw :: watch) ∧
        t.dev.core.pw = (if b then { c.pw with feedB := ok } else { c.pw with feedA := ok }) ∧
        tags t (if b then 34 else 33) (if ok then 1 else 0) ∧ tells t (if ok then 0x0F04 else 0x0F03) (path 15 0 (if b then 3 else 2))) ∧
    (∀ level, ∃ t, exec (.paceReqChange level) s = .next t ∧ told t [.pw, .host, .regs] ∧
      (let gone := match c.pw.zeroFrom with | some z => decide (z + ms ≤ c.plumb.elapsed) | none => false
       let p := if gone then { c.pw with ep06 := false, ep07 := false } else c.pw
       let begins := level && !p.paceReq && !p.ep06
       t.dev.core.pw = { p with paceReq := level, ep06 := p.ep06 || begins, zeroFrom := if begins then none else p.zeroFrom } ∧
         (begins = true → tells t 0x0F06 (path 15 1 0)) ∧ (begins = false → t.dev.core.host = c.host))) ∧
    (∃ t, exec .pllLockLoss s = .next t ∧ told t [.plumb, .md, .host, .regs] ∧ t.dev.core.plumb = { c.plumb with pllLocked := false } ∧
      t.dev.core.md = (if c.running then { c.md with faults := c.md.faults ++ [.pll] } else c.md) ∧ tells t 0x0281 (path 2 0 allOf)) ∧
    (∀ addr, c.md.held = false → ∃ t, exec (.dramEccError addr true) s = .next t ∧ told t [.mem, .host, .regs] ∧
      t.dev.core.mem = { c.mem with eccUncorr := sat32 (c.mem.eccUncorr + 1), eccAddr := addr % 2 ^ 64 } ∧
      t.dev.core.Raised 0x0E41 (path 14 6 0)) ∧
    (∀ addr, c.md.held = false → ∃ t, exec (.dramEccError addr false) s = .next t ∧ told t [.mem, .host, .regs] ∧
      t.dev.core.mem = { c.mem with eccCorr := sat32 (c.mem.eccCorr + 1) } ∧
      match lastEvent c 0x0E01 (path 14 6 0) with
      | some l => if l + second ≤ c.plumb.elapsed then t.dev.core.Raised 0x0E01 (path 14 6 0) else t.dev.core.host = c.host
      | none => t.dev.core.Raised 0x0E01 (path 14 6 0)) ∧
    (let j := c.prog.jr
     (∃ t, exec .pfwAssert s = .next t ∧ told t (.prog :: watch) ∧ tags t 32 1 ∧
       (c.flag A.PG_PFW_CTL 8 = false ∨ j.pfw = true → t.dev.core.prog = c.prog) ∧
       (c.flag A.PG_PFW_CTL 8 = true → j.pfw = false → j.writeFail = false → j.finalPending = true →
         (let k := t.dev.core.prog.jr
          k.pfw = true ∧ k.finalPending = true ∧ k.final = j.staging ∧ k.finalAt = (j.capture, j.captureCycle) ∧ k.staging = [] ∧
            k.active = (j.append 3 c.image.imageId j.finalAt.1 (stagingBlocks j.final)).active ∧ t.dev.core.Raised 0x0807 (pgPath 1))) ∧
       (c.flag A.PG_PFW_CTL 8 = true → j.pfw = false → j.writeFail = false → j.finalPending = false → t.dev.core.prog = { c.prog with jr := { j with
         pfw := true, finalPending := true, final := j.staging, finalAt := (j.capture, j.captureCycle), staging := [], compacting := false } })) ∧
     (j.finalPending = true → ∃ t, exec .finalRecordCommit s = .next t ∧ told t [.prog, .host, .regs] ∧ t.dev.core.Raised 0x0807 (pgPath 1) ∧
       ∃ ovr full, t.dev.core.prog = { c.prog with jr := { j.append 3 c.image.imageId j.finalAt.1 (stagingBlocks j.final) with
         finalPending := false, final := [], finalIncomplete := false, recordCycle := j.finalAt.2, overBudget := ovr, compacting := full } }) ∧
     (∃ t, exec .pfwDeassert s = .next t ∧ told t (.prog :: watch) ∧ tags t 32 0 ∧
       t.dev.core.prog = { c.prog with jr := { j with pfw := false } }))

/-- A sample of VCORE that ends in no reset is noted with its band, and the throttle follows: 50 per cent at once where the sample is 8 mV and
more below 0.62 V, at most 25 per cent or the level of a request at 0.68 V and above, and one step of 12.5 per cent down above 0.705 V
without a request. A sample below 0.692 V with no episode open raises 0x0F07. A sample of the eight sensors with a junction below 125 °C is
noted with its maximum; a junction at PW_TEMP_WARN, above 105 °C and at 115 °C and above raises 0x0F05, 0x0F41 and 0x0F81 where no episode
of it is open, with the lowest sensor that reads it, and 0x0F81 asks for Standby in Run or Service. (19_pins_power_package.md R817,
19_pins_power_package.md R818, 19_pins_power_package.md R819, 05_fabric_and_compiler_contract.md R236, 03_modes_and_start.md R130) -/
def Obligations.PaceAndTemperature : Prop :=
  ∀ (s : State),
    let c := s.dev.core
    (∀ mv, c.md.held = true ∨ c.pw.below ≠ 1 ∨ 620 ≤ mv →
      ∃ t, exec (.paceSample mv) s = .next t ∧ Touches [.pw, .fab, .host, .regs] s t ∧ RegsBut [A.FB_PACE] s t ∧
        (let d := t.dev.core
         d.pw.vcore = mv ∧ d.pw.band = nextBand c.pw.band mv ∧
           d.pw.last5 = (d.fab.throttle :: c.pw.last5).take 5 ∧ d.pw.uvResets = c.pw.uvResets ∧
           (mv < 612 → d.fab.throttle = 500 ∧ d.pw.below = min 2 (c.pw.below + 1)) ∧ (620 ≤ mv → d.pw.below = 0) ∧
           (680 ≤ mv → d.fab.throttle ≤ max 250 c.reqLimit) ∧
           (705 < mv → c.reqLimit = 0 → d.pw.band = 0 ∧ d.fab.throttle = min 250 (c.fab.throttle - 125)) ∧
           (mv < 692 → c.pw.ep07 = false → d.pw.ep07 = true ∧ (c.md.held = false → d.Raised 0x0F07 (path 15 1 0))))) ∧
    (∀ temps : List Int,
      let l := (List.range 8).map fun n => temps.getD n (c.pw.temps.getD n 0)
      let top := junction l
      top.1 < 2000 ∨ c.pw.hold = true → ∃ t, exec (.tempSample temps) s = .next t ∧
        Touches [.pw, .md, .host, .regs, .spr, .cap, .ln, .mem] s t ∧ RegsBut [] s t ∧
        (let d := t.dev.core
         d.pw.temps = l ∧ d.pw.tempMax = max c.pw.tempMax top.1 ∧ d.pw.hold = c.pw.hold ∧
           (16 * (c.regN A.PW_TEMP_WARN : Int) ≤ top.1 → c.pw.ep05 = none → d.pw.ep05 = some (16 * (c.regN A.PW_TEMP_WARN : Int)) ∧
             (c.md.held = false → d.Raised 0x0F05 (path 15 2 top.2))) ∧
           (1680 < top.1 → c.pw.ep41 = false → d.pw.ep41 = true ∧ (c.md.held = false → d.Raised 0x0F41 (path 15 2 top.2))) ∧
           (1840 ≤ top.1 → c.pw.ep81 = false → d.pw.ep81 = true ∧ (c.md.held = false → d.Raised 0x0F81 (path 15 2 top.2) ∧
             d.md = (if c.running then { c.md with faults := c.md.faults ++ [.thermal] } else c.md))) ∧
           (top.1 < 1840 → d.md = c.md)))

/-- At the next multiple of Tc a cycle begins, not ended, not released and not captured. The predicates of every tile are cleared. In Standby
nothing else happens, but that the writes held since the cycle before are due at its COMMIT_END. In Run and Service the cycle count goes up,
and the cycle is skipped and counted where the one before asked for it, else its latch phase begins. A request that waits is taken: Standby
to Run from cycle 1, where every required module is operational and a unit of a pair is active, Run or Service to Standby, which ends
Service and the writes held, and Run to Service, which its session owns while it is open. Each change raises 0x0001. (03_modes_and_start.md
R130, 03_modes_and_start.md R132, 02_time_and_ticks.md R66, 07_cycle_program.md R305, 07_cycle_program.md R306, 07_cycle_program.md R312,
07_cycle_program.md R313, 04_host_access.md R195, 14_ashlar_line_ports.md R638) -/
def Obligations.BaseCycleStart : Prop :=
  ∀ (s : State),
    let c := s.dev.core
    let p := c.prog
    c.md.held = false → (p.begun = false ∨ (p.ended = true ∧ ∀ k, k < 16 → ∀ v, (c.tile k).win = some v → v.complete = true)) →
    p.olc.st ≠ .armed → p.olc.st ≠ .swapping → c.mr.toPending = none → c.md.faults = [] → c.md.svcEnd = false → c.md.autoRun = false →
    c.md.abortAfter = false →
    let began (t : State) : Prop :=
      let d := t.dev.core
      t.pending = s.pending ∧ t.dev.isl = s.dev.isl ∧ d.now = c.nextCycle ∧ d.prog.cycleStart = c.nextCycle ∧ d.prog.begun = true ∧
        d.prog.ended = false ∧ d.prog.released = false ∧ d.prog.captured = false ∧ d.prog.overrun = false ∧ d.md.req = none ∧
        ∀ k, k < 16 → (d.tile k).preds = 0
    let latch (t : State) : Prop := t.dev.core.prog.phase = .latch ∧ t.dev.core.prog.winBase = c.nextCycle ∧
      ∀ k, k < 16 → (t.dev.core.tile k).waitWins = []
    (c.md.mode = .standby → c.md.req = none → ∃ t, exec .baseCycleStart s = .next t ∧ began t ∧ Touches [.plumb, .prog, .fab, .host] s t ∧
      t.dev.core.regs = c.regs ∧ t.dev.core.host = { c.host with held := c.host.held.map fun h => { h with armed := true } }) ∧
    (c.running = true → c.md.req = none → ∃ t, exec .baseCycleStart s = .next t ∧ began t ∧ t.dev.core.md.mode = c.md.mode ∧
      t.dev.core.prog.cycle = (p.cycle + 1) % 2 ^ 64 ∧
      (p.skipNext = true → t.dev.core.prog.phase = .skipped ∧ t.dev.core.prog.skipping = true ∧ t.dev.core.prog.skipNext = false ∧
        t.dev.core.prog.skipTotal = sat32 (p.skipTotal + 1)) ∧
      (p.skipNext = false → p.skipping = false → latch t)) ∧
    (∀ q, c.md.mode = .standby → c.md.req = some (.run, q) → c.requiredUp = true → c.image.pair.en = false ∨ c.mr.role = .active → ∃ t, exec .baseCycleStart s = .next t ∧ began t ∧
      t.dev.core.md.mode = .run ∧ t.dev.core.prog.cycle = 1 ∧ latch t ∧ t.dev.core.Raised 0x0001 0) ∧
    (∀ q, c.running = true → c.md.req = some (.standby, q) → ∃ t, exec .baseCycleStart s = .next t ∧ began t ∧
      t.dev.core.md.mode = .standby ∧ t.dev.core.prog.phase = .notRunning ∧ t.dev.core.host.svcOwner = none ∧
      t.dev.core.host.held = [] ∧ t.dev.core.Raised 0x0001 0) ∧
    (∀ q, c.md.mode = .run → c.md.req = some (.service, q) → (c.session q).st = .open → ∃ t, exec .baseCycleStart s = .next t ∧
      began t ∧ t.dev.core.md.mode = .service ∧ t.dev.core.host.svcOwner = some q ∧ t.dev.core.Raised 0x0001 0)

/-- A window starts at its START on a tile that is free; a tile that is not free notes it. A SLACK window is open until its end, except where it
is kept for a transfer. At its completion a window is complete and its use counts, and a check error sets FAULT, raises 0x0681 and takes the
device out of Run and Service; at START + LEN a SLACK window closes, late where a work item still runs, which is then over its budget, with
0x0641, and another one that is not complete is late and counted, which overruns the cycle for LATCH, LOGIC and COMMIT before the release.
COMMIT_END in a cycle that has overrun empties every buffer, counts the overrun, lets the next cycle be skipped and raises 0x0801; in one
that has not, it applies and empties the buffers and ends the run of overruns. A single output word waiting reaches its output.
(05_fabric_and_compiler_contract.md R244, 05_fabric_and_compiler_contract.md R245, 05_fabric_and_compiler_contract.md R251,
05_fabric_and_compiler_contract.md R252, 05_fabric_and_compiler_contract.md R253, 05_fabric_and_compiler_contract.md R254,
05_fabric_and_compiler_contract.md R255, 05_fabric_and_compiler_contract.md R265, 06_work_item_queues.md R277, 07_cycle_program.md R313,
07_cycle_program.md R315, 07_cycle_program.md R344) -/
def Obligations.WindowsAndCommit : Prop :=
  ∀ (s : State),
    let c := s.dev.core
    let p := c.prog
    (∀ (k : Fin 16) w, c.cycling = true → (c.windows k.val)[(c.tile k.val).nextIdx]? = some w →
      let at_ := p.cycleStart + ns w.start
      let start := p.winBase + ns w.start
      let open_ : RunWin := { idx := (c.tile k.val).nextIdx, kind := w.kind, start := start, len := w.len }
      ((c.tile k.val).free = true → (c.tile k.val).waitWins = [] →
        (w.kind ≠ 4 → ∃ t, exec (.windowStart k) s = .next t ∧ t.dev.core.now = max c.now at_ ∧ (t.dev.core.tile k.val).win = some open_ ∧
          ∀ j, j < 16 → j ≠ k.val → (t.dev.core.tile j).win = (c.tile j).win) ∧
        (w.kind = 4 → max c.now at_ < start + ns w.len → ∃ t, exec (.windowStart k) s = .next t ∧ t.dev.core.now = max c.now at_ ∧
          (t.dev.core.tile k.val).win = some open_ ∧
          (t.dev.core.tile k.val).slackEnd = (if c.xferWindow w then none else some (start + ns w.len)))) ∧
      ((c.tile k.val).free = false ∨ (c.tile k.val).waitWins ≠ [] → ∃ t, exec (.windowStart k) s = .next t ∧ Touches [.plumb, .fab] s t ∧
        t.dev.core.now = max c.now at_ ∧
        t.dev.core.tile k.val = { c.tile k.val with waitWins := (c.tile k.val).waitWins ++ [((c.tile k.val).nextIdx, false)] } ∧
        ∀ j, j ≠ k.val → t.dev.core.tile j = c.tile j)) ∧
    (∀ (k : Fin 16) v, (c.tile k.val).win = some v → v.complete = false →
      let x := c.tile k.val
      let late := decide (v.start + ns v.len ≤ c.now)
      (v.kind ≠ 4 → x.waitWins = [] → ∃ t, exec (.windowComplete { t := k }) s = .next t ∧ Touches [.fab, .prog, .host, .regs] s t ∧ RegsBut [] s t ∧
        t.dev.core.tile k.val = { x with
          win := some { v with complete := true, late := v.late || late }
          late := if !v.late && late then sat32 (x.late + 1) else x.late
          maxUse := max x.maxUse (min 65535 ((c.now - v.start) * 1000 / ns v.len)) }) ∧
      (v.kind ≠ 4 → x.waitWins = [] → ∃ t, exec (.windowComplete { t := k, check := true }) s = .next t ∧ Touches [.fab, .prog, .md, .host, .regs] s t ∧
        RegsBut [] s t ∧ t.dev.core.Raised 0x0681 (path 6 k 0) ∧ (t.dev.core.tile k.val).fault = true ∧
        (t.dev.core.tile k.val).win = some { v with complete := true, late := v.late || late } ∧
        t.dev.core.md = (if c.running then { c.md with faults := c.md.faults ++ [.tileCheck] } else c.md)) ∧
      (∀ r, v.kind = 4 → x.run = some r → r.ovr = false → ∃ t, exec (.windowDeadline k) s = .next t ∧
        Touches [.plumb, .fab, .host, .regs] s t ∧ RegsBut [] s t ∧ t.dev.core.now = max c.now (v.start + ns v.len) ∧
        t.dev.core.tile k.val = { x with
          slackEnd := none, win := some { v with complete := true, late := true }, late := sat32 (x.late + 1),
          run := some { r with ovr := true, discard := true } } ∧ t.dev.core.Raised 0x0641 (path 6 k 0)) ∧
      (v.kind = 4 → x.run = none → x.waitWins = [] → ∃ t, exec (.windowDeadline k) s = .next t ∧
        Touches [.plumb, .fab] s t ∧ t.dev.core.now = max c.now (v.start + ns v.len) ∧
        t.dev.core.tile k.val = { x with slackEnd := none, win := some { v with complete := true, late := false } }) ∧
      (v.kind ≠ 4 → v.late = false → ∃ t, exec (.windowDeadline k) s = .next t ∧ Touches [.plumb, .fab, .prog] s t ∧
        t.dev.core.now = max c.now (v.start + ns v.len) ∧
        t.dev.core.tile k.val = { x with win := some { v with late := true }, late := sat32 (x.late + 1) } ∧
        t.dev.core.prog = (if v.kind ≤ 2 ∧ p.released = false then { p with overrun := true } else p))) ∧
    (p.begun = true → p.ended = false → c.running = true → p.phase ≠ .notRunning → p.skipping = false →
      ∃ t, exec .commitEnd s = .next t ∧
        let d := t.dev.core
        d.prog.ended = true ∧ d.prog.phase = .housekeeping ∧ d.now = max c.now (p.cycleStart + ns c.image.schedule.commitEnd) ∧
          (∀ k, k < 16 → (d.tile k).commit = [] ∧ (d.tile k).itemCommit = []) ∧
          (c.overran = true → d.prog.overrun = true ∧ d.prog.released = p.released ∧ d.prog.skipNext = true ∧
            d.prog.ovrTotal = sat32 (p.ovrTotal + 1) ∧ d.Raised 0x0801 (pgPath 0) ∧ d.ash = c.ash ∧ d.mot = c.mot ∧ d.lp = c.lp) ∧
          (c.overran = false → p.noRelease = false → c.image.pair.en = false → d.prog.released = true ∧ d.prog.ovrConsec = 0 ∧
            d.md.committed = true ∧
            ∀ (k : Fin 16) (a : Nat) (v : Word), (c.tile k.val).commit = [{ target := .out a, vals := [v] }] → (c.tile k.val).itemCommit = [] →
              (∀ j, j < 16 → j ≠ k.val → (c.tile j).commit = [] ∧ (c.tile j).itemCommit = []) →
              Ashlar.BuiltOnly { c.ash with
                out := SMap.set 0 c.ash.out (outAddr a) v, aborted := c.ash.aborted.filter (· != a / 2048) } d.ash ∧ d.mot = c.mot ∧ d.lp = c.lp))

/-- In Run and Service, at a period start of the loop inside the corner, without an injection, a mode request or an ABORT that waits, with the
repetitive controller off and the feedback used as it is: a CLOSED loop ramps the setpoint, forms the error and the table gain, adds the
integral increment where the previous limit lets it or preloads the integrator where it recloses, sums P, I, D and F and limits the output;
a MANUAL loop writes MAN_OUT under the limits; an OPEN one writes nothing. The output word reaches its point. An update whose predecessor
still runs is counted late and computes nothing. An injection whose reason has come ends with it. Other loops stay. (08_control_loops.md
R359, 08_control_loops.md R361, 08_control_loops.md R362, 08_control_loops.md R366, 08_control_loops.md R368, 08_control_loops.md R369,
08_control_loops.md R370, 08_control_loops.md R372, 08_control_loops.md R374, 08_control_loops.md R380, 09_learning_and_tuning.md R431) -/
def Obligations.LoopUpdates : Prop :=
  ∀ (s : State) (n : Nat),
    let c := s.dev.core
    let l := c.loop n
    let at_ := c.now / tickLen * tickLen
    let others (t : State) : Prop := ∀ k, k ≠ n → t.dev.core.loop k = c.loop k
    (∀ r, l.inj.running = true ∨ l.inj.waiting = true → c.injReason n = some r → ∃ t, exec (.injectionEnd n) s = .next t ∧
      Touches [.lp, .host, .regs] s t ∧ RegsBut [] s t ∧ others t ∧
      t.dev.core.loop n = { l with inj := { l.inj with running := false, waiting := false, x := 0, endReason := r } } ∧
      t.dev.core.Raised (if r ≤ 2 then 0x0916 else 0x0943) (lpPath n 2)) ∧
    (c.running = true → c.image.loops.contains n = true → tickOf at_ % c.loopTicks n = 0 → c.plumb.stepTo ≤ at_ →
      (∀ b, l.lastStart = some b → l.fresh = true ∨ b < at_) →
      (∀ b, l.busyUntil = some b → at_ ≤ b → ∃ t, exec (.loopUpdate n) s = .next t ∧ Touches [.lp, .host, .regs] s t ∧
        RegsBut [lpA A.LP_LATE n, A.LE_LATE_TOTAL] s t ∧ others t ∧
        t.dev.core.loop n = { l with busyUntil := none, lastStart := some at_, fresh := false }) ∧
      (l.busyUntil = none → c.outsideCorner = false → l.modeReq = none → l.abortReq = false → l.inj.running = false →
        l.inj.waiting = false → c.rcSrc n = 0 → c.lpFld A.LP_STALE_CTL n 31 30 = 0 →
        ∃ t, exec (.loopUpdate n) s = .next t ∧ Touches [.lp, .ash, .host, .regs, .spr, .cap, .ln] s t ∧
          RegsBut [lpA A.LP_LIMITED n, lpA A.RC_PASS_PAUSED n] s t ∧ others t ∧
          let d := t.dev.core
          let m := d.loop n
          let prev := if l.wrote then l.u else l.manReq.getD l.man
          let limited (v : Int) : Int := d.rateLimit n prev (clampI (d.lpQ15 A.LP_OUT_LIM n 0) (d.lpQ15 A.LP_OUT_LIM n 16) v)
          let written : Prop := m.wrote = true ∧ m.out = d.convertOut n m.u ∧ d.ash = (c.outPoint (c.lpFld A.LP_OUT_TAG n 24 0) m.out).ash
          m.mode = l.mode ∧ m.sp = l.spReq.getD l.sp ∧ m.man = l.manReq.getD l.man ∧ m.lastStart = some at_ ∧ m.lastUpd = some at_ ∧
            (∀ x pt, c.point (c.lpFld A.LP_FB_TAG n 24 0) = some (x, pt) →
              m.raw = c.inForced (c.lpFld A.LP_FB_TAG n 24 0) x pt ∧ m.y = d.convertIn n m.raw) ∧
            (l.mode = .closed →
              let yf := if l.started then l.yf else m.y
              let r := if d.injPoint n = 1 then satQ15 m.r else m.r
              let p := d.gain A.LP_KP n m.eg
              let dd := -(d.gain A.LP_KD n (m.yf - yf))
              let f := sat40 (d.gain A.LP_KFF n r + d.lpQ15 A.LP_BIAS n 0 * 32768)
              let inc := d.gain A.LP_KI n m.eg
              let lim : Int := d.lpFld A.LP_ILIM n 15 0 * 32768
              m.r = d.ramp n (if l.started then l.r else m.y) m.sp ∧ m.e = satQ15 (r - m.y) ∧ m.eg = d.tableGain n m.e ∧
                m.yf = satQ15 (yf + (d.lpFld A.LP_DFILT n 16 0 * (m.y - yf) + 16384) / 32768) ∧
                m.i = clampI (-lim) lim (if l.reclose then prev * 32768 - sat40 (sat40 (p + dd) + f)
                  else if (0 < inc ∧ l.limHi = true) ∨ (inc < 0 ∧ l.limLo = true) then l.i else sat40 (l.i + inc)) ∧
                m.reclose = false ∧ m.v = q30to15 (sat40 (sat40 (sat40 (p + m.i) + dd) + f)) ∧ m.u = limited m.v ∧ written) ∧
            (l.mode = .manual → m.u = limited (satQ15 m.man) ∧ written) ∧
            (l.mode = .open → m.u = l.u ∧ m.out = l.out ∧ m.wrote = l.wrote ∧ d.ash = c.ash)))

/-- A retain capture that is due, without a pair, takes every changed block into staging, notes its instant and cycle and marks the cycle
captured. The writer writes staging as one DELTA record, or, where the region is too full or a swap has come, compacts into the other region
with a BASE and a DELTA record and 0x0808; a write that fails stops the journal with 0x0846. A package loaded is READY, or is discarded with
its reason and 0x0843. At the swap boundary the result becomes the running image and the configuration in use: done at once with 0x0806 in
Standby or where the transfer ran before, else over one skipped cycle; in Standby a package that does not fit is READY again with reason 7.
(07_cycle_program.md R320, 07_cycle_program.md R321, 07_cycle_program.md R323, 07_cycle_program.md R325, 07_cycle_program.md R326,
07_cycle_program.md R339, 07_cycle_program.md R340, 07_cycle_program.md R341, 07_cycle_program.md R344, 07_cycle_program.md R346,
07_cycle_program.md R347, 18_update_and_identity.md R797) -/
def Obligations.JournalAndChange : Prop :=
  ∀ (s : State),
    let c := s.dev.core
    let p := c.prog
    let j := p.jr
    let o := p.olc
    let blocks := c.retainBlocks
    let keys := (List.range (retBlockCount c.image)).filter fun k =>
      decide (SMap.get 0 blocks k ≠ SMap.get 0 j.shadow k) || (integratorBlocks 0 c.image.retain).contains k
    (c.captureDue = true → c.image.pair.en = false → ∃ t, exec .retainCapture s = .next t ∧
      Touches [.plumb, .prog, .host, .regs] s t ∧ RegsBut [] s t ∧ t.dev.core.now = c.now + ns (200 + 8 * keys.length) ∧
      (let k := t.dev.core.prog.jr
       t.dev.core.prog.captured = true ∧ k.shadow = blocks ∧ k.capture = t.dev.core.now ∧ k.captureCycle = p.cycles ∧
         (∀ b, b ∈ keys → SMap.get none k.staging b = some (SMap.get 0 blocks b)) ∧
         ∀ b, b ∉ keys → SMap.get none k.staging b = SMap.get none j.staging b)) ∧
    (c.observing = true → j.writeFail = false → j.finalPending = false → j.staging ≠ [] ∨ j.compacting = true ∨ j.rebase ≠ none ∨ c.regionFull = true →
      (∃ t, exec (.journalRecordWrite false) s = .next t ∧ Touches [.prog, .host, .regs] s t ∧ RegsBut [] s t ∧
        t.dev.core.prog = { p with jr := { j with writeFail := true, compacting := false } } ∧ t.dev.core.Raised 0x0846 (pgPath 1)) ∧
      (j.compacting = false → j.rebase = none → c.regionFull = false → ∃ t, exec (.journalRecordWrite true) s = .next t ∧
        Touches [.prog, .host, .regs] s t ∧ RegsBut [] s t ∧ ∃ full ovr, t.dev.core.prog = { p with jr := {
          j.append 2 c.image.imageId j.capture (stagingBlocks j.staging) with
            staging := [], recordCycle := j.captureCycle, compacting := full, overBudget := ovr } }) ∧
      (j.compacting = true ∨ j.rebase ≠ none ∨ c.regionFull = true → ∃ t, exec (.journalRecordWrite true) s = .next t ∧
        Touches [.prog, .host, .regs] s t ∧ RegsBut [] s t ∧ t.dev.core.Raised 0x0808 (pgPath 1) ∧
        (let k := t.dev.core.prog.jr
         k.region = !j.region ∧ k.hdr0 = k.hdr1 ∧ k.hdr0.seq = j.header.seq + 1 ∧ k.active.map (·.type) = [1, 2] ∧
           k.active.map (·.seq) = [j.seq + 1, j.seq + 2] ∧ k.staging = [] ∧ k.compacting = false ∧ k.rebase = none ∧
           k.recordCycle = j.captureCycle))) ∧
    (∀ g, o.st = .loading → o.pkg = some g →
      (c.quiet.olcReason g = 0 → ∃ t, exec .olcLoadComplete s = .next t ∧ Touches [.prog] s t ∧ t.dev.core.regs = c.regs ∧
        t.dev.core.prog.olc.st = .ready ∧ t.dev.core.prog.olc.reason = 0 ∧ t.dev.core.prog.olc.pkg = some g ∧
        t.dev.core.prog = { p with olc := t.dev.core.prog.olc }) ∧
      (c.quiet.olcReason g ≠ 0 → ∃ t, exec .olcLoadComplete s = .next t ∧ Touches [.prog, .host, .regs] s t ∧ RegsBut [] s t ∧
        t.dev.core.prog = { p with olc := { o with st := .none, reason := c.quiet.olcReason g, cleared := false, pkg := none, xferNs := 0 } } ∧
        t.dev.core.Raised 0x0843 (pgPath 3))) ∧
    (∀ g, o.st = .armed → o.pkg = some g →
      (c.md.mode = .standby → c.olcFits g = false → ∃ t, exec .olcSwap s = .next t ∧ Touches [.plumb, .prog, .host, .regs] s t ∧
        RegsBut [] s t ∧ t.dev.core.prog = { p with olc := { o with st := .ready, reason := 7, cleared := false } } ∧
        t.dev.core.Raised 0x0843 (pgPath 3)) ∧
      ((c.md.mode = .standby ∧ c.olcFits g = true) ∨ (c.running = true ∧ o.cleared = true ∧ p.ended = true) →
        ∃ t, exec .olcSwap s = .next t ∧
          let d := t.dev.core
          d.up.runCfg = some g ∧ d.up.boot.cfgActive = some (!c.up.runCfgSlot) ∧ d.up.boot.cfgPrev = c.up.boot.cfgActive ∧
            d.md = c.md ∧ d.Raised 0x0107 (path 1 0 0) ∧ d.prog.olc.pkg = none ∧ d.prog.jr.staging = [] ∧
            (if c.running = true ∧ o.willSkip = true then d.prog.olc.st = .swapping ∧ d.prog.skipNext = true
             else d.prog.olc.st = .none ∧ d.Raised 0x0806 (pgPath 3))))

/-- While no tile has an open SLACK window: an item that ends within its budget with no queue operation held and no window waiting leaves its
tile, which keeps the words of its program; its outputs are copied to Tarn 1, where no tile of a higher number has written them at the same
instant (R232), and its commit entries wait behind those of the tile, unless its run was discarded; it becomes idle, ready at the tail of
its priority, or waiting, as the activation that was kept asks. A waiting item whose time comes is ready at the tail, or waits for room. A
hold that ends lets the entry go to any tile, and a ready entry that has waited WQ_AGE_WARN raises 0x0703 once. Nothing else changes.
(06_work_item_queues.md R275, 06_work_item_queues.md R280, 06_work_item_queues.md R281, 06_work_item_queues.md R285, 06_work_item_queues.md
R289, 06_work_item_queues.md R291, 06_work_item_queues.md R279, 05_fabric_and_compiler_contract.md R232, 05_fabric_and_compiler_contract.md
R254) -/
def Obligations.ItemEvents : Prop :=
  ∀ (s : State), s.dev.core.NoSlack →
    let c := s.dev.core
    (∀ (k : Fin 16) r, (c.tile k.val).run = some r → c.now ≤ r.started + c.itemBudget r.item → r.held = [] → (c.tile k.val).waitWins = [] →
      let i := r.item
      let x := c.item i
      let def_ := (c.itemDef i).getD { stableId := 0, code := 0, tileMask := 0, paramAddr := 0, priority := 0 }
      let code := c.itemCode i
      let ended (t : State) (l : List Part) : Prop :=
        let d := t.dev.core
        Touches (.fab :: .wq :: .mem :: .free :: .host :: .regs :: l) s t ∧ RegsBut [] s t ∧ (d.tile k.val).run = none ∧
          (d.tile k.val).itemCommit = (if r.discard then (c.tile k.val).itemCommit else (c.tile k.val).itemCommit ++ r.entries) ∧
          (∀ w, (c.tile k.val).alloc.contains w = true → (d.tile k.val).word w = (c.tile k.val).word w) ∧
          (∀ j, j ≠ k.val → d.tile j = c.tile j) ∧ (∀ j, j ≠ i → d.item j = c.item j) ∧
          (r.discard = false → (c.mem.wroteAt = c.now → ∀ q ∈ c.mem.wrote, q.2 ≤ k.val) → ∀ w, w < code.outWords →
            d.t1Read (def_.paramAddr + 4 * w) 4 = ((c.tile k.val).word (code.bufBase + w)).toNat) ∧
          ∀ a, r.discard = true ∨ a < def_.paramAddr ∨ def_.paramAddr + 4 * code.outWords ≤ a → d.t1Byte a = c.t1Byte a
      (x.pend = .none → ∃ t, exec (.itemComplete k) s = .next t ∧ ended t [] ∧
        t.dev.core.item i = { x with phase := .idle, runs := (x.runs + 1) % 65536 } ∧ t.dev.core.wq.ready = c.wq.ready) ∧
      (x.pend = .ready → c.room_ (c.itemPrio i) = true → ∃ t, exec (.itemComplete k) s = .next t ∧ ended t [] ∧
        (t.dev.core.item i).phase = .ready ∧ (t.dev.core.item i).pend = .none ∧ (t.dev.core.item i).readyAt = c.now ∧
        t.dev.core.readyOf (c.itemPrio i) = c.readyOf (c.itemPrio i) ++ [i]) ∧
      (∀ q, x.pend = .release q → c.now ≤ q → ∃ t, exec (.itemComplete k) s = .next t ∧ ended t [] ∧
        (t.dev.core.item i).phase = .waiting ∧ (t.dev.core.item i).rel = q ∧ t.dev.core.wq.ready = c.wq.ready)) ∧
    (∀ i,
      let x := c.item i
      let p := c.itemPrio i
      let only (t : State) (l : List Part) : Prop := Touches (.plumb :: .wq :: l) s t ∧ RegsBut [] s t ∧ ∀ j, j ≠ i → t.dev.core.item j = c.item j
      (x.phase = .waiting → x.lateRoom = false → c.room_ p = true → ∃ t, exec (.releaseTimeReached i) s = .next t ∧ only t [] ∧
        t.dev.core.now = max c.now x.rel ∧ t.dev.core.item i = { x with
          phase := .ready, rel := 0, readyAt := max c.now x.rel, heldFrom := none, holdOver := false, aged := false, lateRoom := false } ∧
        t.dev.core.readyOf p = c.readyOf p ++ [i] ∧ ∀ q, q ≠ p → t.dev.core.readyOf q = c.readyOf q) ∧
      (x.phase = .waiting → x.lateRoom = false → c.room_ p = false → ∃ t, exec (.releaseTimeReached i) s = .next t ∧ only t [] ∧
        t.dev.core.now = max c.now x.rel ∧ t.dev.core.item i = { x with lateRoom := true } ∧ t.dev.core.wq.ready = c.wq.ready) ∧
      (∀ f, x.phase = .ready → x.heldFrom = some f → x.holdOver = false → ∃ t, exec (.affinityHoldEnd i) s = .next t ∧ only t [] ∧
        t.dev.core.now = max c.now (f + ns (c.regN A.WQ_AFF_WAIT)) ∧ t.dev.core.item i = { x with holdOver := true } ∧
        t.dev.core.wq.ready = c.wq.ready) ∧
      (x.phase = .ready → x.aged = false → c.regN A.WQ_AGE_WARN ≠ 0 → ∃ t, exec (.readyEntryAged i) s = .next t ∧ only t [.host, .regs] ∧
        t.dev.core.now = max c.now (x.readyAt + c.regN A.WQ_AGE_WARN * us) ∧ t.dev.core.item i = { x with aged := true } ∧
        t.dev.core.wq.ready = c.wq.ready ∧ SMap.get 0 t.dev.core.wq.prioLast p = i ∧ t.dev.core.Raised 0x0703 (path 7 p 0)))

/-- Where the ring has room and no header is owed, the GAP record of a loss episode is appended, the episode ends and 0x0B03 is raised; without
room nothing changes on a stream that discards nothing. A historian stream whose peer stays silent with data waiting is marked and raises
0x0B42. A row of an armed unit that does not spill joins its basin, the oldest leaving where it is full; one that cannot be staged ends the
capture as held with OVERFLOW and raises 0x0C42. At T_first an arming unit is armed, or triggered by the firing that waited. Other streams
and units stay. (12_signal_recording.md R554, 12_signal_recording.md R556, 13_triggers_and_captures.md R585, 13_triggers_and_captures.md
R589, 13_triggers_and_captures.md R592, 13_triggers_and_captures.md R595) -/
def Obligations.RecordsAndRows : Prop :=
  ∀ (s : State),
    let c := s.dev.core
    (∀ k,
      let x := c.stream k
      let others (t : State) : Prop := ∀ j, j ≠ k → t.dev.core.stream j = c.stream j
      (∀ l, x.loss = some l → x.segOpen = false ∨ x.headerWritten = true →
        (x.ring.length + 2 ≤ c.rsSize k → ∃ t, exec (.gapWrite k) s = .next t ∧ Touches [.spr, .host, .regs] s t ∧ RegsBut [] s t ∧ others t ∧
          (t.dev.core.stream k).loss = none ∧ (t.dev.core.stream k).gaps = x.gaps + 1 ∧
          (t.dev.core.stream k).ring = x.ring ++ gapUnits x.segBase c.now l ∧ t.dev.core.Raised 0x0B03 (path 0xB k 0)) ∧
        (c.rsSize k < x.ring.length + 2 → c.rsDest k ≠ 0 → ∃ t, exec (.gapWrite k) s = .next t ∧ Touches [] s t)) ∧
      (c.rsDest k = 2 → x.ring ≠ [] → x.peerSilent = false → ∃ t, exec (.peerSilent k) s = .next t ∧
        Touches [.plumb, .spr, .host, .regs] s t ∧ RegsBut [] s t ∧ others t ∧ t.dev.core.stream k = { x with peerSilent := true, sent := 0 } ∧
        t.dev.core.now = max c.now (c.now + (x.lastAck + c.fld (rsA A.RS_PEER_CFG k) 15 0 * ms - c.plumb.elapsed)) ∧
        t.dev.core.Raised 0x0B42 (path 0xB k 0))) ∧
    (∀ u,
      let x := c.unit u
      let others (t : State) : Prop := ∀ j, j ≠ u → t.dev.core.unit j = c.unit j
      (∀ b at_, x.st = .armed → x.cur = some b → (∀ r, x.rowSeen = some r → r < at_) → ¬(x.passed.1 < at_ ∧ at_ < x.passed.2) → x.tFirst ≤ at_ → at_ % c.rowPeriod u = 0 →
        (x.staged + c.rowBytes u ≤ c.regN (cpA A.CP_STAGE_QUOTA u) → x.spilling = false →
          ∃ t, exec (.rowAssembly u at_) s = .next t ∧ Touches [.plumb, .cap] s t ∧ others t ∧ t.dev.core.now = max c.now (at_ + c.rowDelay u) ∧
            (let y := t.dev.core.unit u
             let rows := b.rows ++ [(c.buildRow u at_).1]
             y.st = .armed ∧ y.staged = x.staged + c.rowBytes u ∧ y.lastRow = at_ ∧ y.rowSeen = some at_ ∧
               y.cur = some { b with rows := if c.basinRows u < rows.length ∧ b.trigRow = none then rows.drop 1 else rows })) ∧
        (c.regN (cpA A.CP_STAGE_QUOTA u) < x.staged + c.rowBytes u → ∃ t, exec (.rowAssembly u at_) s = .next t ∧
          Touches [.plumb, .cap, .spr, .host, .regs] s t ∧ RegsBut [] s t ∧ others t ∧ t.dev.core.Raised 0x0C42 (unitPath u) ∧
          (let y := t.dev.core.unit u
           y.st = .hold ∧ y.overflow = true ∧ y.cur = none ∧ y.held = x.held ++ [{ b with
             flags := b.flags ||| 8, ovr := at_, postAct := b.rows.length, preAct := 0 }]))) ∧
      (x.st = .arming → x.waiting = none → ∃ t, exec (.rearmIntervalEnd u) s = .next t ∧ Touches [.plumb, .cap] s t ∧ others t ∧
        t.dev.core.now = max c.now x.tFirst ∧ t.dev.core.unit u = { x with st := .armed }) ∧
      (∀ b trg f idx fl, x.st = .arming → x.waiting = some (trg, f, idx, fl) → x.cur = some b → b.rows = [] → b.trigRow = none →
        ∃ t, exec (.rearmIntervalEnd u) s = .next t ∧ Touches [.plumb, .cap] s t ∧ others t ∧ t.dev.core.now = max c.now x.tFirst ∧
          (t.dev.core.unit u).st = .triggered ∧ (t.dev.core.unit u).waiting = none ∧
          ∃ g, (t.dev.core.unit u).cur = some { b with flags := g, trigger := trg, trigTime := f, logIndex := idx }))

/-- The next generator step comes at the next whole microsecond that has had none. It changes no axis that is disabled, not of the image, or in
a mode without generators, and nothing but axes, their events and the flying restart. An axis without outputs, drive, limits and input
waiting, inside a segment of its plan toward a velocity, takes position, velocity, acceleration and jerk of the segment at its next step;
one that stands still without a plan goes on standing where it is. (10_motion_profiles.md R444, 10_motion_profiles.md R445,
10_motion_profiles.md R456, 10_motion_profiles.md R470) -/
def Obligations.GeneratorSteps : Prop :=
  ∀ (s : State),
    let c := s.dev.core
    ∃ t, exec .generatorStep s = .next t ∧ Touches [.plumb, .mot, .md, .host, .regs, .free] s t ∧ RegsBut [] s t ∧
      (let d := t.dev.core
       d.now = c.nextUs ∧ d.mot.genAt = some c.nextUs ∧ d.md.mode = c.md.mode ∧
         (∀ a, a ∉ c.axesOn ∨ (c.axis a).st = .disabled → d.axis a = c.axis a) ∧
         ∀ a, a ∈ c.axesOn → c.image.axes.Nodup → c.axSource a ≠ 1 → c.axDrive a = false → c.axFld A.AX_CFG a 4 4 = 0 →
           c.regN (axA A.AX_TRACK_LIMIT a) = 0 → c.regN (axA A.AX_STALL_TIME a) = 0 →
           let x := c.axis a
           let y := d.axis a
           x.inbox = [] → x.limp.ignore = false → x.limn.ignore = false →
             (∀ g l, x.st = .moving → x.mode = .velocity → x.plan = g :: l → x.planStep + 1 < g.steps →
               let q := g.at_ ((x.planStep + 1 : Nat) : Rat)
               toVel q.2.1 ≠ 0 → y.pos = c.wrapPos a (toPos q.1) ∧ y.vel = toVel q.2.1 ∧ y.acc = toAcc q.2.2.1 ∧ y.jerk = toJerk q.2.2.2 ∧
                 y.st = .moving ∧ y.plan = x.plan ∧ y.planStep = x.planStep + 1) ∧
             (x.st = .standstill → x.plan = [] → x.vel = 0 → y.st = .standstill ∧ y.pos = c.wrapPos a x.pos ∧ y.vel = 0 ∧ y.plan = []))

/-- An edge on a local switch pin is stamped and the raw level follows; at the first step at or after the debounce time the debounced level
follows it, and a limit that is active, not acting and not ignored begins to act. One quadrature edge counts by one in its direction; two at
once, or one within 40 ns, are an encoder error, which keeps the count, makes the position invalid and raises 0x0A44. At the end of the hold
delay the current falls to HOLD_I. A jog not written again within 500 ms slows to rest. A flying restart that has not locked in time fails,
and its axis quick-stops. Other axes stay. (03_modes_and_start.md R148, 10_motion_profiles.md R467, 10_motion_profiles.md R471,
11_axis_io_limits_stall.md R496, 11_axis_io_limits_stall.md R497, 11_axis_io_limits_stall.md R505, 11_axis_io_limits_stall.md R511,
11_axis_io_limits_stall.md R512) -/
def Obligations.AxisInputs : Prop :=
  ∀ (s : State) (a : Nat),
    let c := s.dev.core
    let x := c.axis a
    let only (t : State) (l : List Part) (at_ : Time) : Prop :=
      Touches (.plumb :: .mot :: l) s t ∧ RegsBut [] s t ∧ (∀ k, k ≠ a → t.dev.core.axis k = c.axis k) ∧ t.dev.core.now = max c.now at_
    (∀ sw level at_, sw < 4 → c.axSource a = 1 → c.image.axes.contains a = true →
      let active := level != (if sw = 0 then c.axIo a 18 else if sw = 1 then c.axIo a 17 else if sw = 2 then c.axIo a 16 else false)
      (x.sw sw).raw ≠ active → ∃ t, exec (.switchEdge a sw level at_) s = .next t ∧ only t [] at_ ∧
        (t.dev.core.axis a).sw sw = { x.sw sw with raw := active, edge := some at_ } ∧
        (∀ k, k < 4 → k ≠ sw → (t.dev.core.axis a).sw k = x.sw k) ∧ (t.dev.core.axis a).edges = x.edges ++ [(sw, active, at_)]) ∧
    (∀ sw e, sw < 3 → (x.sw sw).edge = some e →
      let at_ := cdiv (e + c.debTime a sw) us * us
      ((x.sw sw).raw = (x.sw sw).deb → ∃ t, exec (.debounceComplete a sw) s = .next t ∧ only t [] at_ ∧
        (t.dev.core.axis a).sw sw = { x.sw sw with edge := none }) ∧
      ((x.sw sw).raw ≠ (x.sw sw).deb → x.st ≠ .homing → ∃ t, exec (.debounceComplete a sw) s = .next t ∧
        only t [.md, .host, .regs] at_ ∧ ((t.dev.core.axis a).sw sw).deb = (x.sw sw).raw ∧ ((t.dev.core.axis a).sw sw).edge = none ∧
        (sw < 2 → (x.sw sw).raw = true → (x.sw sw).ignore = false → ((t.dev.core.axis a).sw sw).acting = true) ∧
        (sw < 2 → (x.sw sw).raw = false → ((t.dev.core.axis a).sw sw).acting = false))) ∧
    (∀ la lb at_, ¬ (la = x.encLevels.1 ∧ lb = x.encLevels.2) →
      let bad := (la ≠ x.encLevels.1 ∧ lb ≠ x.encLevels.2) ∨ ∃ l, x.lastEnc = some l ∧ at_ < l + ns 40
      let up := if la ≠ x.encLevels.1 then la ≠ lb else la = lb
      (¬ bad → ∃ t, exec (.encoderEdge a la lb at_) s = .next t ∧ only t [] at_ ∧
        (up → t.dev.core.axis a = { x with encLevels := (la, lb), lastEnc := some at_, enc := sx 64 ((x.enc + 1) % 2 ^ 64).toNat }) ∧
        (¬ up → t.dev.core.axis a = { x with encLevels := (la, lb), lastEnc := some at_, enc := sx 64 ((x.enc - 1) % 2 ^ 64).toNat })) ∧
      (bad → ∃ t, exec (.encoderEdge a la lb at_) s = .next t ∧ only t [.host, .regs] at_ ∧ t.dev.core.axis a = { x with
        encLevels := (la, lb), lastEnc := some at_, encErr := true, posValid := false, encErrs := min 4095 (x.encErrs + 1) } ∧
        t.dev.core.Raised 0x0A44 (axPath a 1))) ∧
    (∀ f, x.stillFrom = some f → x.st = .standstill ∨ x.st = .qstopped → ∃ t, exec (.holdDelayExpiry a) s = .next t ∧
      only t [] (f + c.axFld A.AX_BOOST_LIM a 31 16 * ms) ∧
      t.dev.core.axis a = { x with holding := true, boostAtMax := false, current := c.axFld A.AX_CURRENT a 15 0 }) ∧
    (x.st = .jogging → x.jogDir ≠ 0 → ∃ t, exec (.jogTimeout a) s = .next t ∧ only t [] (x.jogLast + 500 * ms) ∧
      let slow := velPieces (rv x.vel) (ra x.acc) (rv 0) (c.axAccR a) (c.axDecR a) (c.axJerkR a)
      t.dev.core.axis a = { x with jogDir := 0, planStep := 0, plan := segsOf (rp x.pos) (rv x.vel) slow }) ∧
    (SMap.get .none c.md.fly a = .pending → x.st ≠ .disabled → x.st ≠ .qstopped → (x.stopRank = 0 ∨ 1 < x.stopRank) →
      ∃ t, exec (.flyTimeout a) s = .next t ∧ only t [.md, .host, .regs] (c.md.runEntered + bits c.md.flyCtl 31 16 * ms) ∧
        SMap.get .none t.dev.core.md.fly a = .failed ∧ t.dev.core.md.mode = c.md.mode ∧ (t.dev.core.axis a).hasTgt = false ∧
        if x.vel = 0 ∧ x.acc = 0 then (t.dev.core.axis a).st = .qstopped
        else (t.dev.core.axis a).st = .qstopping ∧ (t.dev.core.axis a).stopRank = 1)

/-- At SLEW_COMPLETE with SLEWING set and PB_SLEW_REMAIN zero, SLEWING is cleared, nothing else of Plumb changes, and 0x0206 is raised. With
SLEWING clear or an offset that remains, nothing changes. (02_time_and_ticks.md R79) -/
def Obligations.SlewCompletes : Prop :=
  ∀ (s : State),
    let c := s.dev.core
    (c.plumb.slewing = true → c.plumb.slewRemain = 0 → ∃ t, exec .slewComplete s = .next t ∧ Touches [.plumb, .host, .regs] s t ∧
      RegsBut [] s t ∧ t.dev.core.plumb = { c.plumb with slewing := false } ∧ t.dev.core.Raised 0x0206 plumbPath) ∧
    (c.plumb.slewing = false ∨ c.plumb.slewRemain ≠ 0 → ∃ t, exec .slewComplete s = .next t ∧ Touches [] s t)

/-- At HOLDOVER_ENTRY with a master port: where its last Announce is announceReceiptTimeout announce intervals back, or its last Sync four sync
intervals, STATE is HOLDOVER and 0x0202 is raised; time does not jump. Where both are more recent, or the device is in holdover already,
nothing changes. (02_time_and_ticks.md R85) -/
def Obligations.HoldoverEntry : Prop :=
  ∀ (s : State) (p : Nat),
    let c := s.dev.core
    let b := c.plumb
    let noAnnounce := b.lastAnnounce + c.annTimeout p * logSeconds (c.logAnnounce p) ≤ b.elapsed
    let noSync := b.lastSync + 4 * logSeconds (c.logSync p) ≤ b.elapsed
    b.masterPort = some p →
    (b.sync ≠ .holdover → noAnnounce ∨ noSync → ∃ t, exec .holdoverEntry s = .next t ∧ Touches [.plumb, .free, .host, .regs] s t ∧
      RegsBut [] s t ∧ t.dev.core.plumb.sync = .holdover ∧ t.dev.core.plumb.holdFrom = b.elapsed ∧ t.dev.core.plumb.holdAge = 0 ∧
      t.dev.core.plumb.masterPort = some p ∧ t.dev.core.plumb.now = b.now ∧ t.dev.core.plumb.elapsed = b.elapsed ∧
      t.dev.core.Raised 0x0202 plumbPath) ∧
    (b.sync = .holdover ∨ (¬ noAnnounce ∧ ¬ noSync) → ∃ t, exec .holdoverEntry s = .next t ∧ Touches [] s t)

/-- A Sync on the master port gives the offset from its arrival, the path delay, the asymmetry and the ingress latency; within PB_STEP_LIMIT it
becomes the outstanding correction, beyond it a slew with 0x0204 in Run, Service and the standby member, and a step with 0x0207 elsewhere;
the sixteenth offset in a row within 100 ns locks. The step moves device time at a tick boundary and marks captures in progress; where the
unit no longer steps it becomes a slew. A second Announce after holdover, or one of a line profile, makes its port the master; in the
default profiles an Announce enters the foreign masters, and the best of all, where it is better than the device, is followed. A path delay
outside the threshold three times in one direction starts a re-measurement with 0x0205; a port that becomes faulty raises 0x0244; a request
of another port is answered. A tick brings device time to its start. A selected edge on a timing input is stamped to 2^-7 ns, corrected and
stored, or lost: within 20 ns of the last stamped one, or with 64 stamps held. A timed output begins and ends its pulses. What a step leaves
to be reached again, and the slew that a step becomes, are the model's readings (log entry 119), as is what IEEE 1588 fixes of the messages
(log entry 121). (02_time_and_ticks.md R65, 02_time_and_ticks.md R75, 02_time_and_ticks.md R77, 02_time_and_ticks.md R78,
02_time_and_ticks.md R81, 02_time_and_ticks.md R87, 02_time_and_ticks.md R88, 02_time_and_ticks.md R89, 02_time_and_ticks.md R94,
02_time_and_ticks.md R96, 02_time_and_ticks.md R99, 02_time_and_ticks.md R102) -/
def Obligations.ClockEvents : Prop :=
  ∀ (s : State),
    let c := s.dev.core
    let b := c.plumb
    let watch : List Part := [.plumb, .host, .regs, .cap, .spr, .ln, .mem]
    (∀ p (m : SyncMsg),
      let c1 := c.advanceTo m.stamp
      let e := c1.plumb
      (c.ptpHears p m.domain = false → ∃ t, exec (.ptpSync p m) s = .next t ∧ Touches [.plumb] s t ∧ t.dev.core.plumb = e) ∧
      (c.ptpHears p m.domain = true → b.masterPort = some p → c.maySlave p = true → b.sync ≠ .holdover →
        (0 < (c.ptpPort p).remeas ∨ (c.ptpPort p).delay = none → ∃ t, exec (.ptpSync p m) s = .next t ∧ Touches [.plumb] s t ∧
          t.dev.core.plumb = { e with lastSync := e.elapsed }) ∧
        (∀ dly, (c.ptpPort p).remeas = 0 → (c.ptpPort p).delay = some dly →
          let sent : Int := ((m.secs.toNat * second + ns m.nanos : Nat) : Int) + m.correction
          let off : Int := (m.stamp : Int) - c.ingress p - sent - (dly + c.asym p)
          let n := if off.natAbs ≤ ns 100 then min (b.inLock + 1) 16 else 0
          let small := (off - e.slewRemain).natAbs ≤ ns (c.regN A.PB_STEP_LIMIT)
          ∃ t, exec (.ptpSync p m) s = .next t ∧ Touches [.plumb, .free, .host, .regs] s t ∧ RegsBut [] s t ∧
            (let d := t.dev.core.plumb
             d.offset = off ∧ d.timeValid = true ∧ d.inLock = n ∧ d.sync = (if n = 16 then .locked else .acquiring) ∧
               d.lastSync = e.elapsed ∧ d.now = max b.now m.stamp ∧ d.elapsed = e.elapsed ∧
               (small → d.slewRemain = off ∧ d.slewing = b.slewing ∧ d.step = b.step ∧ t.dev.core.host = c.host) ∧
               (¬ small → c.running = true ∨ c.mr.role = .standby → d.slewRemain = off ∧ d.slewing = true ∧ d.step = b.step ∧
                 t.dev.core.Raised 0x0204 (path 2 1 p)) ∧
               (¬ small → c.running = false → c.mr.role ≠ .standby → d.slewRemain = e.slewRemain ∧ d.step = some off ∧
                 t.dev.core.Raised 0x0207 plumbPath))))) ∧
    (∀ off, b.step = some off →
      (c.neverSteps = true → ∃ t, exec .timeStep s = .next t ∧ Touches [.plumb] s t ∧
        t.dev.core.plumb = { b with step := none, slewRemain := off, slewing := true }) ∧
      (c.neverSteps = false → c.now % tickLen = 0 → b.tickAt = some c.now → ∃ t, exec .timeStep s = .next t ∧
        Touches [.plumb, .ash, .lp, .prog, .spr, .cap, .host, .regs] s t ∧ RegsBut [] s t ∧
        (let d := t.dev.core
         let d1 := ((c.now : Int) - off).toNat
         d.plumb.now = d1 ∧ d.plumb.step = none ∧ d.plumb.slewRemain = 0 ∧ d.plumb.slewing = false ∧ d.plumb.tickAt = none ∧
           d.plumb.stepTo = d1 ∧ d.plumb.elapsed = b.elapsed ∧ d.prog = { c.prog with begun := false } ∧
           (∀ q, q < 8 → d.port q = { c.port q with fresh := true }) ∧
           ∀ u, u < 64 → d.unit u = { c.unit u with
             cur := (c.unit u).cur.map fun x => { x with flags := x.flags ||| 0x80 }
             passed := (c.now, d1), rowSeen := if d1 < c.now then none else (c.unit u).rowSeen
             tFirst := if d1 < c.now then min (c.unit u).tFirst d1 else (c.unit u).tFirst }))) ∧
    (∀ p (a : Announce), c.ptpHears p a.domain = true → c.maySlave p = true →
      (c.lineProfile = true → a.fromMaster = true →
        let noted : Plumb := { b with lastAnnounce := b.elapsed, holdAnn := b.holdAnn + 1, parent := some a }
        (b.masterPort = some p → b.sync ≠ .holdover → ∃ t, exec (.ptpAnnounce p a) s = .next t ∧ Touches [.plumb] s t ∧
          t.dev.core.plumb = noted) ∧
        (b.sync = .holdover → b.holdAnn = 0 → ∃ t, exec (.ptpAnnounce p a) s = .next t ∧ Touches [.plumb] s t ∧ t.dev.core.plumb = noted) ∧
        (b.masterPort ≠ some p ∨ b.sync = .holdover → b.sync ≠ .holdover ∨ 1 ≤ b.holdAnn →
          ∃ t, exec (.ptpAnnounce p a) s = .next t ∧ Touches [.plumb, .host, .regs] s t ∧ RegsBut [] s t ∧
            t.dev.core.plumb.masterPort = some p ∧ t.dev.core.plumb.sync = .acquiring ∧ t.dev.core.plumb.inLock = 0 ∧
            t.dev.core.plumb.now = b.now ∧ (b.sync = .holdover → t.dev.core.Raised 0x0203 plumbPath) ∧
            (b.masterPort ≠ some p → t.dev.core.Raised 0x0201 (path 2 1 p)))) ∧
      (c.lineProfile = false → ∃ t, exec (.ptpAnnounce p a) s = .next t ∧ Touches [.plumb, .host, .regs] s t ∧ RegsBut [] s t ∧
        t.dev.core.plumb.now = b.now ∧ (t.dev.core.ptpPort p).foreign = heard b.elapsed a (c.ptpPort p).foreign ∧
        ∀ m, (c.onPtpPort p fun q => { q with foreign := heard b.elapsed a q.foreign }).bestOf = some (p, m) →
          127 < c.ownSet.clockClass → betterSet c.ownSet m = false →
            t.dev.core.plumb.masterPort = some p ∧ t.dev.core.plumb.parent = some m)) ∧
    (∀ p, c.ptpRole p ≠ 0 → (c.ptpPort p).faulty = false →
      let q := c.ptpPort p
      let others (t : State) : Prop := ∀ j, j ≠ p → t.dev.core.ptpPort j = c.ptpPort j
      (∀ t1 t2 t3 t4 corr,
        let m := c.meanDelay p t1 t2 t3 t4 corr
        let msg : DelayMsg := .measured t1 t2 t3 t4 corr
        let got (t : State) (l : List Part) (q' : PtpPort) : Prop := Touches (.plumb :: l) s t ∧ RegsBut [] s t ∧ t.dev.core.ptpPort p = q' ∧
          others t ∧ t.dev.core.plumb.now = b.now ∧ t.dev.core.plumb.offset = b.offset
        (q.remeas = 0 → q.delay = none → ∃ t, exec (.ptpPdelay p msg) s = .next t ∧ got t [] { q with delay := some m, cand := 0 }) ∧
        (q.remeas = 1 → ∃ t v, exec (.ptpPdelay p msg) s = .next t ∧ got t [] { q with remeas := 0, remeasSum := 0, delay := some v } ∧
          t.dev.core.plumb.freqLimited = b.elapsed + 30 * second) ∧
        (∀ d, q.remeas = 0 → q.delay = some d →
          let near := (m - d).natAbs ≤ ns (c.regN (A.PB_PORT_PTHR + 0x10 * p))
          let n := if 0 < q.cand ∧ q.candUp = decide (d < m) then q.cand + 1 else 1
          (near → ∃ t, exec (.ptpPdelay p msg) s = .next t ∧ got t [] { q with delay := some (Config.delayFilter d m), cand := 0 }) ∧
          (¬ near → n < 3 → ∃ t, exec (.ptpPdelay p msg) s = .next t ∧ got t [] { q with cand := n, candUp := decide (d < m) }) ∧
          (¬ near → 3 ≤ n → ∃ t, exec (.ptpPdelay p msg) s = .next t ∧ t.dev.core.Raised 0x0205 (path 2 1 p) ∧
            got t [.host, .regs] { q with
              cand := 0, delay := none, remeas := c.regN A.PB_REMEAS, remeasSum := 0
              pathSteps := min (q.pathSteps + 1) 0xFFFF, asymUnverified := true }))) ∧
      (∃ t, exec (.ptpPdelay p .faulty) s = .next t ∧ Touches [.plumb, .host, .regs] s t ∧ RegsBut [] s t ∧ others t ∧
        t.dev.core.ptpPort p = { q with faulty := true, state := 2 } ∧ t.dev.core.Raised 0x0244 (path 2 1 p) ∧
        (b.masterPort = some p → t.dev.core.plumb.masterPort = none)) ∧
      ∀ byPeer asker stamp corr res, ∃ t, exec (.ptpPdelay p (.asked byPeer asker stamp corr res)) s = .next t ∧ Touches [.plumb] s t ∧
        t.dev.core.plumb = (c.advanceTo stamp).plumb ∧
        (byPeer = true → c.peer p = true → c.oneStep p = true → .ptp p { c.ptpMsg .pdelayResp with
          asker := asker
          correction := corr + (((max c.now stamp + c.egress p : Nat) : Int) - (((stamp : Int) - c.ingress p).toNat : Int)) } ∈ t.dev.core.out)) ∧
    (c.plumbOn = false → ∃ t, exec .tick s = .next t ∧ Touches [] s t) ∧
    (c.plumbOn = true → ∃ t, exec .tick s = .next t ∧ t.pending = s.pending ∧ t.dev.core.now = max c.now c.nextTick ∧
      t.dev.core.plumb.tickAt = some c.nextTick ∧ .tick (tickOf c.nextTick % 64000) ∈ t.dev.core.out ∧
      (b.slewRemain = 0 → t.dev.core.plumb.elapsed = b.elapsed + (c.nextTick - c.now)) ∧ (c.md.held = true → Touches watch s t) ∧
      (c.md.held = false → c.up.dbgLevel ≠ 0 → 1 < c.up.dbgTicks → t.dev.core.up.dbgTicks = c.up.dbgTicks - 1)) ∧
    (∀ n rising raw,
      let sel := c.fld (A.PB_TIN_CTL + 0x10 * n) 1 0
      let chosen := sel = 3 ∨ (sel = 1 ∧ rising = true) ∨ (sel = 2 ∧ rising = false)
      let x := c.tin n
      let e := (c.advanceTo raw).plumb.elapsed
      let close := ∃ l, x.lastEdge = some l ∧ e < l + ns 20
      let stamp := (((raw / 512 * 512 : Nat) : Int) - c.sreg (A.PB_TIN_DELAY + 4 * n)).toNat
      let cnt := (x.count + 1) % 2 ^ 32
      let only (t : State) : Prop := RegsBut [] s t ∧ t.dev.core.now = max c.now raw ∧ ∀ k, k ≠ n → t.dev.core.tin k = c.tin k
      let told (t : State) : Prop := ∀ d ∈ c.image.tags, tagClass d.tag = 4 → d.binding = Config.hwPoint n →
        t.dev.core.tagVal d.tag = stampValue stamp
      (¬ chosen → ∃ t, exec (.tinEdge n rising raw) s = .next t ∧ Touches [.plumb] s t ∧ only t ∧ t.dev.core.tin n = x) ∧
      (chosen → close → ∃ t, exec (.tinEdge n rising raw) s = .next t ∧ Touches [.plumb] s t ∧ only t ∧
        t.dev.core.tin n = { x with count := cnt, lost := sat32 (x.lost + 1) }) ∧
      (chosen → ¬ close → x.fifo.length < 64 → ∃ t, exec (.tinEdge n rising raw) s = .next t ∧ Touches watch s t ∧ only t ∧ told t ∧
        t.dev.core.tin n = { x with
          count := cnt, lastEdge := some e, lastStamp := some stamp
          fifo := x.fifo ++ [{ time := stamp, rising := rising, seq := cnt % 65536 }], episode := false }) ∧
      (chosen → ¬ close → 64 ≤ x.fifo.length → ∃ t, exec (.tinEdge n rising raw) s = .next t ∧ Touches watch s t ∧ only t ∧ told t ∧
        t.dev.core.tin n = { x with
          count := cnt, lastEdge := some e, lastStamp := some stamp, lost := sat32 (x.lost + 1), ovf := true, episode := true } ∧
        (x.episode = false → t.dev.core.Raised 0x0241 (path 2 2 n)))) ∧
    (∀ m,
      let o := c.tout m
      let only (t : State) (at_ : Time) (lv : Bool) : Prop := Touches watch s t ∧ RegsBut [] s t ∧ t.dev.core.now = max c.now at_ ∧
        (∀ k, k ≠ m → t.dev.core.tout k = c.tout k) ∧ .pin 0 m (lv != c.flag (A.PB_TOUT_CTL + 0x20 * m) 8) ∈ t.dev.core.out
      (o.st = .waiting ∨ o.st = .running → o.pulse = none →
        let at_ := o.start + o.index * o.period
        ∃ t, exec (.toutPulse m) s = .next t ∧ only t at_ true ∧
          t.dev.core.tout m = { o with st := .running, pulse := some (at_ + o.width), index := o.index + 1 }) ∧
      (∀ e, o.pulse = some e → ∃ t, exec (.toutPulseEnd m) s = .next t ∧ only t e false ∧
        let done := o.st = .stopping ∨ o.once = true ∨ (o.count ≠ 0 ∧ o.count ≤ o.index)
        t.dev.core.tout m = { o with pulse := none, st := if done then .idle else .running }))

/-- A port cycle of a cycling port counts, takes its number, marks modules silent for LOST_N cycles as lost with 0x0341 and, with the link up,
sends its course frame: the passive values outside Run and Service without a hold, and the output segments in Run after the first release.
An accepted stone frame swaps the halves of its module, makes it operational with 0x0301 on CONFIGURED and counts repeats and gaps; one that
fails a test is counted, discarded or a mismatch. ENUM returns, reports and their timeouts lead through enumeration, which ends cycling with
0x0306 or in a schedule fault with 0x0347. A recovery round sends ENUM and notes the lost modules. Of a safety container the first copy
waits and a second one that differs is counted with 0x0344. A standby takes the segments of the active on a pair line, and a shadow that is
lost takes passive values with 0x0506. Links go up and down, with 0x0346. (14_ashlar_line_ports.md R614, 14_ashlar_line_ports.md R615,
14_ashlar_line_ports.md R621, 14_ashlar_line_ports.md R624, 14_ashlar_line_ports.md R625, 14_ashlar_line_ports.md R633,
14_ashlar_line_ports.md R634, 14_ashlar_line_ports.md R639, 14_ashlar_line_ports.md R642, 14_ashlar_line_ports.md R647,
16_mortar_redundancy.md R702, 16_mortar_redundancy.md R703) -/
def Obligations.AshlarEvents : Prop :=
  ∀ (s : State),
    let c := s.dev.core
    (∀ p, p < 8 → (c.port p).st = .cycling → c.plumb.stepTo ≤ c.portStart p →
        (c.port p).fresh = true ∨ (c.port p).cycleStart < c.portStart p →
      let x := c.port p
      let t0 := c.portStart p
      let v := c.asBuilt p t0
      let num := tickOf t0 / 2 ^ (c.fld (ashA A.ASH_PORT_CFG p) 3 0) % 2 ^ 32
      ∃ t, exec (.portCycleStart p) s = .next t ∧ t.pending = s.pending ∧
        (let d := t.dev.core
         d.now = c.now ∧ d.md = c.md ∧ d.mr = c.mr ∧ d.prog = c.prog ∧ (d.port p).st = .cycling ∧ (d.port p).cycles = (x.cycles + 1) % 2 ^ 32 ∧
           (d.port p).cycleStart = t0 ∧ (d.port p).cycle = num ∧ (d.port p).fresh = false ∧ (d.port p).built = none ∧
           (∀ k, k ≠ p → ∃ b, d.port k = { c.port k with built := b }) ∧
           (∀ m, m ∉ c.portMods p → d.mod m = c.mod m) ∧
           (∀ m, m ∈ c.portMods p → x.cycles ≠ 0 → (c.mod m).st = .operational → (c.mod m).gotThis = false →
             (d.mod m).missing = min 256 ((c.mod m).missing + 1) ∧ (d.mod m).age = min 255 ((c.mod m).age + 1) ∧
             (x.lostN ≤ min 256 ((c.mod m).missing + 1) → (d.mod m).st = .lost ∧ (d.mod m).lost = min 255 ((c.mod m).lost + 1) ∧
               d.Raised 0x0341 (modPath m)) ∧
             (min 256 ((c.mod m).missing + 1) < x.lostN → (d.mod m).st = .operational)) ∧
           (∀ q m, (q = p ∧ x.linkUp = true) ∨ (q = p + 1 ∧ c.ashRole p = 2 ∧ (c.port q).linkUp = true) →
             m ∈ c.portMods p → c.matched m = true → c.segLen m ≠ 0 →
             ∃ h ws, .course h ws ∈ d.out ∧ h.port = q ∧ h.etype = x.etype ∧ h.type = 1 ∧ h.claim = c.builtClaim p t0 ∧ h.cycle = num ∧
               h.frame < h.frames ∧ h.flags = flg c.mr.unitB 0 + flg (!v.running) 1 ∧ ∀ i, i < c.segLen m →
                 (v.ash.aborted.contains m = true ∨ (v.running = false ∧ v.stbyHold = false) →
                   (outKey m i, ((c.passiveOf m)[i]?).getD 0) ∈ ws) ∧
                 (v.ash.aborted.contains m = false → v.running = true → v.md.runLive = true → v.prog.forcesNow = [] →
                   (∀ a, a ∈ c.axesOn → c.axDrive a = false) → (outKey m i, v.outWord (outKey m i)) ∈ ws)))) ∧
    (∀ m,
      let x := c.mod m
      let q := c.port (modPort m)
      x.st = .operational → x.gotThis = false → q.st = .cycling → q.lostN ≤ x.missing + 1 →
      ∃ t, exec (.moduleLost m) s = .next t ∧ Touches [.plumb, .ash, .host, .regs] s t ∧ RegsBut [] s t ∧
        t.dev.core.now = max c.now (q.cycleStart + c.portLen (modPort m)) ∧ (∀ k, k ≠ m → t.dev.core.mod k = c.mod k) ∧
        t.dev.core.mod m = { x with st := .lost, lost := min 255 (x.lost + 1), first := true } ∧ t.dev.core.Raised 0x0341 (modPath m)) ∧
    (∀ p,
      let x := c.port p
      let lost := (c.portMods p).filter fun m => (c.mod m).st == .lost
      let cap := 10 * c.portNs p - 10000 - x.downWire
      let tb := c.byteTime p
      x.st = .cycling → lost ≠ [] → c.md.mode = .standby ∨ c.running = true → x.recover = [] → x.recEnum = false →
      x.lastRound + 64 ≤ x.cycles → ∃ t, exec (.recoveryRound p) s = .next t ∧ Touches [.ash] s t ∧
        (let d := t.dev.core
         (d.port p).lastRound = x.cycles ∧ d.ash.mods = c.ash.mods ∧ d.ash.out = c.ash.out ∧ (∀ k, k ≠ p → d.port k = c.port k) ∧
           (cap < 84 * tb → d.port p = { x with lastRound := x.cycles, recEnum := true, recover := c.configParts tb cap (cap - 84 * tb) lost } ∧
             d.out = []) ∧
           (84 * tb ≤ cap → (d.port p).recEnum = false ∧ (x.linkUp = true → .ash (c.ashHdr p 3 4) [0] ∈ d.out)))) ∧
    (∀ f : Stone,
      let m := f.mod
      let p := modPort m
      let x := c.mod m
      let bad := ashA A.ASH_RX_BAD p
      let d16 := (f.seq + 65536 - x.seq % 65536) % 65536
      let others (t : State) : Prop := t.dev.core.now = max c.now f.arrival ∧ ∀ k, k ≠ m → t.dev.core.mod k = c.mod k
      let counted : Prop := ∃ t, exec (.stoneFrame f) s = .next t ∧ Touches [.plumb, .regs] s t ∧ RegsBut [bad] s t ∧
        t.dev.core.now = max c.now f.arrival ∧ t.dev.core.regN bad = sat32 (c.regN bad + 1)
      let reached := f.length = 20 + f.bytes.length ∧ f.type = 2 ∧ f.version = 1 ∧ m % 512 < (c.port p).found
      let identOk := some f.identCrc = (c.modDef m).map (·.identCrc)
      (c.port p).st = .cycling →
      (¬ reached → counted) ∧
      (reached → c.matched m = true →
        (¬ identOk → ∃ t, exec (.stoneFrame f) s = .next t ∧ Touches [.plumb, .ash, .host, .regs] s t ∧ RegsBut [] s t ∧ others t ∧
          t.dev.core.mod m = { x with st := .mismatch } ∧ t.dev.core.Raised 0x0342 (modPath m)) ∧
        (identOk → x.lastCycle = some f.cycle → f.crcOk = true → ∃ t, exec (.stoneFrame f) s = .next t ∧
          Touches [.plumb, .ash] s t ∧ others t ∧
          t.dev.core.mod m = (if f.viaB then { x with missB := 0 } else { x with missA := 0 })) ∧
        (identOk → x.lastCycle ≠ some f.cycle → x.first = false → x.st = .operational → 32768 ≤ d16 →
          ∃ t, exec (.stoneFrame f) s = .next t ∧ Touches [.plumb, .ash] s t ∧ others t ∧
            t.dev.core.mod m = { x with outOfOrder := min 255 (x.outOfOrder + 1) }) ∧
        (identOk → x.first = true ∨ x.st ≠ .operational ∨ d16 < 32768 → f.crcOk = false → counted) ∧
        (identOk → x.lastCycle ≠ some f.cycle → x.first = true ∨ x.st ≠ .operational ∨ d16 < 32768 → f.crcOk = true →
          (∀ a, a ∈ c.axesOn → c.axDrive a = false) → c.image.pair.en = false →
          ∃ t, exec (.stoneFrame f) s = .next t ∧ Touches [.plumb, .ash, .host, .regs, .spr, .cap, .ln, .mem] s t ∧ RegsBut [] s t ∧ others t ∧
            (let y := t.dev.core.mod m
             let judged := x.first = false ∧ x.st = .operational
             y.act = { bytes := f.bytes, time := f.sample, seq := f.seq } ∧ y.inact = x.act ∧ y.hasData = true ∧ y.age = 0 ∧ y.missing = 0 ∧
               y.gotThis = true ∧ y.seq = f.seq ∧ y.lastCycle = some f.cycle ∧ y.claimSeen = f.claim ∧
               y.repeated = (if judged ∧ d16 = 0 then min 65535 (x.repeated + 1) else x.repeated) ∧
               y.missed = (if judged ∧ 2 ≤ d16 then min 65535 (x.missed + (d16 - 1)) else x.missed) ∧
               (f.status.testBit 0 = true → x.st ≠ .operational → y.st = .operational ∧ t.dev.core.Raised 0x0301 (modPath m)) ∧
               (f.status.testBit 0 = false ∨ x.st = .operational → y.st = x.st))))) ∧
    (∀ r : ModReport,
      let p := r.port
      let x := c.port p
      x.enum = some (.report r.slot r.part) → r.slot < x.found →
      let ask (t : State) (pos part : Nat) : Prop := Touches [.ash] s t ∧ t.dev.core.ash.mods = c.ash.mods ∧
        (∀ k, k ≠ p → t.dev.core.port k = c.port k) ∧
        t.dev.core.port p = { x with got := x.got ++ [r], enum := some (.report pos part) } ∧
        (x.linkUp = true → .ash (c.ashHdr p 4 4) [pos, part] ∈ t.dev.core.out)
      (r.part + 1 < r.parts → ∃ t, exec (.report r) s = .next t ∧ ask t r.slot (r.part + 1)) ∧
      (r.parts ≤ r.part + 1 → r.slot + 1 < x.found → ∃ t, exec (.report r) s = .next t ∧ ask t (r.slot + 1) 0) ∧
      (r.parts ≤ r.part + 1 → x.found ≤ r.slot + 1 → ∃ t, exec (.report r) s = .next t ∧ Touches [.ash, .mem, .host, .regs] s t ∧
        RegsBut [] s t ∧ (t.dev.core.port p).enum = none ∧ (t.dev.core.port p).got = [] ∧ (∀ k, k ≠ p → t.dev.core.port k = c.port k) ∧
        (∀ m, m ∈ c.portMods p → x.found ≤ m % 512 → (t.dev.core.mod m).st = .absent ∧ t.dev.core.Raised 0x0342 (modPath m)) ∧
        (((t.dev.core.port p).st = .cycling ∧ t.dev.core.Raised 0x0306 (prtPath p)) ∨
          ((t.dev.core.port p).st = .scheduleFault ∧ t.dev.core.Raised 0x0347 (prtPath p))))) ∧
    (∀ p,
      let x := c.port p
      (∀ n, x.enum = some .enum →
        (x.prevCount ≠ some n → ∃ t, exec (.enumReturn p n) s = .next t ∧ Touches [.ash] s t ∧ t.dev.core.ash.mods = c.ash.mods ∧
          t.dev.core.port p = { x with prevCount := some n, count := n } ∧ (x.linkUp = true → .ash (c.ashHdr p 3 4) [0] ∈ t.dev.core.out)) ∧
        (x.prevCount = some n → 0 < n → ∃ t, exec (.enumReturn p n) s = .next t ∧ Touches [.ash] s t ∧ t.dev.core.ash.mods = c.ash.mods ∧
          t.dev.core.port p = { x with found := min n 512, count := n, enum := some (.report 0 0) } ∧
          (x.linkUp = true → .ash (c.ashHdr p 4 4) [0, 0] ∈ t.dev.core.out))) ∧
      (x.enum = some .enum → ∃ t, exec (.enumReplyTimeout p) s = .next t ∧ Touches [.ash, .mem, .host, .regs] s t ∧ RegsBut [] s t ∧
        (t.dev.core.port p).enum = none ∧ (t.dev.core.port p).found = 0 ∧
        ∀ m, m ∈ c.portMods p → (t.dev.core.mod m).st = .absent ∧ t.dev.core.Raised 0x0342 (modPath m)) ∧
      (∀ pos part, x.enum = some (.report pos part) → pos + 1 < x.found → ∃ t, exec (.enumReplyTimeout p) s = .next t ∧ Touches [.ash] s t ∧
        t.dev.core.port p = { x with got := x.got.filter (fun r => r.slot != pos), enum := some (.report (pos + 1) 0) }) ∧
      (x.linkUp = true → c.ashRole p ≠ 0 → ∃ t, exec (.ashLinkDown p) s = .next t ∧ Touches [.ash, .host, .regs] s t ∧ RegsBut [] s t ∧
        t.dev.core.port p = { x with linkUp := false } ∧ t.dev.core.Raised 0x0346 (prtPath p)) ∧
      (∃ t, exec (.ashLinkUp p) s = .next t ∧ Touches [.ash] s t ∧ t.dev.core.port p = { x with linkUp := true })) ∧
    (∀ (f : SafeMsg) m, c.safeMod f.safeId = some m → c.ash.safe = [] →
      (f.crcOk = false → ∃ t, exec (.safeUp f) s = .next t ∧ Touches [.plumb, .regs] s t ∧ RegsBut [ashA A.ASH_RX_BAD (modPort m)] s t ∧
        t.dev.core.regN (ashA A.ASH_RX_BAD (modPort m)) = sat32 (c.regN (ashA A.ASH_RX_BAD (modPort m)) + 1)) ∧
      (f.crcOk = true → ∃ t, exec (.safeUp f) s = .next t ∧ Touches [.plumb, .ash] s t ∧ t.dev.core.now = max c.now f.time ∧
        t.dev.core.ash = { c.ash with safe := [{ msg := f, time := max c.now f.time }] })) ∧
    (∀ (f : SafeMsg) m k, c.safeMod f.safeId = some m → f.crcOk = true → c.ash.safe = [k] → k.msg.safeId = f.safeId → k.msg.seq = f.seq →
      k.msg.copyB ≠ f.copyB → max c.now f.time ≤ k.time + (c.port (modPort m)).skew →
      let n := c.ash.safeEp.contains f.safeId
      (payloadOf k.msg ≠ payloadOf f → ∃ t, exec (.safeUp f) s = .next t ∧ Touches [.plumb, .ash, .host, .regs] s t ∧ RegsBut [] s t ∧
        t.dev.core.ash.safe = [] ∧ (t.dev.core.mod m).safeErr = min 255 ((c.mod m).safeErr + 1) ∧
        (n = false → t.dev.core.Raised 0x0344 (modPath m))) ∧
      (payloadOf k.msg = payloadOf f → ∃ t, exec (.safeUp f) s = .next t ∧ t.pending = s.pending ∧ t.dev.core.ash.safe = [] ∧
        t.dev.core.mod m = c.mod m ∧ f.safeId ∉ t.dev.core.ash.safeEp)) ∧
    (∀ p, c.pairOn = true → c.mr.role = .standby → c.ashRole p = 4 → c.mr.frozen = false →
      let x := c.port p
      (∀ claim n ws, c.mr.partnerKnown = true → claim = c.mr.beat.claim → (ws.map Prod.fst).Nodup →
        ∃ t, exec (.courseFrameShadow p claim n ws) s = .next t ∧ Touches [.ash, .md] s t ∧ t.dev.core.ash.mods = c.ash.mods ∧
          t.dev.core.md = { c.md with committed := true } ∧ (∃ b, t.dev.core.port p = { x with shadowAge := 0, shadowLost := false, built := b }) ∧
          (∀ k, k ≠ p → ∃ b, t.dev.core.port k = { c.port k with built := b }) ∧
          (∀ w ∈ ws, w.1 / 512 / 512 = p → w.1 % 512 < c.segLen (w.1 / 512) → t.dev.core.outWord w.1 = w.2) ∧
          ∀ k, k ∉ ws.map Prod.fst ∨ k / 512 / 512 ≠ p ∨ c.segLen (k / 512) ≤ k % 512 → t.dev.core.outWord k = c.outWord k) ∧
      (c.mr.partnerHeard = true → c.mr.missRun = 0 → x.shadowLost = false → x.holdWin ≤ x.shadowAge →
        ∃ t, exec (.shadowLost p) s = .next t ∧ Touches [.ash, .host, .regs] s t ∧ RegsBut [] s t ∧ t.dev.core.ash.mods = c.ash.mods ∧
          (∃ b, t.dev.core.port p = { x with shadowLost := true, built := b }) ∧ t.dev.core.Raised 0x0506 (mrPath 1) ∧
          ∀ m, m ∈ c.portMods p → ∀ i, i < c.segLen m → i < 512 → t.dev.core.outWord (outKey m i) = ((c.passiveOf m)[i]?).getD 0))

/-- A flooded frame from another device that is not a duplicate, over a link, is noted and goes on over every other link with one more hop; a
duplicate is counted in LN_DUP alone. A frame with a bad header is counted in LN_RX_BAD and goes nowhere; one with a bad FCS is counted too
and ends stomped where it was going on. HELLO enters its device in the map, which loses one that is silent for four intervals; another
device with the own number is a conflict with 0x0443. A link that comes up sends a challenge, and its answer, or none, gives KNOWN, NEW or
FAILED with its event. A SHAFT frame is obeyed by its claim; the value of a tick is on time, late with 0x0407 or stale with 0x0441. Exports
due leave at their tick, an entry that is bound reaches its class 6 tag and goes stale later, and a TRIGGER frame fires the triggers that
name it. SAFE, MGMT and relayed chunks go on toward their target; a chunk waits for its acknowledgement, is sent again up to eight times and
then abandoned with 0x0444. HIST carries stream units, and HIST_ACK frees them. (15_lintel_chain.md R654, 15_lintel_chain.md R659,
15_lintel_chain.md R661, 15_lintel_chain.md R662, 15_lintel_chain.md R666, 15_lintel_chain.md R668, 15_lintel_chain.md R670,
15_lintel_chain.md R671, 15_lintel_chain.md R672, 15_lintel_chain.md R673, 15_lintel_chain.md R674, 15_lintel_chain.md R678) -/
def Obligations.LintelEvents : Prop :=
  ∀ (s : State),
    let c := s.dev.core
    let b := c.plumb
    let head (f : LnHdr) : List Nat := [f.origin, f.seq, f.claim, f.hops + 1]
    let mine : List Nat := c.lnHead
    let linked (u : Nat) : Prop := (c.lnPort u).link = true
    let good (f : LnHdr) : Prop := lnBad f = false ∧ f.crcOk = true
    let known (f : LnHdr) (type : Nat) : Prop := c.lnOn = true ∧ c.lnUnit f.unit = true ∧ linked f.unit ∧ f.origin ≠ c.devNum ∧
      (type = 1 ∨ c.barred f = false)
    let heard (f : LnHdr) (type : Nat) : Prop := known f type ∧ good f
    let passes (f : LnHdr) (type : Nat) : Prop := heard f type ∧ c.ln.seen.contains (f.origin, f.seq) = false ∧ f.hops < 1023
    let onward (f : LnHdr) (type : Nat) (ws : List Nat) (t : State) : Prop := t.dev.core.ln.seen = addSeen f.origin f.seq c.ln.seen ∧
      ∀ u, u < 4 → u ≠ f.unit → linked u → t.dev.core.LnSent u type (head f ++ ws)
    let works := c.md.mode = .standby ∨ c.running = true
    let frees := c.image.pair.en = false ∧ c.ln.numConflict = false
    let port (t : State) (u : Nat) (p : LnPort) : Prop := Touches [.plumb, .ln, .host, .regs] s t ∧ RegsBut [] s t ∧
      t.dev.core.lnPort u = p ∧ ∀ v, v ≠ u → t.dev.core.lnPort v = c.lnPort v
    let sends (t : State) (us : List Nat) : Prop := ∀ v, (v ∉ us → t.dev.core.lnPort v = c.lnPort v) ∧ (c.lnPort v).SendsOnly (t.dev.core.lnPort v)
    let numbered (f : LnHdr) : List (Nat × Instr) :=
      [(1, .hello f {}), (2, .shaft f { t := 0, p := 0, v := 0, a := 0 }), (3, .exportFrame f []), (4, .trigger f 0 0)]
    let shaftWords (m : ShaftMsg) : List Nat := [(m.p / 2 ^ 32 % 2 ^ 64).toNat, (m.p % 2 ^ 32).toNat, (m.v % 2 ^ 64).toNat, (m.a % 2 ^ 64).toNat,
      secOf m.t, tickOf m.t % 64000]
    (∀ f h m es trig t0, c.ln.seen.contains (f.origin, f.seq) = true →
      ∀ i ∈ [(1, Instr.hello f h), (2, .shaft f m), (3, .exportFrame f es), (4, .trigger f trig t0)], heard f i.1 →
        ∃ t, exec i.2 s = .next t ∧ Touches [.regs] s t ∧ RegsBut [A.LN_DUP] s t ∧
          t.dev.core.regN A.LN_DUP = sat32 (c.regN A.LN_DUP + 1) ∧ t.dev.core.out = []) ∧
    (∀ f, ∀ i ∈ numbered f, known f i.1 →
      let bad := A.LN_RX_BAD + 0x40 * f.unit
      let counted (t : State) (l : List Part) : Prop := Touches (.regs :: l) s t ∧ RegsBut [bad] s t ∧
        t.dev.core.regN bad = sat32 (c.regN bad + 1)
      (lnBad f = true → ∃ t, exec i.2 s = .next t ∧ counted t [] ∧ t.dev.core.out = []) ∧
      (lnBad f = false → f.crcOk = false → c.ln.seen.contains (f.origin, f.seq) = false → f.hops < 1023 → ∃ t, exec i.2 s = .next t ∧
        counted t [.ln] ∧ t.dev.core.ln.seen = c.ln.seen ∧ t.dev.core.ln.devs = c.ln.devs ∧ t.dev.core.ln.shaft = c.ln.shaft ∧
        ∀ u, u < 4 → u ≠ f.unit → linked u → .stomped u i.1 ∈ t.dev.core.out)) ∧
    (c.lnOn = true → ∃ t, exec .helloSend s = .next t ∧ Touches [.plumb, .ln] s t ∧
      (let d := t.dev.core
       let me : LnDev := { dev := c.devNum, fp := Config.identityFp, mode := modeCode c.md.mode, links := c.myLinks, last := d.plumb.elapsed }
       d.now = c.now + (c.ln.lastHello + ticks 1000 - b.elapsed) ∧ d.ln.lastHello = d.plumb.elapsed ∧
         d.ln.devs = me :: c.ln.devs.filter (fun x => x.dev != c.devNum) ∧
         (c.image.pair.en = false ∨ c.mr.role = .active → d.ln.seq = (c.ln.seq + 1) % 2 ^ 32 ∧ ∀ u, u < 4 → linked u →
           d.LnSent u 1 (mine ++ ([Config.identityFp, modeCode c.md.mode] ++ c.myLinks.flatMap fun k => [k.2.1, k.2.2]))))) ∧
    (∀ f (h : HelloMsg), passes f 1 → ∃ t, exec (.hello f h) s = .next t ∧ Touches [.ln, .host, .regs] s t ∧ RegsBut [] s t ∧
      onward f 1 ([h.fp, h.mode] ++ h.links.flatMap fun k => [k.2.1, k.2.2]) t ∧
      t.dev.core.ln.devs = { dev := f.origin, fp := h.fp, mode := h.mode, links := h.links, last := b.elapsed } ::
        c.ln.devs.filter fun x => x.dev != f.origin) ∧
    (∀ f (h : HelloMsg), f.origin = c.devNum → c.lnOn = true → good f → h.fp ≠ Config.identityFp → c.image.pair.en = false →
      ∃ t, exec (.hello f h) s = .next t ∧ Touches [.ln, .host, .regs] s t ∧ RegsBut [] s t ∧
        t.dev.core.ln = { c.ln with numConflict := true } ∧ (c.ln.numConflict = false → t.dev.core.Raised 0x0443 lnPath)) ∧
    (∀ dev x, c.ln.devs.find? (fun y => y.dev == dev) = some x → dev ≠ c.devNum → ∃ t, exec (.neighbourTimeout dev) s = .next t ∧
      Touches [.plumb, .ln, .host, .regs] s t ∧ RegsBut [] s t ∧ t.dev.core.now = c.now + (x.last + ticks 4000 - b.elapsed) ∧
      t.dev.core.ln.devs = c.ln.devs.filter fun y => y.dev != dev) ∧
    (∀ u,
      let p := c.lnPort u
      (c.lnUnit u = true → p.link = false → c.lnOn = true → ∃ t, exec (.linkUp u) s = .next t ∧
        Touches [.ln, .host, .regs, .free] s t ∧ RegsBut [] s t ∧ (∀ v, v ≠ u → t.dev.core.lnPort v = c.lnPort v) ∧
        LnPort.SendsOnly { p with link := true, nb := .verifying, identFrom := b.elapsed, nonce := Config.freeNat c.free, identGot := [] }
          (t.dev.core.lnPort u) ∧ t.dev.core.LnSent u 0x10 (mine ++ [0, Config.freeNat c.free])) ∧
      (p.link = true → ∃ t, exec (.lintelLinkDown u) s = .next t ∧
        port t u { p with link := false, nb := .none, nbNum := 0, nbFp := 0, waiting := [] }) ∧
      (∀ m : IdentMsg, u < 4 → c.lnOn = true → p.link = true →
        (m.answer = false → ∃ t, exec (.ident u m) s = .next t ∧ Touches [.ln] s t ∧ sends t [u] ∧
          t.dev.core.LnSent u 0x10 (mine ++ c.identWords m.nonce)) ∧
        (m.answer = true → p.nb = .verifying →
          let l := if m.piece < 21 ∧ m.piece ∉ p.identGot then m.piece :: p.identGot else p.identGot
          let judged (nb : NbState) : LnPort := { p with nbNum := m.num, nbFp := m.fp, nb := nb, identGot := [] }
          (l.length < 21 → ∃ t, exec (.ident u m) s = .next t ∧ port t u { p with identGot := l }) ∧
          (21 ≤ l.length → m.sigOk = false ∨ Config.sha3 [m.key] ≠ m.fp → ∃ t, exec (.ident u m) s = .next t ∧ port t u (judged .failed) ∧
            t.dev.core.Raised 0x0442 (path 4 u m.num)) ∧
          (21 ≤ l.length → m.sigOk = true → Config.sha3 [m.key] = m.fp → ∃ t, exec (.ident u m) s = .next t ∧
            if m.fp ≠ 0 ∧ m.fp = p.knownFp then port t u (judged .known) ∧ t.dev.core.Raised 0x0401 (path 4 u m.num)
            else port t u (judged .new) ∧ t.dev.core.Raised 0x0402 (path 4 u m.num)))) ∧
      (p.nb = .verifying → ∃ t, exec (.identTimeout u) s = .next t ∧ port t u { p with nb := .failed } ∧
        t.dev.core.now = c.now + (p.identFrom + 50 * ms - b.elapsed) ∧ t.dev.core.Raised 0x0442 (c.nbPath u))) ∧
    (∀ f (m : ShaftMsg), passes f 2 →
      let was := SMap.get (0, 0) c.ln.claims f.origin
      (was.1 ≤ f.claim ∨ was.2 + ticks c.image.pair.shaftHoldWin ≤ c.now → ∃ t, exec (.shaft f m) s = .next t ∧ Touches [.ln] s t ∧
        onward f 2 (shaftWords m) t ∧ SMap.get (0, 0) t.dev.core.ln.claims f.origin = (f.claim, c.now) ∧
        t.dev.core.ln.shaft = (({ t := m.t, p := m.p, v := m.v, a := m.a, claim := f.claim, src := f.origin } : ShaftPub) :: c.ln.shaft).take 128 ∧
        t.dev.core.ln.pathNs = sat32 ((c.now - m.t) / 65536)) ∧
      (f.claim < was.1 → c.now < was.2 + ticks c.image.pair.shaftHoldWin → ∃ t, exec (.shaft f m) s = .next t ∧ Touches [.ln] s t ∧
        onward f 2 (shaftWords m) t ∧ t.dev.core.ln.shaft = c.ln.shaft ∧ t.dev.core.ln.claims = c.ln.claims)) ∧
    (∀ at_, b.tickAt = some at_ → c.ln.shaftTick ≠ some at_ → c.ln.shaft ≠ [] → works →
      let st := c.ln.shaftState
      let age := sat32 (c.ln.shaftAge + 1)
      let ran (t : State) (l : List Nat) : Prop := Touches [.ln, .host, .regs, .mem, .spr, .cap] s t ∧ RegsBut l s t ∧
        t.dev.core.ln.shaftTick = some at_ ∧ ∀ p v a t0 t1 t2 t3, c.shaftAt at_ = some (p, v, a) → c.image.shaft = [t0, t1, t2, t3] →
          [t0, t1, t2, t3].Nodup → t.dev.core.tagVal t0 = BitVec.ofInt 64 (p / 2 ^ 32) ∧ t.dev.core.tagVal t1 = BitVec.ofInt 64 (p % 2 ^ 32) ∧
            t.dev.core.tagVal t2 = BitVec.ofInt 64 v ∧ t.dev.core.tagVal t3 = BitVec.ofInt 64 a
      ((c.pubFor at_).isSome = true → ∃ t, exec .shaftConsume s = .next t ∧ ran t [] ∧ t.dev.core.ln.shaftState = .ok ∧
        t.dev.core.ln.shaftAge = 0 ∧ (st = .extrap ∨ st = .stale → t.dev.core.Raised 0x0408 lnPath)) ∧
      (c.pubFor at_ = none → ∃ t, exec .shaftConsume s = .next t ∧ ran t [A.LN_SHAFT_LATE] ∧ t.dev.core.ln.shaftAge = age ∧
        t.dev.core.regN A.LN_SHAFT_LATE = sat32 (c.regN A.LN_SHAFT_LATE + 1) ∧
        t.dev.core.ln.shaftState = (if c.regN A.LN_SHAFT_HOLD ≤ age ∨ st = .stale then .stale else .extrap) ∧
        (st = .ok ∨ st = .none → t.dev.core.Raised 0x0407 lnPath) ∧
        (c.regN A.LN_SHAFT_HOLD ≤ age → st ≠ .stale → t.dev.core.Raised 0x0441 lnPath))) ∧
    (∀ at_, b.tickAt = some at_ → c.ln.exportTick ≠ some at_ → works →
      let due := c.image.exports.filter fun e => e.period ≠ 0 ∧ tickOf at_ % e.period = 0
      ∃ t, exec .exportSend s = .next t ∧ Touches [.ln] s t ∧ t.dev.core.ln.exportTick = some at_ ∧
        (due = [] → t.dev.core.out = []) ∧
        (due ≠ [] → due.length ≤ 16 → frees → ∀ u, u < 4 → linked u →
          t.dev.core.LnSent u 3 (mine ++ ([secOf at_, nsOf at_] ++ (due.map fun e => c.tagNow e.tag).flatMap fun e =>
            [e.tag, ((((e.time : Int) - at_) / 65536) % 2 ^ 32).toNat, e.value.toNat, flg e.stale 0])))) ∧
    (∀ f (e : ExportVal), passes f 3 →
      let bound := c.image.imports.find? fun i => i.origin == f.origin && i.tag == e.tag
      let ws := [e.tag, e.value.toNat, e.time, flg e.stale 0]
      (∀ i, bound = some i → ∃ t, exec (.exportFrame f [e]) s = .next t ∧ Touches [.ln, .mem, .spr, .cap, .host, .regs] s t ∧
        RegsBut [] s t ∧ onward f 3 ws t ∧ t.dev.core.tagVal i.local6 = e.value ∧
        t.dev.core.import_ i.local6 = { value := e.value, time := e.time, arrived := c.now, got := true, stale := e.stale }) ∧
      (bound = none → ∃ t, exec (.exportFrame f [e]) s = .next t ∧ Touches [.ln] s t ∧ onward f 3 ws t ∧
        t.dev.core.ln.imports = c.ln.imports)) ∧
    (∀ tag i, c.image.imports.find? (fun i => i.local6 == tag) = some i → (c.import_ tag).got = true → (c.import_ tag).stale = false →
      ∃ t, exec (.importStale tag) s = .next t ∧ Touches [.plumb, .ln] s t ∧
        t.dev.core.now = max c.now ((c.import_ tag).arrived + ticks i.stale) ∧
        t.dev.core.import_ tag = { c.import_ tag with stale := true }) ∧
    (∀ f trig at_, passes f 4 → ∃ t, exec (.trigger f trig at_) s = .next t ∧ Touches [.ln, .host, .regs, .cap, .spr] s t ∧ RegsBut [] s t ∧
      onward f 4 [trig, secOf at_, nsOf at_, fracOf at_] t ∧
      ∀ x, x < 128 → c.trigRuns x = true → c.trigKind x = 6 → bits (c.reg (A.TR_CHAIN + 0x40 * x)) 25 16 = f.origin →
        bits (c.reg (A.TR_CHAIN + 0x40 * x)) 6 0 = trig → at_ ≤ c.now + second →
        (t.dev.core.trig x).count = sat32 ((c.trig x).count + 1) ∧ (t.dev.core.trig x).lastTime = at_) ∧
    (∀ f (x : SafeMsg), c.lnOn = true → f.unit < 2 → linked f.unit → lnBad f = false → f.origin ≠ c.devNum →
        c.barred f = false →
      (f.crcOk = true → x.target ≠ c.devNum → linked (1 - f.unit) → f.hops < 1023 → ∃ t, exec (.safe f x) s = .next t ∧ Touches [.ln] s t ∧
        sends t [1 - f.unit] ∧ t.dev.core.LnSent (1 - f.unit) 5
          (head f ++ ([x.target, x.safeId, flg x.copyB 0, x.seq, safeLen x.len] ++ safeWords x))) ∧
      (x.target = c.devNum → f.crcOk = false → ∃ t, exec (.safe f x) s = .next t ∧ Touches [.regs] s t ∧
        RegsBut [A.LN_RX_BAD + 0x40 * f.unit] s t ∧
        t.dev.core.regN (A.LN_RX_BAD + 0x40 * f.unit) = sat32 (c.regN (A.LN_RX_BAD + 0x40 * f.unit) + 1)) ∧
      (x.target = c.devNum → f.crcOk = true → c.ln.safe = [] → (SMap.get (0, 0) c.ln.claims f.origin).1 ≤ f.claim →
        ∃ t, exec (.safe f x) s = .next t ∧ Touches [.plumb, .ln] s t ∧ t.dev.core.now = max c.now x.time ∧ t.dev.core.ln.safe = [{ msg := x, time := max c.now x.time }])) ∧
    (∀ f (m : MgmtMsg), c.lnOn = true → linked f.unit → good f → c.ln.pieces = [] →
      (2 ≤ m.pieces → ∃ t, exec (.mgmt f m) s = .next t ∧ Touches [.ln] s t ∧ t.dev.core.out = [] ∧
        t.dev.core.ln = { c.ln with pieces := [(f.unit, f.origin, m.message, m.piece)] }) ∧
      (m.pieces = 1 → m.piece = 0 → m.target ≠ 0xFFFE →
        (∀ u, m.target ≠ c.devNum → c.route m.target = some u → ∃ t, exec (.mgmt f m) s = .next t ∧ Touches [.ln] s t ∧
          sends t [u] ∧ t.dev.core.LnSent u 0x11 (head f ++ [m.target, m.message, 0, 1])) ∧
        (∀ u, m.target ≠ c.devNum → c.route m.target = none → m.source = 0xFFFF → c.route f.origin = some u → linked u →
          ∃ t, exec (.mgmt f m) s = .next t ∧ Touches [.ln] s t ∧ sends t [u] ∧
            t.dev.core.LnSent u 0x11 (mine ++ [f.origin, 0x30, c.noRoute m.target, m.target])) ∧
        (m.target = c.devNum → m.source ≠ 0xFFFF → m.type = 0x02 → ∃ t, exec (.mgmt f m) s = .next t ∧ Touches [.ln, .host] s t ∧
          t.dev.core.out = [.datagram 0x02 [((c.host.probes.find? fun e => e.1 == m.source).map (·.2)).getD c.host.prober, m.source]]))) ∧
    (∀ u (m : RelayMsg), c.md.held = false → c.md.mode ≠ .configure → c.md.mode ≠ .recovery → linked u →
      let ack (n : Nat) (t : State) : Prop := t.dev.core.LnSent u 0x13 (mine ++ [m.d.cont, m.d.chunk, n])
      let refused (n : Nat) : Prop := ∃ t, exec (.relay u m) s = .next t ∧ Touches [.ln] s t ∧ sends t [u] ∧ ack n t
      let known := c.ln.store.contains (m.d.cont, m.d.chunk)
      (known = true → refused 0) ∧
      (known = false → m.d.chunk = 0 → c.headTest m.d.hdr ≠ 0 → refused 2) ∧
      (known = false → m.d.chunk ≠ 0 → m.d.hashOk = false → refused 1) ∧
      (∀ v, c.ln.given.contains (m.d.cont, v) = false → linked v → known = false → (m.d.chunk = 0 → c.headTest m.d.hdr = 0) → m.d.hashOk = true →
        (m.d.chunk ≠ 0 → c.ln.store.contains (m.d.cont, 0) = true) → m.target ≠ c.devNum → m.target ≠ 0xFFFF → c.route m.target = some v → v ≠ u →
        ∃ t, exec (.relay u m) s = .next t ∧ Touches [.ln, .up] s t ∧ sends t [u, v] ∧ ack 0 t ∧
          t.dev.core.LnSent v 0x12 ((c.lnSeq 1).lnHead ++ [m.target, m.d.cont, m.d.chunk, m.chunks]) ∧
          t.dev.core.ln.store = (m.d.cont, m.d.chunk) :: c.ln.store ∧ t.dev.core.ln.relay = c.ln.relay ++ [{
            cont := m.d.cont, chunk := m.d.chunk, unit := v, target := m.target, chunks := m.chunks, sentAt := b.elapsed }])) ∧
    (∀ u cont chunk r, c.ln.relay.find? (fun r => r.cont == cont && r.chunk == chunk && r.unit == u) = some r →
      let left (t : State) (p : RelayChunk → Bool) : Prop := Touches [.ln] s t ∧ t.dev.core.out = [] ∧
        t.dev.core.ln = { c.ln with relay := c.ln.relay.filter p }
      (∃ t, exec (.relayAck u cont chunk 0) s = .next t ∧ left t fun x => !(x.cont == cont && x.chunk == chunk && x.unit == u)) ∧
      (linked u → ∃ t, exec (.relayAck u cont chunk 1) s = .next t ∧ Touches [.ln] s t ∧ sends t [u] ∧
        t.dev.core.LnSent u 0x12 (mine ++ [r.target, cont, chunk, r.chunks])) ∧
      (∀ n, 2 ≤ n → ∃ t, exec (.relayAck u cont chunk n) s = .next t ∧ Touches [.ln] s t ∧ t.dev.core.out = [] ∧ t.dev.core.ln = { c.ln with
        relay := c.ln.relay.filter fun x => !(x.cont == cont && x.unit == u), given := (cont, u) :: c.ln.given })) ∧
    (∀ cont chunk r, c.ln.relay.find? (fun r => r.cont == cont && r.chunk == chunk) = some r →
      let late (t : State) : Prop := t.dev.core.now = c.now + (r.sentAt + 20 * ms - b.elapsed)
      (r.resends < 8 → linked r.unit → ∃ t, exec (.relayResendTimeout cont chunk) s = .next t ∧ Touches [.plumb, .ln] s t ∧ late t ∧
        sends t [r.unit] ∧ t.dev.core.LnSent r.unit 0x12 (mine ++ [r.target, cont, chunk, r.chunks]) ∧
        t.dev.core.ln.relay = c.ln.relay.map fun x =>
          if x = r then { x with resends := x.resends + 1, sentAt := t.dev.core.plumb.elapsed } else x) ∧
      (8 ≤ r.resends → ∃ t, exec (.relayResendTimeout cont chunk) s = .next t ∧ Touches [.plumb, .ln, .up, .host, .regs] s t ∧
        RegsBut [] s t ∧ late t ∧ t.dev.core.ln.relay = c.ln.relay.filter (fun x => !(x.cont == cont && x.unit == r.unit)) ∧
        t.dev.core.ln.given = (cont, r.unit) :: c.ln.given ∧ t.dev.core.up.abandoned = sat32 (c.up.abandoned + 1) ∧ t.dev.core.Raised 0x0444 (c.nbPath r.unit))) ∧
    (∀ k, c.rsDest k = 2 →
      let x := c.stream k
      let l := (x.ring.drop x.sent).take 16
      (∀ u, l ≠ [] → works → c.route (c.fld (rsA A.RS_PEER_CFG k) 25 16) = some u → linked u → ∃ t, exec (.hist k) s = .next t ∧
        Touches [.spr, .ln] s t ∧ t.dev.core.stream k = { x with sent := x.sent + l.length } ∧ (∀ j, j ≠ k → t.dev.core.stream j = c.stream j) ∧
        sends t [u] ∧ (c.rsSize k ≠ 0 → t.dev.core.LnSent u 0x14 (mine ++ ([k, (x.rdPtr + x.sent) % c.rsSize k] ++ l.map (·.toNat))))) ∧
      (∀ n, n ≠ 0 → c.peerBarred k = false → ∃ t, exec (.histAck k n) s = .next t ∧ Touches [.spr] s t ∧ (∀ j, j ≠ k → t.dev.core.stream j = c.stream j) ∧
        (t.dev.core.stream k).ring = x.ring.drop n ∧ (t.dev.core.stream k).sent = x.sent - min n x.ring.length ∧ (t.dev.core.stream k).lastAck = b.elapsed ∧ (t.dev.core.stream k).peerSilent = false ∧
        (c.rsSize k ≠ 0 → (t.dev.core.stream k).rdPtr = (x.rdPtr + min n x.ring.length) % c.rsSize k)))

/-- A heartbeat of another version is a mismatch with 0x0544, one out of its tick costs the standby its sync with 0x0542, and any other is
noted. Of a known partner with a higher claim it demotes an active or yielding unit with 0x0582 or 0x0507; to a unit without a role it gives
one, with the claim of R686; else it brings the acknowledgement and the request to resync. The third heartbeat missed leaves an active alone
with 0x0541; a standby, as at a YIELD, takes over from the last epoch with 0x0581 where it is in sync, and gives up with 0x0543 where it is
not. A frame with a bad FCS is dropped and one of another version a mismatch. Frames of epochs and resyncs are staged; a complete epoch is
switched in and completes a resync with 0x0501, any other one is discarded with 0x0505, and a complete snapshot starts the sync. A package
whose base runs is loaded or refused with 0x0843. A wait without a partner makes the unit active alone, and MOR that comes up sends a
challenge. (16_mortar_redundancy.md R685, 16_mortar_redundancy.md R686, 16_mortar_redundancy.md R688, 16_mortar_redundancy.md R689,
16_mortar_redundancy.md R697, 16_mortar_redundancy.md R699, 16_mortar_redundancy.md R704, 16_mortar_redundancy.md R705,
16_mortar_redundancy.md R709, 16_mortar_redundancy.md R712, 16_mortar_redundancy.md R713, 16_mortar_redundancy.md R721) -/
def Obligations.MortarEvents : Prop :=
  ∀ (s : State), s.dev.core.pairOn = true →
    let c := s.dev.core
    let m := c.mr
    let p := c.image.pair
    let high (seen : Nat) : Nat := max p.claimBase (max m.claim seen)
    let above (seen n : Nat) : Nat := if 0xFFFFFFFF < high seen + n then p.claimBase + 1 else high seen + n
    let only (t : State) (l : List Part) : Prop := Touches l s t ∧ RegsBut [] s t
    let pin (t : State) (on : Bool) : Prop := t.dev.core.mr.activePin = on ∧ (m.activePin ≠ on → .pin 8 0 on ∈ t.dev.core.out)
    let built (t : State) : Prop := c.ash.BuiltOnly t.dev.core.ash
    let decs : List Nat := m.mItems.flatMap fun e => match e with
      | .axis a r => if r.dec.isSome then [axA A.AX_DEC a, axA A.AX_DEC a + 4] else []
      | _ => []
    let ok (h : MorHdr) : Prop := h.crcOk = true ∧ h.version = 1
    let foreign (t : State) : Prop := only t [.mr, .host, .regs] ∧ t.dev.core.mr.state = .mismatch ∧
      (m.role = .standby → t.dev.core.mr.inSync = false) ∧ t.dev.core.mr.role = m.role ∧ (m.state ≠ .mismatch → t.dev.core.Raised 0x0544 (mrPath 1))
    let failed (t : State) (seen : Nat) : Prop :=
      let d := t.dev.core
      (m.inSync = false → only t [.mr, .ash, .host, .regs] ∧ d.mr.role = .standby ∧ d.mr.state = .unsynced ∧ d.Raised 0x0543 (mrPath 0)) ∧
        (m.inSync = true → Touches [.mr, .ln, .mot, .wq, .fab, .cap, .ash, .host, .regs, .free] s t ∧ RegsBut decs s t ∧ built t ∧ d.mr.role = .active ∧ d.mr.state = .alone ∧
          d.mr.claim = above seen 1 ∧ d.mr.takeovers = sat32 (m.takeovers + 1) ∧ d.mr.toTime = c.now ∧ d.mr.frozen = true ∧
          d.mr.inSync = false ∧ d.mr.mBlocks = m.mBlocks ∧ d.mr.epochApplied = m.epochApplied ∧
          d.mr.toPending = some (if m.beat.mode = 5 ∨ m.beat.mode = 6 then .run else .standby) ∧
          d.ln.seq = (m.beat.lnSeq + 256) % 2 ^ 32 ∧ d.Raised 0x0581 (mrPath 0) ∧ ∀ u, (d.unit u).st = .idle)
    (∀ b : BeatMsg,
      let inTick := b.version = 1 ∧ b.tick = tickOf c.now
      let same := b.imageId = c.image.imageId ∧ b.safetyHash = c.safetyHash
      let seen := max m.claimSeen (max b.claim b.claimSeen)
      let counted (t : State) : Prop := t.dev.core.mr.hbThisTick = true ∧ t.dev.core.mr.missRun = 0 ∧ t.dev.core.mr.partnerHeard = true ∧
        t.dev.core.mr.waitFrom = none ∧ t.dev.core.mr.beat = b ∧ t.dev.core.mr.claimSeen = seen
      (b.version ≠ 1 → ∃ t, exec (.heartbeat b) s = .next t ∧ foreign t) ∧
      (b.version = 1 → b.tick ≠ tickOf c.now →
        (m.role = .standby → m.inSync = true → ∃ t, exec (.heartbeat b) s = .next t ∧ only t [.mr, .host, .regs] ∧
          t.dev.core.mr.inSync = false ∧ t.dev.core.mr.resyncReq = true ∧ t.dev.core.mr.missRun = m.missRun ∧
          t.dev.core.Raised 0x0542 (mrPath 1)) ∧
        (m.role ≠ .standby ∨ m.inSync = false → ∃ t, exec (.heartbeat b) s = .next t ∧ Touches [] s t)) ∧
      (inTick → m.partnerKnown = false → ∃ t, exec (.heartbeat b) s = .next t ∧ only t [.mr] ∧
        t.dev.core.mr = { m with hbThisTick := true, missRun := 0, partnerHeard := true, waitFrom := none }) ∧
      (inTick → m.partnerKnown = true → same →
        (m.role = .standby → ¬ (m.epochApplied + c.fld A.MR_CFG 23 16 < c.epochOf c.now ∧ (b.mode = 5 ∨ b.mode = 6)) →
          ∃ t, exec (.heartbeat b) s = .next t ∧ only t [.mr] ∧ counted t ∧ t.dev.core.mr.inSync = m.inSync ∧
            t.dev.core.mr.resyncReq = (!m.inSync && !m.snapDone && !m.resyncStop) ∧
            t.dev.core.mr.state = (if m.inSync then .synced else if m.resyncStop then .unsynced else .resyncing)) ∧
        (m.role = .active ∨ m.role = .yielding → b.claim ≤ m.claim → ∃ t, exec (.heartbeat b) s = .next t ∧ only t [.mr] ∧ counted t ∧
          t.dev.core.mr.role = m.role ∧ t.dev.core.mr.claim = m.claim ∧ t.dev.core.mr.ackEpoch = (if b.role = 2 then b.ackEpoch else 0) ∧
          t.dev.core.mr.state = (if b.role = 2 ∧ b.inSync = true then .synced else if b.resync then .resyncing else .unsynced)) ∧
        (m.role = .none → c.md.mode = .standby → b.role = 1 ∨ b.role = 3 → ∃ t, exec (.heartbeat b) s = .next t ∧ only t [.mr, .ash] ∧
          built t ∧ counted t ∧ pin t false ∧ t.dev.core.mr.role = .standby ∧ t.dev.core.mr.claim = 1 ∧ t.dev.core.mr.inSync = false) ∧
        (m.role = .none → c.md.mode = .standby → b.role = 0 → m.unitB = false → b.partnerKnown = true →
          ∃ t, exec (.heartbeat b) s = .next t ∧ only t [.mr, .md, .ash] ∧ built t ∧ counted t ∧ pin t true ∧ t.dev.core.mr.role = .active ∧
            t.dev.core.mr.claim = above seen 2 ∧ t.dev.core.md = { c.md with autoRun := c.md.autoRun || c.flag A.MR_CFG 0 })) ∧
      (inTick → m.partnerKnown = true → m.role = .active ∨ m.role = .yielding → m.claim < b.claim →
        ∃ t, exec (.heartbeat b) s = .next t ∧ only t [.mr, .md, .ash, .host, .regs] ∧ built t ∧ counted t ∧ pin t false ∧ t.dev.core.mr.role = .standby ∧
          t.dev.core.mr.claim = 1 ∧ t.dev.core.mr.inSync = false ∧ t.dev.core.md.mode = c.md.mode ∧
          t.dev.core.md.faults = (if c.running then c.md.faults ++ [.demotion] else c.md.faults) ∧
          t.dev.core.Raised (if m.role = .yielding then 0x0507 else 0x0582) (path 5 0 0))) ∧
    (m.hbDue = true →
      let n := min 255 (m.missRun + 1)
      let missed : Mortar := { m with hbDue := false, hbMissed := sat32 (m.hbMissed + 1), missRun := n }
      (n ≠ 3 ∨ m.role = .none → ∃ t, exec .heartbeatMissed s = .next t ∧ only t [.mr] ∧ t.dev.core.mr = missed) ∧
      (n = 3 → m.role = .active ∨ m.role = .yielding → ∃ t, exec .heartbeatMissed s = .next t ∧ only t [.mr, .host, .regs] ∧
        t.dev.core.mr = { missed with state := .alone } ∧ t.dev.core.Raised 0x0541 (mrPath 0)) ∧
      (n = 3 → m.role = .standby → ∃ t, exec .heartbeatMissed s = .next t ∧ failed t m.claimSeen ∧ t.dev.core.mr.missRun = 3)) ∧
    (∀ (h : MorHdr) (e mode idx : Nat) (l : List MirItem) (x : EpochEndMsg) (p : Package), ∀ i ∈ [Instr.yieldFrame h e mode, .epochData h idx l,
        .epochEnd { h := h, m := x }, .resyncData h { idx := idx, items := l }, .resyncEnd { h := h, m := x }, .packageFrame h p],
      (h.crcOk = false → ∃ t, exec i s = .next t ∧ Touches [] s t) ∧
      (h.crcOk = true → h.version ≠ 1 → ∃ t, exec i s = .next t ∧ foreign t)) ∧
    (∀ h e mode, ok h → m.role = .standby → m.partnerKnown = true → ∃ t, exec (.yieldFrame h e mode) s = .next t ∧
      failed t (max m.claimSeen h.claim)) ∧
    (∀ h idx items, ok h → m.role = .standby → m.partnerKnown = true →
      let e := h.epoch
      (m.staging.1 = e → ∃ t, exec (.epochData h idx items) s = .next t ∧ only t [.mr] ∧
        t.dev.core.mr = { m with staging := (e, (m.staging.2.filter fun f => f.1 != idx) ++ [(idx, items)]) }) ∧
      (m.staging.1 < e → m.staging.2 = [] → ∃ t, exec (.epochData h idx items) s = .next t ∧ only t [.mr] ∧
        t.dev.core.mr = { m with staging := (e, [(idx, items)]) }) ∧
      (m.staging.1 < e → m.staging.2 ≠ [] → ∃ t, exec (.epochData h idx items) s = .next t ∧ only t [.mr, .host, .regs] ∧
        t.dev.core.Raised 0x0505 (mrPath 1) ∧
        t.dev.core.mr = { m with discarded := sat32 (m.discarded + 1), staging := (e, [(idx, items)]) }) ∧
      (e < m.staging.1 → ∃ t, exec (.epochData h idx items) s = .next t ∧ Touches [] s t)) ∧
    (∀ h (x : EpochEndMsg), ok h → m.role = .standby → m.partnerKnown = true →
      let fs := if m.staging.1 = x.epoch then m.staging.2 else []
      let items := (List.range x.frames).flatMap fun i => ((fs.find? fun f => f.1 == i).map Prod.snd).getD []
      let next := if m.staging.1 ≤ x.epoch then (x.epoch + 1, []) else m.staging
      let whole := m.snapDone = true ∧ (∀ i, i < x.frames → ∃ f ∈ fs, f.1 = i) ∧ itemsSize items = x.bytes ∧ itemsCrc items = x.crc ∧
        (x.basis ≤ m.epochApplied ∨ x.basis = m.snapshot) ∧ m.epochApplied < x.epoch
      (whole → x.swap = false → ∃ t, exec (.epochEnd { h := h, m := x }) s = .next t ∧ only t [.mr, .lp, .host, .regs] ∧
        (let d := t.dev.core.mr
         d.mBlocks = applyItems items m.mBlocks ∧ d.epoch = x.epoch ∧ d.epochApplied = x.epoch ∧ d.inSync = true ∧
           d.epochBytes = epochBytes items x.frames ∧ d.staging = next ∧
           (∀ e, e ∈ d.mItems ↔ e ∈ items ∧ (itemSize e).1 ≠ 1 ∧ (itemSize e).1 ≠ 5) ∧
           (m.inSync = false → d.state = .synced ∧ t.dev.core.Raised 0x0501 (mrPath 2)) ∧ d.discarded = m.discarded)) ∧
      (¬ whole → ∃ t, exec (.epochEnd { h := h, m := x }) s = .next t ∧ only t [.mr, .host, .regs] ∧ t.dev.core.Raised 0x0505 (mrPath 1) ∧
        t.dev.core.mr = { m with discarded := sat32 (m.discarded + 1), staging := next })) ∧
    (∀ h, ok h → m.role = .standby → m.partnerKnown = true → m.snapDone = false → m.resyncStop = false →
      (∀ idx items,
        let e := h.epoch
        (m.staging2.1 ≤ e → ∃ t, exec (.resyncData h { idx := idx, items := items }) s = .next t ∧ only t [.mr] ∧ t.dev.core.mr = { m with
          staging2 := (e, (if m.staging2.1 = e then m.staging2.2.filter fun f => f.1 != idx else []) ++ [(idx, items)]) }) ∧
        (e < m.staging2.1 → ∃ t, exec (.resyncData h { idx := idx, items := items }) s = .next t ∧ Touches [] s t)) ∧
      ∀ x : EpochEndMsg,
        let fs := if m.staging2.1 = x.epoch then m.staging2.2 else []
        let items := (List.range x.frames).flatMap fun i => ((fs.find? fun f => f.1 == i).map Prod.snd).getD []
        let whole := (∀ i, i < x.frames → ∃ f ∈ fs, f.1 = i) ∧ itemsSize items = x.bytes ∧ itemsCrc items = x.crc
        (whole → ∃ t, exec (.resyncEnd { h := h, m := x }) s = .next t ∧ only t [.mr] ∧ t.dev.core.mr = { m with
          mBlocks := applyItems items [], staging2 := (0, []), snapshot := x.epoch, epochApplied := x.epoch
          snapDone := true, resyncReq := false, binsFull := false, binsSeen := [] }) ∧
        (¬ whole → ∃ t, exec (.resyncEnd { h := h, m := x }) s = .next t ∧ only t [.mr] ∧ t.dev.core.mr = { m with staging2 := (m.staging2.1, []) })) ∧
    (∀ h (g : Image), ok h → m.role = .standby → m.partnerKnown = true →
      let o := c.prog.olc
      (o.st = .none ∨ o.st = .ready → ∃ t, exec (.packageFrame h { base := c.image.hash, img := g }) s = .next t ∧ only t [.prog] ∧
        t.dev.core.prog = { c.prog with olc := { o with st := .loading, pkg := some g, cleared := false, willSkip := false } }) ∧
      (o.st ≠ .none → o.st ≠ .ready → ∃ t, exec (.packageFrame h { base := c.image.hash, img := g }) s = .next t ∧ only t [.prog, .host, .regs] ∧
        t.dev.core.prog = { c.prog with olc := { o with reason := 8, cleared := false } } ∧ t.dev.core.Raised 0x0843 (pgPath 3))) ∧
    (∀ f, m.waitFrom = some f → m.role = .none → m.partnerHeard = false → ∃ t, exec .pairWaitExpiry s = .next t ∧
      Touches [.plumb, .mr, .md, .ash] s t ∧ RegsBut [] s t ∧ built t ∧ t.dev.core.now = c.now + (f + c.regN A.MR_PAIR_WAIT * ms - c.plumb.elapsed) ∧
      t.dev.core.mr.role = .active ∧ t.dev.core.mr.state = .alone ∧ t.dev.core.mr.claim = above m.claimSeen (if m.unitB then 1 else 2) ∧
      t.dev.core.mr.waitFrom = none ∧ t.dev.core.md = { c.md with autoRun := c.md.autoRun || c.flag A.MR_CFG 0 }) ∧
    (∃ t, exec .morLinkUp s = .next t ∧ only t [.mr, .free] ∧ t.dev.core.MorSent (.ident [0, Config.freeNat c.free]) ∧
      Mortar.SendsOnly { m with
        link := true, state := if m.partnerKnown then m.state else .identifying, nonce := Config.freeNat c.free, identGot := [] } t.dev.core.mr)

/-- A sample moves the island on by 10 µs: without a filter and outside a pulse an input takes its levels, is in demand while either is low,
counts and reports the change, and switches a function off that stops at once; a discrepancy that has run for its time, like every fault,
locks the island, which switches every output off with 0x0D81, and a locked island stays locked with its outputs off. SS1 ends off. A test
pulse and a dark test begin. A reset press of 100 ms to 2 s against which nothing stands ends the lock with 0x0D03, and any other changes
nothing but its result, with 0x0D04. The checks of the channels count to their limits. A brake follows its request, starts its test, and
passes it with 0x0D06 or locks with 0x0D82; a test that is overdue and a connection in timeout are marked with 0x0D07 and 0x0D41. The mirror
takes the state of the island. (17_safety_island.md R732, 17_safety_island.md R740, 17_safety_island.md R741, 17_safety_island.md R743,
17_safety_island.md R747, 17_safety_island.md R749, 17_safety_island.md R751, 17_safety_island.md R754, 17_safety_island.md R760,
17_safety_island.md R764, 17_safety_island.md R766, 17_safety_island.md R770) -/
def Obligations.IslandEvents : Prop :=
  ∀ (s : State),
    let c := s.dev.core
    let x := s.dev.isl
    let only (t : State) (l : List Part) : Prop := t.pending = s.pending ∧ (∀ q, q ∉ .out :: l → q.same c t.dev.core) ∧ RegsBut [] s t
    let watch : List Part := [.host, .regs, .spr, .cap, .ln, .mem, .mot, .md, .free]
    let off (t : State) (n : Nat) : Prop := (t.dev.isl.fn n).st = .off ∧ (t.dev.isl.fn n).pinP = false ∧ (t.dev.isl.fn n).pinW = false
    let locks (t : State) : Prop := only t watch ∧ t.dev.isl.locked = true ∧
      (x.locked = false → t.dev.isl.safeOff ∧ t.dev.core.Raised 0x0D81 islPath)
    let logs (t : State) (cause p : Nat) (byW : Bool) (detail : Nat) : Prop := t.dev.isl.faults =
      (({ cause := cause, path := p, channelW := byW, time := c.now, detail := detail } : FaultRec) :: x.faults).take 16
    (∀ i : SafetyIn, x.w.inReset = false →
      (x.block = none → ∃ t, exec (.safetySample i) s = .next t ∧ only t [] ∧ t.dev.isl = { x with now := x.now + 1 }) ∧
      (x.block ≠ none → ∃ t, exec (.safetySample i) s = .next t ∧ only t watch ∧
        (let y := t.dev.isl
         y.now = x.now + 1 ∧ (x.locked = true → y.locked = true ∧ y.safeOff) ∧
           (∀ k t0, k < 16 → (x.inDef k).enable = true → (x.inp k).disc = some t0 → (x.inp k).discFault = false → (x.inDef k).disc ≤ x.now - t0 →
             locks t) ∧
           ∀ k, k < 16 → (x.inDef k).enable = true → (x.inDef k).filt = 0 → x.pulse = none →
             let a := i.a.getLsbD k
             let b := i.b.getLsbD k
             let was := (x.inp k).demand
             (y.inp k).a.lvl = a ∧ (y.inp k).b.lvl = b ∧ (y.inp k).demand = !(a && b) ∧
               (y.inp k).demands = (if (a && b) = false ∧ was = false then ((x.inp k).demands + 1) % 2 ^ 32 else (x.inp k).demands) ∧
               ((a && b) = false → was = false → t.dev.core.Raised 0x0D01 (inPath k)) ∧
               ((a && b) = true → was = true → t.dev.core.Raised 0x0D02 (inPath k)) ∧
               ∀ n, n < 8 → n < x.blk.fns.length → (x.fn n).st = .on → (x.fnDef n).stopCat = 0 → .input k ∈ (x.fnDef n).sources →
                 (a && b) = false → off t n))) ∧
    (∀ n, n < 8 → (x.fn n).st = .ss1 → x.w.inReset = false → ∃ t, exec (.ss1DelayExpiry n) s = .next t ∧ only t watch ∧ off t n ∧
      t.dev.isl.now = max x.now ((x.fn n).ss1At + (x.fnDef n).ss1Delay)) ∧
    (∀ k, k < 4 → k < x.blk.tps.length → x.w.inReset = false → ∃ t, exec (.testPulse k) s = .next t ∧ only t [] ∧
      (let y := t.dev.isl
       .pin 6 k false ∈ t.dev.core.out ∧ y.now = x.pulseStart k ∧ (y.tp k).start = some y.now ∧
         (y.tp k).pulses = min 0xFFFF ((x.tp k).pulses + 1) ∧ y.fns = x.fns ∧ y.brks = x.brks ∧
         ∀ j, j < 16 → (x.inDef j).enable = true →
           (y.inp j).a = ((x.inp j).a.pulse ((x.inDef j).tpA == k)).1 ∧ (y.inp j).b = ((x.inp j).b.pulse ((x.inDef j).tpB == k)).1)) ∧
    (∀ n, n < 8 → n < x.blk.fns.length → (x.fn n).st = .on ∨ (x.fn n).st = .ss1 → x.locked = false → (x.fn n).dark = none →
      ((x.fnDef n).darkInt * 100000 ≤ (x.fn n).onTime → ∃ t, exec (.darkTest n) s = .next t ∧ only t watch ∧
        (let g := t.dev.isl.fn n
         g.dark = some x.now ∧ g.darkSeen = false ∧ g.pinP = (x.fn n).darkCh ∧ g.pinW = !(x.fn n).darkCh ∧ g.st = (x.fn n).st)) ∧
      ((x.fn n).onTime < (x.fnDef n).darkInt * 100000 → ∃ t, exec (.darkTest n) s = .next t ∧ Touches [] s t)) ∧
    (∀ n, x.w.inReset = false →
      let result := if n < 10000 ∨ 200000 < n then 2 else x.resetResult
      (result ≠ 1 → ∃ t, exec (.safeRstRelease n) s = .next t ∧ only t [.host, .regs] ∧ t.dev.core.Raised 0x0D04 islPath ∧
        t.dev.isl = { x with pressMs := min 0xFFFF (n / 100), rstResult := result }) ∧
      (result = 1 → ∃ t, exec (.safeRstRelease n) s = .next t ∧ only t watch ∧ t.dev.core.Raised 0x0D03 islPath ∧
        t.dev.isl.locked = false ∧ t.dev.isl.rstResult = 1 ∧ t.dev.isl.ins = x.ins ∧
        ∀ k, k < 8 → k < x.blk.fns.length →
          (x.locked = true → (t.dev.isl.fn k).st = if x.fnDemand k then .off else .on) ∧
          (x.locked = false → (t.dev.isl.fn k).st = if (x.fn k).st = .waitRestart ∧ x.fnDemand k = false then .on else (x.fn k).st))) ∧
    (∀ k : CrossIn, x.w.inReset = false →
      let p := if k.pAlive && !x.p.inReset then 0 else x.pLost + 1
      let w := if k.wAlive then 0 else x.wLost + 1
      let d := if k.agree then 0 else x.chanDis + 1
      (p ≠ 3 → w ≠ 4 → d ≠ 50 → ∃ t, exec (.channelCrossCheck k) s = .next t ∧ only t [] ∧
        t.dev.isl = { x with pLost := p, wLost := w, chanDis := d }) ∧
      (p = 3 ∨ w = 4 ∨ d = 50 → ∃ t, exec (.channelCrossCheck k) s = .next t ∧ locks t)) ∧
    (∀ hz byW,
      (98000000 ≤ hz → hz ≤ 102000000 → ∃ t, exec (.oscillatorCheck hz byW) s = .next t ∧ only t [] ∧ t.dev.isl = { x with oscBad := false }) ∧
      (hz < 98000000 ∨ 102000000 < hz → ∃ t, exec (.oscillatorCheck hz byW) s = .next t ∧ locks t ∧ logs t 12 islPath byW 0)) ∧
    (∃ t, exec (.tarn5EccError true) s = .next t ∧ locks t ∧ logs t 15 islPath false 0) ∧
    (∃ t, exec (.tarn5EccError false) s = .next t ∧ only t [.host, .regs] ∧ t.dev.isl = { x with eccCorr := sat32 (x.eccCorr + 1) } ∧
      match lastEvent c 0x0D0B islPath with
      | some l => if l + 3600 * second ≤ c.plumb.elapsed then t.dev.core.Raised 0x0D0B islPath else t.dev.core.host = c.host
      | none => t.dev.core.Raised 0x0D0B islPath) ∧
    (∀ k rb pos, k < 4 → k < x.blk.brks.length → x.p.inReset = false → (x.brk k).test = none →
      let f := x.brkDef k
      let b := x.brk k
      let g := x.fn f.func
      let test := decide (c.tagVal f.testTag ≠ 0)
      let req := decide (c.tagVal f.reqTag ≠ 0)
      let free := (g.st == .on || g.st == .ss1) && req && !x.locked
      let at_ := if b.released = free then b.changedAt else x.now
      let wrong := at_ + 5000 ≤ x.now ∧ rb ≠ free
      let b' : SafeBrk := { b with req := req, testTag := test, rb := rb, released := free, changedAt := at_ }
      let starts := test = true ∧ b.testTag = false ∧ free = false ∧ (c.axis f.axis).st = .standstill ∧ c.image.axes.contains f.axis = true
      (¬ wrong → ¬ starts → ∃ t, exec (.brakeRequestRead k rb pos) s = .next t ∧ only t [] ∧ t.dev.isl.brk k = { b' with mism := false } ∧
        (b.released ≠ free → t.dev.core.out = [.pin 7 k free])) ∧
      (¬ wrong → starts → ∃ t, exec (.brakeRequestRead k rb pos) s = .next t ∧ only t [.mot] ∧
        t.dev.isl.brk k = { b' with mism := false, test := some x.now, p0 := pos, dev := 0 } ∧ (t.dev.core.axis f.axis).st = .brakeTest ∧
        ∀ a, a ≠ f.axis → t.dev.core.axis a = c.axis a) ∧
      (wrong → b.mism = false → ∃ t, exec (.brakeRequestRead k rb pos) s = .next t ∧ locks t ∧ logs t 9 (brkPath k) true k)) ∧
    (∀ k pos t0, (x.brk k).test = some t0 → (c.axis (x.brkDef k).axis).st = .brakeTest →
      let b := x.brk k
      let f := x.brkDef k
      let dev := (pos - b.p0).natAbs
      let ended (t : State) : Prop := only t watch ∧ (t.dev.isl.brk k).test = none ∧ (t.dev.isl.brk k).dev = sat32 (max b.dev dev)
      (dev ≤ f.brkWin → ∃ t, exec (.brakeTestEnd k pos) s = .next t ∧ ended t ∧ t.dev.isl.now = max x.now (t0 + 5000 + 100 * f.testMs) ∧
        (t.dev.isl.brk k).failed = false ∧ (t.dev.isl.brk k).overdue = false ∧ (t.dev.isl.brk k).lastPass = t.dev.isl.now ∧
        t.dev.isl.locked = x.locked ∧ (t.dev.core.axis f.axis).st = .standstill ∧
        (t.dev.core.axis f.axis).current = c.axFld A.AX_CURRENT f.axis 15 0 ∧ t.dev.core.Raised 0x0D06 (brkPath k)) ∧
      (f.brkWin < dev → ∃ t, exec (.brakeTestEnd k pos) s = .next t ∧ ended t ∧ t.dev.isl.now = max x.now (t0 + 5000) ∧
        (t.dev.isl.brk k).failed = true ∧ t.dev.isl.locked = true ∧ (x.locked = false → t.dev.isl.safeOff) ∧
        t.dev.core.Raised 0x0D82 (brkPath k) ∧ logs t 10 (brkPath k) true k)) ∧
    (∀ k, k < x.blk.brks.length → (x.brk k).overdue = false → ∃ t, exec (.brakeTestOverdue k) s = .next t ∧ only t [.host, .regs] ∧
      t.dev.isl.now = max x.now ((x.brk k).lastPass + (x.brkDef k).brkInt * 360000000) ∧
      t.dev.isl.brk k = { x.brk k with overdue := true } ∧ t.dev.core.Raised 0x0D07 (brkPath k)) ∧
    (∀ n, n < x.blk.conns.length → (x.connDef n).inbound = true → (x.conn n).timeout = false → x.w.inReset = false →
      ∃ t, exec (.connectionTimeout n) s = .next t ∧ only t watch ∧ t.dev.core.Raised 0x0D41 islPath ∧
        t.dev.isl.now = max x.now ((x.conn n).last + (x.connDef n).wdUs / 10) ∧
        t.dev.isl.conn n = { x.conn n with timeout := true, valid := 0 } ∧ (∀ m, m ≠ n → t.dev.isl.conn m = x.conn m) ∧
        ∀ m b, m < 8 → m < x.blk.fns.length → (x.fn m).st = .on → (x.fnDef m).stopCat = 0 → .connBit n b ∈ (x.fnDef m).sources → off t m) ∧
    (x.p.inReset = false → ∃ t, exec .mirrorUpdate s = .next t ∧ Touches [.mirror] s t ∧ t.dev.core.mirror = x)

/-- Chunk 0 of a container for this device alone is refused with the first test of R782 that it fails and 0x0141, or begins its reception and
empties the slot it will be written to; its bytes, and those of any other chunk, wait until all of the chunk are there, and bytes outside it
are BAD_VALUE; a body chunk is refused without a container or with a wrong hash, and else held. CONT_STATUS names a container and answers
its state, and CONT_CANCEL discards a partial one. A result that fails is discarded with REFUSE 10 and 0x0142, and a verified set, image or
safety block goes to its slot and is HELD with 0x0101. ACTIVATE without a restart puts the slots named in force for a trial with 0x0103 and
PENDING_ACT, answers BAD_VALUE for what R793 refuses, and takes a pending activation back. The debug port closes with 0x010C.
(18_update_and_identity.md R782, 18_update_and_identity.md R783, 18_update_and_identity.md R789, 18_update_and_identity.md R790,
18_update_and_identity.md R791, 18_update_and_identity.md R793, 18_update_and_identity.md R792, 18_update_and_identity.md R798,
18_update_and_identity.md R803, 18_update_and_identity.md R804) -/
def Obligations.UpdateRequests : Prop :=
  ∀ (s : State) (sess req : Nat),
    let c := s.dev.core
    let only (t : State) (l : List Part) : Prop := Touches (.up :: .host :: .regs :: l) s t ∧ RegsBut [] s t
    let entered (cont : Nat) : Update := if c.up.named = cont then c.up else { c.up with named := cont, namedKind := 0, refuse := 0 }
    let body (cont refuse : Nat) : List Nat := [(c.contState cont).1, refuse, (c.contState cont).2.1, (c.contState cont).2.2]
    let oldRef (cont : Nat) : Nat := if c.up.named = cont then c.up.refuse else 0
    let kept (t : State) (d : Nat) : Prop := ∀ k, k ≠ d → t.dev.core.download k = c.download k
    (c.Asks sess req .engineer →
      (∀ x : ContChunk,
        let h := x.hdr
        let dest := contDest h.kind
        let spoke (t : State) (st : Nat) : Prop := only t [] ∧ ∃ l, t.dev.core.Answered sess req 0x20 st l
        let mine (e : Nat × Nat × Nat × Nat) : Bool := e.1 == x.cont && e.2.1 == x.chunk
        let parts := (x.cont, x.chunk, x.offset, x.len) :: c.up.parts
        let there (n : Nat) : Prop := x.offset + x.len ≤ n ∧ ∀ b, b < n → ∃ e ∈ parts, mine e = true ∧ e.2.2.1 ≤ b ∧ b < e.2.2.1 + e.2.2.2
        let whole : Prop := ∃ n, c.chunkLen x = some n ∧ there n
        let rest : Update := { entered x.cont with parts := c.up.parts.filter fun e => !mine e }
        (c.chunkLen x = none → ∃ t, exec (.contData sess req x) s = .next t ∧ only t [] ∧ t.dev.core.up = entered x.cont ∧
          t.dev.core.Answered sess req 0x20 8 (body x.cont (oldRef x.cont))) ∧
        (∀ n, c.chunkLen x = some n → n < x.offset + x.len → ∃ t, exec (.contData sess req x) s = .next t ∧ spoke t 8 ∧
          t.dev.core.up = { entered x.cont with refuse := 0 }) ∧
        (∀ n, c.chunkLen x = some n → x.offset + x.len ≤ n → ¬ there n → ∃ t, exec (.contData sess req x) s = .next t ∧ only t [] ∧
          t.dev.core.up = { entered x.cont with parts := parts } ∧ t.dev.core.Answered sess req 0x20 0 (body x.cont (oldRef x.cont))) ∧
        (whole → x.chunk = 0 → h.target = c.devNum →
          (c.refuseTest x.cont h ≠ 0 →
            let r := c.refuseTest x.cont h
            ∃ t, exec (.contData sess req x) s = .next t ∧ only t [] ∧ t.dev.core.Raised 0x0141 upPath ∧
              t.dev.core.Answered sess req 0x20 (if r = 9 then 0x0F else 8) (body x.cont r) ∧
              t.dev.core.up = { rest with namedKind := h.kind, refuse := r, refusals := sat32 (c.up.refusals + 1) }) ∧
          (c.refuseTest x.cont h = 0 → c.addressed h = true → (c.download dest).st = .none ∨ (c.download dest).cont ≠ x.cont →
            ∃ t, exec (.contData sess req x) s = .next t ∧ spoke t 0 ∧ kept t dest ∧
              t.dev.core.download dest = ({ st := .receiving, cont := x.cont, hdr := h, got := [0] } : Download).step ∧
              (h.kind = 1 ∨ h.kind = 2 → t.dev.core.up.fwOf c.fwTarget = none ∧ t.dev.core.up.fwOf (!c.fwTarget) = c.up.fwOf (!c.fwTarget)) ∧
              (3 ≤ h.kind → h.kind ≤ 5 → t.dev.core.up.cfgOf c.cfgTarget = none ∧
                t.dev.core.up.cfgOf (!c.cfgTarget) = c.up.cfgOf (!c.cfgTarget)))) ∧
        (whole → x.chunk ≠ 0 → c.ln.heads.find? (fun e => e.1 == x.cont) = none →
          (∀ d, c.destOf x.cont = some d → x.hashOk = false → ∃ t, exec (.contData sess req x) s = .next t ∧ spoke t 8 ∧
            t.dev.core.up = { rest with refuse := 0 }) ∧
          (∀ d, c.destOf x.cont = some d → x.hashOk = true →
            let y := c.download d
            ∃ t, exec (.contData sess req x) s = .next t ∧ spoke t 0 ∧ kept t d ∧
              (y.st = .receiving → x.chunk < y.hdr.chunks → x.chunk ∉ y.got →
                t.dev.core.download d = ({ y with got := y.got ++ [x.chunk] } : Download).step) ∧
              (y.st ≠ .receiving ∨ x.chunk ∈ y.got → t.dev.core.download d = y)))) ∧
      (∀ dest cont, ∃ t, exec (.contStatus sess req dest cont) s = .next t ∧ only t [] ∧ t.dev.core.up = entered cont ∧
        t.dev.core.Answered sess req 0x21 0 (body cont (oldRef cont))) ∧
      (∀ dest cont, ∃ t, exec (.contCancel sess req dest cont) s = .next t ∧ only t [] ∧ t.dev.core.Answered sess req 0x22 0 [] ∧
        t.dev.core.up.parts = c.up.parts.filter (fun e => e.1 != cont) ∧
        (c.destOf cont = none → t.dev.core.up = { entered cont with parts := c.up.parts.filter fun e => e.1 != cont }) ∧
        ∀ d, c.destOf cont = some d → kept t d ∧ t.dev.core.download d = if (c.download d).st = .held then c.download d else {}) ∧
      (∀ (a : ActivateReq) env, c.md.mode = .minimal ∨ c.md.mode = .standby ∨ c.running = true → a.restart = 0 →
        let b := c.up.boot
        let pend := c.up.pendingAct
        (a.fw = 0 → a.cfg = 0 → pend = true → ∃ t, exec (.activate sess req a env) s = .next t ∧ only t [] ∧
          t.dev.core.Answered sess req 0x23 0 [] ∧ t.dev.core.up.pendingAct = false ∧ t.dev.core.up.boot.trial = false ∧
          t.dev.core.up.boot.fwActive = b.baseFw true ∧ t.dev.core.up.boot.cfgActive = b.baseCfg true) ∧
        (¬ (a.fw = 0 ∧ a.cfg = 0 ∧ pend = true) →
          (c.actTest a ≠ 0 → ∃ t, exec (.activate sess req a env) s = .next t ∧ only t [] ∧ t.dev.core.Answered sess req 0x23 8 [] ∧
            t.dev.core.up = { c.up with refuse := c.actTest a }) ∧
          (c.actTest a = 0 → ∃ t, exec (.activate sess req a env) s = .next t ∧ only t [] ∧ t.dev.core.Answered sess req 0x23 0 [] ∧
            t.dev.core.Raised 0x0103 btPath ∧ t.dev.core.up.pendingAct = true ∧
            (let n := t.dev.core.up.boot
             n.trial = true ∧ n.trialStarts = 0 ∧ n.startFails = 0 ∧ n.minSec = b.minSec ∧
               n.fwActive = (if a.fw ≠ 0 then !c.up.runFwSlot else b.fwActive) ∧
               n.cfgActive = (if a.cfg ≠ 0 then some c.cfgTarget else b.cfgActive) ∧
               n.fwPrev = (if n.fwActive = b.baseFw pend then none else some (b.baseFw pend)) ∧
               n.cfgPrev = (if n.cfgActive = b.baseCfg pend then none else b.baseCfg pend)))))) ∧
    (∀ cont d (v : VerifyIn) env, c.destOf cont = some d → (c.download d).st = .rebuilding ∨ (c.download d).st = .verifying →
      let h := (c.download d).hdr
      let holds (t : State) : Prop := only t [] ∧ kept t d ∧ t.dev.core.download d = { c.download d with st := .held } ∧
        t.dev.core.Raised 0x0101 upPath ∧ (h.kind = 2 ∨ h.kind = 4 ∨ h.kind = 5 → t.dev.core.Raised 0x0102 upPath)
      let delta := h.kind = 2 ∨ h.kind = 4 ∨ h.kind = 5
      let good : Prop := match v.delta with
        | some y => if delta then Config.sha3 y.base = h.base ∧
            ∃ r, rebuild y.base h.resultLen (y.body.length + 1) y.body [] = some r ∧ Config.sha3 r = h.result else v.resultOk = true
        | none => v.resultOk = true
      (v.flashOk = false ∨ ¬ good → ∃ t, exec (.containerVerify cont v env) s = .next t ∧ only t [] ∧ kept t d ∧
        t.dev.core.download d = {} ∧ t.dev.core.up.refuse = 10 ∧ t.dev.core.Raised 0x0142 upPath ∧
        (v.flashOk = false → t.dev.core.Raised 0x0143 upPath) ∧ t.dev.core.up.boot = c.up.boot) ∧
      (v.flashOk = true → good →
        (∀ f, v.payload = .firmware f → d = 0 →
          (firmwareOk f = false ∨ f.format ≠ 1 ∨ f.secVersion ≠ h.secVersion → ∃ t, exec (.containerVerify cont v env) s = .next t ∧ only t [] ∧ kept t d ∧
            t.dev.core.download d = {} ∧ t.dev.core.up.refuse = 11) ∧
          (firmwareOk f = true → f.format = 1 → f.secVersion = h.secVersion → c.md.mode ≠ .recovery → ∃ t, exec (.containerVerify cont v env) s = .next t ∧
            holds t ∧ t.dev.core.up.fwOf c.fwTarget = some { f with hash := h.result } ∧
            t.dev.core.up.fwOf (!c.fwTarget) = c.up.fwOf (!c.fwTarget))) ∧
        (∀ i, v.payload = .image i → d = 1 → h.kind ≠ 5 → ∃ t, exec (.containerVerify cont v env) s = .next t ∧ holds t ∧
          t.dev.core.up.cfgOf c.cfgTarget = some { (((resultBytes h v).map fun l => Image.ofBytes l i).getD i) with hash := h.result } ∧
          t.dev.core.up.cfgOf (!c.cfgTarget) = c.up.cfgOf (!c.cfgTarget) ∧
          t.dev.core.up.boot.owners = (if h.kind = 3 ∧ c.up.boot.owners = [] then [h.signerFp] else c.up.boot.owners)) ∧
        (∀ b g, v.payload = .safety b → d = 2 → c.safeTarget = some g → ∃ t, exec (.containerVerify cont v env) s = .next t ∧ holds t ∧
          (if g then t.dev.core.up.safeB else t.dev.core.up.safeA) = some { b with hash := h.result }) ∧
        (∀ l, v.payload = .owners l → d = 4 → ∃ t, exec (.containerVerify cont v env) s = .next t ∧ only t [] ∧
          t.dev.core.up.boot.owners = l.take 4 ∧ t.dev.core.download d = {} ∧ t.dev.core.Raised 0x010D idPath))) ∧
    (c.up.dbgLevel ≠ 0 → ∃ t, exec .debugLifetimeEnd s = .next t ∧ only t [.plumb] ∧ t.dev.core.Raised 0x010C idPath ∧
      t.dev.core.up = { c.up with dbgLevel := 0, dbgTicks := 0 } ∧
      t.dev.core.now = if c.up.dbgTicks = 0 then c.now else max c.now (c.nextTick + (c.up.dbgTicks - 1) * tickLen))

/-- A CONFIRM of an engineer in Standby, Run or Service while TRIAL is set is answered OK: one pair write, with SEQ one and two higher, clears
TRIAL and takes MIN_SEC to the SEC_VERSION of the active set where that is higher, 0x0105 is raised, and nothing else of the update unit
changes. In Minimal it is answered MODE_REFUSED, and without a trial BAD_VALUE, and nothing but host access changes.
(18_update_and_identity.md R796) -/
def Obligations.ConfirmEndsATrial : Prop :=
  ∀ (s : State) (sess req : Nat), s.dev.core.Asks sess req .engineer →
    let c := s.dev.core
    let b := c.up.boot
    (c.md.mode = .standby ∨ c.md.mode = .run ∨ c.md.mode = .service →
      (b.trial = true →
        let sec := ((c.up.fwOf b.fwActive).map (·.secVersion)).getD 0
        ∃ t, exec (.confirm sess req) s = .next t ∧ Touches [.up, .host, .regs] s t ∧ RegsBut [] s t ∧
          t.dev.core.Answered sess req 0x24 0 [] ∧ t.dev.core.Raised 0x0105 btPath ∧
          (let new (k : Nat) : BootRec := { b with trial := false, minSec := max b.minSec sec, seq := (b.seq + k) % 2 ^ 32 }
           t.dev.core.up = if c.up.recA.seq ≤ c.up.recB.seq then { c.up with boot := new 2, recA := new 1, recB := new 2 }
             else { c.up with boot := new 2, recA := new 2, recB := new 1 })) ∧
      (b.trial = false → ∃ t, exec (.confirm sess req) s = .next t ∧ Touches [.host, .regs] s t ∧ RegsBut [] s t ∧
        t.dev.core.Answered sess req 0x24 8 [])) ∧
    (c.md.mode = .minimal → ∃ t, exec (.confirm sess req) s = .next t ∧ Touches [.host, .regs] s t ∧ RegsBut [] s t ∧
      t.dev.core.Answered sess req 0x24 9 [])

/-- At State.reset the locked island drives no safe output, every stored register reads its Cold value (R3), both channels of the island are
LOCKED with cause POWER_ON (R763), no safe output is on, no session is open, and the queue is empty. (00_scope.md R3, 17_safety_island.md
R763, 04_host_access.md R227) -/
def Obligations.ResetIsLockedAndCold : Prop :=
  State.reset.dev.isl.safe ∧ (∀ a, State.reset.dev.core.reg a = coldOf a) ∧
    State.reset.dev.isl.p.locked = true ∧ State.reset.dev.isl.w.locked = true ∧
    State.reset.dev.isl.p.cause = 1 ∧ State.reset.dev.isl.w.cause = 1 ∧ State.reset.dev.isl.safeOff ∧
    (∀ n, (State.reset.dev.core.session n).st = .free) ∧ State.reset.pending = []

/-- From every state in which a locked island has both pins of all eight safe outputs off, every step that answers a next state ends in such a
state again (R764). (17_safety_island.md R764) -/
def Obligations.LockedIslandDrivesNothing : Prop :=
  ∀ s t : State, s.dev.isl.safe → step s = .next t → t.dev.isl.safe
end

