-- ==== Sys2Proof/Laws/Books.lean ====
section
/-!
SUPPORT. Laws/Books.lean: an event and a response keep their books (the event log, block headers, session queues and counters) and leave
everything else; what a request that is admitted does.
-/
namespace Sys2Proof.Machine

/-- A session but for what notifications change. -/
def Session.still (s : Session) : Session := { s with queue := [], losing := false }

/-- Two cores that differ in what events keep alone. -/
structure Core.Books (c d : Core) : Prop where
  only : c.HostOnly d
  regs : ∀ a, ¬ c.Booked a → d.reg a = c.reg a
  subs : d.host.subs.map Sub.sess = c.host.subs.map Sub.sess
  sess : ∀ n, (d.session n).still = (c.session n).still

theorem Core.Booked.congr {c d : Core} (h : d.host.subs.map Sub.sess = c.host.subs.map Sub.sess) (a : Nat) : d.Booked a ↔ c.Booked a := by
  unfold Core.Booked; rw [h]

theorem Core.Books.refl (c : Core) : c.Books c := ⟨.refl c, fun _ _ => rfl, rfl, fun _ => rfl⟩

theorem Core.Books.trans {c d e : Core} (h1 : c.Books d) (h2 : d.Books e) : c.Books e where
  only := h1.only.trans h2.only
  regs a ha := (h2.regs a (fun hb => ha ((Core.Booked.congr h1.subs a).mp hb))).trans (h1.regs a ha)
  subs := h2.subs.trans h1.subs
  sess n := (h2.sess n).trans (h1.sess n)

theorem Core.Books.setReg {c : Core} (a : Nat) (v : Word) (h : c.Booked a) : c.Books (c.setReg a v) where
  only := ⟨c.host, _, rfl⟩
  regs _ hb := Core.reg_setReg_ne _ _ _ _ (fun e => hb (e ▸ h))
  subs := rfl
  sess _ := rfl

theorem Core.Books.header {c : Core} {code : Nat} (k : Nat) (v : Word) (h : code < 0x1000) (hk : k = 4 ∨ k = 8) :
    c.Books (c.setReg (code / 256 * 0x10000 + k) v) := by
  refine .setReg _ _ (.inl ⟨code / 256, by omega, ?_⟩)
  rcases hk with rfl | rfl <;> simp

theorem Core.Books.queueNotif (c : Core) (s : Sub) (n : Notif) (h : s.sess ∈ c.host.subs.map Sub.sess) :
    c.Books (c.queueNotif s n).1 where
  only := .queueNotif (.refl c) s n
  regs a ha := by
    unfold Core.queueNotif
    dsimp only
    split
    · show (c.bump (A.HA_SESS_LOST + 0x20 * s.sess)).reg a = _
      unfold Core.bump
      rw [Core.reg_setReg_ne _ _ _ _ (fun e => ha (.inr ⟨s.sess, .inr h, .inr e⟩))]
    · rfl
  subs := by
    unfold Core.queueNotif
    dsimp only
    split
    · simp only [Core.onSession, Core.onHost, Core.bump, Core.setReg, List.map_map]
      congr 1; funext x; dsimp only [Function.comp]; split <;> rfl
    · simp only [Core.onSession, Core.onHost, List.map_map]
      congr 1; funext x; dsimp only [Function.comp]; split <;> rfl
  sess k := by
    unfold Core.queueNotif
    dsimp only
    split
    · dsimp only
      by_cases hk : k = s.sess
      · subst hk; rw [Core.onSession_session]; rfl
      · rw [Core.onSession_session_ne _ _ _ _ hk]; rfl
    · show (SMap.get {} (SMap.upd {} c.host.sess s.sess fun x =>
        { x with queue := x.queue ++ [{ n with lost := s.lost }], losing := false }) k).still = (SMap.get {} c.host.sess k).still
      by_cases hk : k = s.sess
      · subst hk; rw [SMap.get_upd_self]; rfl
      · rw [SMap.get_upd_ne _ _ _ _ _ hk]

theorem Core.Books.logEvent (c : Core) (code p : Nat) (h : code < 0x1000) : c.Books (c.logEvent code p).2 := by
  have h0 : ∀ f : HostSt → HostSt, (∀ x, (f x).subs = x.subs ∧ (f x).sess = x.sess) → c.Books (c.onHost f) := fun f hf =>
    ⟨⟨_, c.regs, rfl⟩, fun _ _ => rfl, by show List.map _ (f c.host).subs = _; rw [(hf _).1],
      fun n => by show (SMap.get {} (f c.host).sess n).still = _; rw [(hf _).2]; rfl⟩
  unfold Core.logEvent
  dsimp only
  have h1 := (h0 (fun h => { h with
    log := ({ index := c.host.logNext, code := code, path := p, time := c.now } :: h.log).take 512, logNext := h.logNext + 1,
    lastEv := ((code, p), c.plumb.elapsed) :: h.lastEv.filter (fun e => e.1 != (code, p)) }) (fun _ => ⟨rfl, rfl⟩))
  split
  · exact (h1.trans (.header 8 _ h (.inr rfl))).trans (.header 4 _ h (.inl rfl))
  · exact h1.trans (.header 8 _ h (.inr rfl))

theorem Core.Books.deliver (r : EvRec) : ∀ (l : List Sub) (c : Core), (∀ s ∈ l, s.sess ∈ c.host.subs.map Sub.sess) →
    c.Books (Core.deliver r l c).1
  | [], c, _ => .refl c
  | s :: l, c, h => by
    unfold Core.deliver
    split
    · have hc : ((c.host.subs.find? (fun x => x.id == s.id)).getD s).sess ∈ c.host.subs.map Sub.sess := by
        cases hf : c.host.subs.find? (fun x => x.id == s.id) with
        | none => exact h s (by simp)
        | some x => exact List.mem_map_of_mem (List.mem_of_find?_eq_some hf)
      have h1 := Core.Books.queueNotif c ((c.host.subs.find? (fun x => x.id == s.id)).getD s)
        { sub := s.id, kind := 1, nseq := ((c.host.subs.find? (fun x => x.id == s.id)).getD s).nseq,
          lost := ((c.host.subs.find? (fun x => x.id == s.id)).getD s).lost, recs := [r], time := c.now } hc
      exact h1.trans (Core.Books.deliver r l _ (fun x hx => by rw [h1.subs]; exact h x (List.mem_cons_of_mem _ hx)))
    · exact Core.Books.deliver r l c (fun x hx => h x (List.mem_cons_of_mem _ hx))

theorem Core.Books.foldl {α : Type} (f : Core → α → Core) (hf : ∀ (c : Core) (a : α), c.Books (f c a)) : ∀ (l : List α) (c : Core),
    c.Books (l.foldl f c)
  | [], c => .refl c
  | a :: l, c => (hf c a).trans (Core.Books.foldl f hf l (f c a))

/-- Telling the sessions of events they lost. -/
theorem Core.Books.raiseLosses : ∀ (f : Nat) (l : List Nat) (c : Core), c.Books (Core.raiseLosses f l c)
  | 0, l, c => .refl c
  | _ + 1, [], c => .refl c
  | f + 1, s :: l, c =>
    ((Core.Books.logEvent c 0x0123 (path 1 3 s) (by decide)).trans
      (.deliver (c.logEvent 0x0123 (path 1 3 s)).1 _ _ (fun _ hx => List.mem_map_of_mem hx))).trans
      (Core.Books.raiseLosses f _ ((c.logEvent 0x0123 (path 1 3 s)).2.deliver (c.logEvent 0x0123 (path 1 3 s)).1
        (c.logEvent 0x0123 (path 1 3 s)).2.host.subs).1)

/-- Raising an event. -/
theorem Core.Books.raise (c : Core) (code p : Nat) (h : code < 0x1000) : c.Books (c.raise code p) :=
  ((Core.Books.logEvent c code p h).trans (.deliver (c.logEvent code p).1 _ _ (fun _ hs => List.mem_map_of_mem hs))).trans
    (.raiseLosses 16 _ ((c.logEvent code p).2.deliver (c.logEvent code p).1 (c.logEvent code p).2.host.subs).1)

theorem Core.Books.raiseIf (c : Core) (b : Bool) (code p : Nat) (h : code < 0x1000) : c.Books (c.raiseIf b code p) := by
  unfold Core.raiseIf; split
  · exact .raise c code p h
  · exact .refl c

theorem Core.Books.raiseEvery (c : Core) (g : Time) (code p : Nat) (h : code < 0x1000) : c.Books (c.raiseEvery g code p) := by
  unfold Core.raiseEvery; split
  · split
    · exact .raise c code p h
    · exact .refl c
  · exact .raise c code p h

/-! Sessions over an event. -/

theorem Session.still_st {s t : Session} (h : s.still = t.still) : s.st = t.st := by
  have := congrArg Session.st h; exact this
theorem Session.still_role {s t : Session} (h : s.still = t.still) : s.role = t.role := by
  have := congrArg Session.role h; exact this
theorem Session.still_txSeq {s t : Session} (h : s.still = t.still) : s.txSeq = t.txSeq := by
  have := congrArg Session.txSeq h; exact this

end Sys2Proof.Machine
end

