-- ==== Sys2Proof/Laws/Host.lean ====
section
/-!
SUPPORT. Laws/Host.lean: what a request that is admitted does: its count, its response, and the write of one register.
-/
namespace Sys2Proof.Machine

/-- The core once a request has been counted. -/
def Core.asked (c : Core) (sess : Nat) : Core := c.bumpWrap (A.HA_SESS_REQS + 0x20 * sess)

theorem Core.asked_regs (c : Core) (sess : Nat) : c.asked sess = { c with regs := (c.asked sess).regs } := rfl

theorem Core.Books.asked (c : Core) (sess : Nat) (h : sess < 16) : c.Books (c.asked sess) :=
  .setReg _ _ (.inr ⟨sess, .inl h, .inl rfl⟩)

/-- A request that the device admits is counted. -/
theorem Core.intake_asks {c : Core} {sess req : Nat} {need : Role} (h : c.Asks sess req need) (op : Nat) (b : Bool) :
    c.intake sess req op need b = (c.asked sess, true) := by
  obtain ⟨_, h1, h2, h3, h4, h5, h6, _⟩ := h
  unfold Core.intake
  dsimp only
  rw [if_neg (by simp [h1, h3]), h5, h6]
  dsimp only
  rw [if_neg (by decide), if_neg (by simp [h2]), if_neg (by omega)]
  rfl

/-- A request that the device admits executes and answers. -/
theorem Core.request_asks {c : Core} {sess req : Nat} {need : Role} (h : c.Asks sess req need) (op : Nat)
    (f : Core → Core × Nat × List Nat) (b : Bool) :
    c.request sess req op need f b = (f (c.asked sess)).1.respond sess req op (f (c.asked sess)).2.1 (f (c.asked sess)).2.2 := by
  unfold Core.request; rw [c.intake_asks h]

/-- A response that leaves touches host access and the outputs, and is the last output. -/
theorem Core.sendResp_only {c : Core} {sess req op st : Nat} {body : List Nat}
    (hr : (c.session sess).txSeq + respFrags op body ≤ 2 ^ 48) :
    ∃ x o, c.sendResp sess req op st body = { c with host := x, out := o ++ [.resp sess req (op + 0x80) st body] } := by
  unfold Core.sendResp
  dsimp only
  rw [if_neg (by omega)]
  exact ⟨_, _, rfl⟩

/-- What a response to an open session whose sequence numbers have room leaves: all but host access and the outputs. -/
theorem Core.respond_only {c : Core} {sess req op st : Nat} {body : List Nat} (h : (c.session sess).st = .open)
    (hr : (c.session sess).txSeq + respFrags op body ≤ 2 ^ 48) :
    ∃ x o, c.respond sess req op st body = { c with host := x, out := o ++ [.resp sess req (op + 0x80) st body] } := by
  unfold Core.respond
  dsimp only
  rw [if_neg (by simp [h])]
  obtain ⟨x, o, e⟩ := Core.sendResp_only (c := c.onSession sess fun x => { x with
    cache := ((req, op, st, body) :: x.cache).take 16, waiting := x.waiting - 1 }) (req := req) (op := op) (st := st) (body := body) (by
      rw [Core.onSession_session]; exact hr)
  exact ⟨x, o, e⟩

theorem Core.respond_answered {c : Core} {sess req op st : Nat} {body : List Nat} (h : (c.session sess).st = .open)
    (hr : (c.session sess).txSeq + respFrags op body ≤ 2 ^ 48) : (c.respond sess req op st body).Answered sess req op st body := by
  obtain ⟨x, o, hx⟩ := Core.respond_only (req := req) (st := st) h hr
  rw [hx]; unfold Core.Answered; simp

/-- The word that a write of covered bits would leave in a register that holds `old`. -/
def mixed (h : Hit) (v mask old : Word) : Word := ((old &&& ~~~ mask) ||| (v &&& mask)) &&& usedMask h

/-- The write of one register that nothing refuses: its effect, then the response. -/
theorem Core.hostItem_ok {c : Core} {sess req a : Nat} {v mask : Word} {h : Hit} (hc : c.MayWrite sess req) (hr : regAt a = some h)
    (h4 : a % 4 = 0) (hw : inTagWindow a = false) (hx : isExpert a = false ∨ (c.session sess).role = .engineer)
    (hcfg : (c.asked sess).addressRefusal sess h = 0) (hm : coverOf h mask ≠ 0)
    (href : ∀ old, (c.asked sess).refusals sess h a v (coverOf h mask) (mixed h v (coverOf h mask) old) = []) :
    ∃ old, c.hostItem sess req a v mask =
      ((c.asked sess).writeEffect sess h a v (coverOf h mask) (mixed h v (coverOf h mask) old)).1.respond sess req 2
        ((c.asked sess).writeEffect sess h a v (coverOf h mask) (mixed h v (coverOf h mask) old)).2
        [1, ((c.asked sess).writeEffect sess h a v (coverOf h mask) (mixed h v (coverOf h mask) old)).2] := by
  obtain ⟨ha, hmin⟩ := hc
  have hrole : ((c.session sess).role).mayWrite a = true := by
    have h3 : roleNum .operate ≤ roleNum (c.session sess).role := ha.2.2.2.2.1
    revert h3
    cases hro : (c.session sess).role with
    | engineer => intro _; rfl
    | operate =>
      intro _
      rcases hx with hx | hx
      · simp [Role.mayWrite, hx]
      · rw [hro] at hx; cases hx
    | _ => intro h3; exact absurd h3 (by decide)
  have hmd : ¬ ((c.asked sess).md.mode = .minimal ∨ (c.asked sess).md.mode = .recovery) := by
    rintro (e | e)
    · exact hmin e
    · exact ha.2.2.1 e
  have hrole' : (((c.asked sess).session sess).role).mayWrite a = true := hrole
  unfold Core.hostItem
  rw [Core.request_asks ha]
  dsimp only
  unfold Core.loneItem
  dsimp only
  rw [hw]
  unfold Core.writeItem
  dsimp only
  rw [if_neg (by decide), if_neg (by omega), hr]
  dsimp only
  rw [hcfg, hrole', if_neg (by decide), if_neg (by decide), if_neg (by decide), if_neg hm, if_neg hmd]
  generalize (if (selMask h.key).isSome = true then wd ((c.asked sess).selOf sess h.key) else _) = old
  refine ⟨old, ?_⟩
  rw [show ((old &&& ~~~ (coverOf h mask)) ||| (v &&& coverOf h mask)) &&& usedMask h = mixed h v (coverOf h mask) old from rfl, href, if_pos (by decide)]
  rfl

/-- What the write of one register that nothing refuses answers: its effect `d`, host access aside, and the response. -/
theorem item_done {s : State} {sess req a : Nat} {v mask : Word} {h : Hit} {d : Core} {st : Nat} (hc : s.dev.core.MayWrite sess req)
    (hr : regAt a = some h) (h4 : a % 4 = 0) (hw : inTagWindow a = false)
    (hx : isExpert a = false ∨ (s.dev.core.session sess).role = .engineer)
    (hcfg : (s.dev.core.quiet.asked sess).addressRefusal sess h = 0) (hm : coverOf h mask ≠ 0)
    (href : ∀ old, (s.dev.core.quiet.asked sess).refusals sess h a v (coverOf h mask) (mixed h v (coverOf h mask) old) = [])
    (he : ∀ old, (s.dev.core.quiet.asked sess).writeEffect sess h a v (coverOf h mask) (mixed h v (coverOf h mask) old) = (d, st))
    (hk : ∀ n, (d.session n).still = (s.dev.core.session n).still) :
    ∃ x o, coreCmd (Core.hostItem sess req a v mask) s = .next { s with dev := { s.dev with core :=
      { d with host := x, out := o ++ [.resp sess req 0x82 st [1, st]] } } } := by
  have hc' : s.dev.core.quiet.MayWrite sess req := hc
  obtain ⟨old, ho⟩ := Core.hostItem_ok (a := a) (v := v) (mask := mask) (h := h) hc' hr h4 hw hx hcfg hm href
  unfold coreCmd
  rw [ho, he]
  dsimp only
  have h1 : (d.session sess).st = .open := (Session.still_st (hk sess)).trans hc.1.2.2.2.1
  have h2 : (d.session sess).txSeq = (s.dev.core.session sess).txSeq := Session.still_txSeq (hk sess)
  have h3 := hc.1.2.2.2.2.2.2.2
  obtain ⟨x, o, hx⟩ := Core.respond_only (c := d) (req := req) (op := 2) (st := st) (body := [1, st]) h1 (by
    have : respFrags 2 [1, st] = 1 := by unfold respFrags bodyBytes cdiv; simp
    omega)
  rw [hx]
  exact ⟨x, o, rfl⟩

/-- The same, as the statements say it. -/
theorem item_accepted {s : State} {sess req a : Nat} {v mask : Word} {h : Hit} {d : Core} (l : List Part) (rs : List Nat)
    (hc : s.dev.core.MayWrite sess req) (hr : regAt a = some h) (h4 : a % 4 = 0) (hw : inTagWindow a = false)
    (hx : isExpert a = false ∨ (s.dev.core.session sess).role = .engineer)
    (hcfg : (s.dev.core.quiet.asked sess).addressRefusal sess h = 0) (hm : coverOf h mask ≠ 0)
    (href : ∀ old, (s.dev.core.quiet.asked sess).refusals sess h a v (coverOf h mask) (mixed h v (coverOf h mask) old) = [])
    (he : ∀ old, (s.dev.core.quiet.asked sess).writeEffect sess h a v (coverOf h mask) (mixed h v (coverOf h mask) old) = (d, 0))
    (hk : ∀ n, (d.session n).still = (s.dev.core.session n).still) (hp : ∀ p, p ∉ .out :: .host :: .regs :: l → p.same s.dev.core d)
    (hg : ∀ a, a ∉ rs → ¬ s.dev.core.Booked a → d.reg a = s.dev.core.reg a) :
    ∃ x o, coreCmd (Core.hostItem sess req a v mask) s = .next { s with dev := { s.dev with core := { d with host := x, out := o } } } ∧
      Accepted s { s with dev := { s.dev with core := { d with host := x, out := o } } } sess req l rs := by
  obtain ⟨x, o, hx⟩ := item_done hc hr h4 hw hx hcfg hm href he hk
  refine ⟨x, _, hx, ⟨rfl, rfl, fun p hq => ?_⟩, hg, ?_⟩
  · have := hp p hq
    cases p <;> first | exact this | simp at hq
  · unfold Core.Answered; simp

end Sys2Proof.Machine
end

