-- ==== Sys2Proof/Laws/Points.lean ====
section
/-!
SUPPORT. Laws/Points.lean: what a write of an output segment can change: the segment, and what the ports hold of frames that are built.
-/
namespace Sys2Proof.Machine

/-- Freezing the frames that are built changes nothing but what ports hold of them. -/
theorem Core.freeze_ports (c : Core) : ∃ ps, c.freeze = c.onAshSt fun a => { a with ports := ps } := by
  unfold Core.freeze forN
  generalize List.range 8 = l
  suffices h : ∀ d : Core, (∃ ps, d = c.onAshSt fun a => { a with ports := ps }) →
      ∃ ps, (l.foldl (fun d p =>
        let x := d.port p
        let t := d.buildStart p
        if x.st = .cycling ∧ (x.fresh ∨ x.cycleStart < t) ∧ x.built.map (·.start) ≠ some t then d.onPort p fun y => { y with built := some (d.builtNow t) }
        else d) d) = c.onAshSt fun a => { a with ports := ps } from h c ⟨c.ash.ports, rfl⟩
  induction l with
  | nil => exact fun d h => h
  | cons p l ih =>
    rintro d ⟨ps, rfl⟩
    rw [List.foldl_cons]
    apply ih
    dsimp only
    split
    · exact ⟨_, rfl⟩
    · exact ⟨_, rfl⟩

/-- A write of a word of an output segment changes that segment, and what ports hold of frames that are built. -/
theorem Core.setOutWord_ash (c : Core) (k : Nat) (v : Word) :
    ∃ ps, c.setOutWord k v = c.onAshSt fun a => { a with ports := ps, out := SMap.set 0 c.ash.out k v } := by
  obtain ⟨ps, h⟩ := c.freeze_ports
  exact ⟨ps, by unfold Core.setOutWord; rw [h]; rfl⟩

end Sys2Proof.Machine
end

