-- ==== Sys2Proof/Laws/Windows.lean ====
section
/-!
SUPPORT. Laws/Windows.lean: which register the address of a window names, at every number of an axis, a loop, a stream or a unit, and
that it lies outside the tag window and in a basic half.
-/
namespace Sys2Proof.Machine

theorem regAt_loop (n off : Nat) (hn : n < 1024) (h : off < 0x100) (h4 : off % 4 = 0) :
    regAt (0x01000000 + off + 0x100 * n) = findReg 0x01000000 n off regs_loop := by
  unfold regAt
  rw [if_neg (by omega), if_neg (by omega), if_pos (by omega)]
  rw [show (0x01000000 + off + 0x100 * n - 0x01000000) / 0x100 = n by omega, show (0x01000000 + off + 0x100 * n) % 0x100 = off by omega]

theorem regAt_axis (n off : Nat) (hn : n < 192) (h : off < 0x200) (h4 : off % 4 = 0) :
    regAt (0x02000000 + off + 0x200 * n) = findReg 0x02000000 n off regs_axis := by
  unfold regAt
  rw [if_neg (by omega), if_neg (by omega), if_neg (by omega), if_pos (by omega)]
  rw [show (0x02000000 + off + 0x200 * n - 0x02000000) / 0x200 = n by omega, show (0x02000000 + off + 0x200 * n) % 0x200 = off by omega]

theorem regAt_cap (n off : Nat) (hn : n < 64) (h : off < 0x100) (h4 : off % 4 = 0) :
    regAt (0x03000000 + off + 0x100 * n) = findReg 0x03000000 n off regs_cap := by
  unfold regAt
  rw [if_neg (by omega), if_neg (by omega), if_neg (by omega), if_neg (by omega), if_pos (by omega)]
  rw [show (0x03000000 + off + 0x100 * n - 0x03000000) / 0x100 = n by omega, show (0x03000000 + off + 0x100 * n) % 0x100 = off by omega]

theorem regAt_stream (n off : Nat) (hn : n < 16) (h : off < 0x100) (h4 : off % 4 = 0) :
    regAt (0x03100000 + off + 0x100 * n) = findReg 0x03100000 n off regs_stream := by
  unfold regAt
  rw [if_neg (by omega), if_neg (by omega), if_neg (by omega), if_neg (by omega), if_neg (by omega), if_pos (by omega)]
  rw [show (0x03100000 + off + 0x100 * n - 0x03100000) / 0x100 = n by omega, show (0x03100000 + off + 0x100 * n) % 0x100 = off by omega]

/-- An address of an instance that exists. -/
theorem instAddr_lt {lim key stride n : Nat} (h : n < lim) : instAddr lim key stride n = key + stride * n := by
  unfold instAddr; rw [if_pos h]

theorem inTagWindow_low {a : Nat} (h : a < 0x10000000) : inTagWindow a = false := by
  unfold inTagWindow; rw [show decide (0x10000000 ≤ a) = false from decide_eq_false (by omega)]; rfl

/-- The basic half of a loop's, an axis's, a unit's and a stream's window. -/
theorem basic_loop {off n : Nat} (hn : n < 1024) (h : off < 0x80) : isExpert (0x01000000 + off + 0x100 * n) = false := by
  unfold isExpert
  rw [if_neg (by omega), if_pos (by omega)]
  exact decide_eq_false (by omega)

theorem basic_axis {off n : Nat} (hn : n < 192) (h : off < 0x100) : isExpert (0x02000000 + off + 0x200 * n) = false := by
  unfold isExpert
  rw [if_neg (by omega), if_neg (by omega), if_pos (by omega)]
  exact decide_eq_false (by omega)

theorem basic_cap {off n : Nat} (hn : n < 64) (h : off < 0x80) : isExpert (0x03000000 + off + 0x100 * n) = false := by
  unfold isExpert
  rw [if_neg (by omega), if_neg (by omega), if_neg (by omega), if_pos (by omega)]
  exact decide_eq_false (by omega)

theorem basic_stream {off n : Nat} (hn : n < 16) (h : off < 0x80) : isExpert (0x03100000 + off + 0x100 * n) = false := by
  unfold isExpert
  rw [if_neg (by omega), if_neg (by omega), if_neg (by omega), if_pos (by omega)]
  exact decide_eq_false (by omega)

end Sys2Proof.Machine
end

