-- ==== Sys2Proof/Laws/Rows.lean ====
section
/-!
SUPPORT. Laws/Rows.lean: the write of one register of a loop's, an axis's, a stream's or a unit's window, or of a block, that nothing
refuses.
-/
namespace Sys2Proof.Machine

/-- What remains to show of such a write: the register, that no test refuses it, its effect `d`, and what the effect leaves. -/
structure Core.ItemTakes (c0 : Core) (sess : Nat) (h : Hit) (a : Nat) (v mask : Word) (l : List Part) (rs : List Nat) (d : Core) : Prop where
  ask : ∀ c : Core, c = c0.quiet.asked sess → ∀ old, c.refusals sess h a v (coverOf h mask) (mixed h v (coverOf h mask) old) = []
  eff : ∀ c : Core, c = c0.quiet.asked sess → ∀ old, c.writeEffect sess h a v (coverOf h mask) (mixed h v (coverOf h mask) old) = (d, 0)
  sess_ : ∀ n, (d.session n).still = (c0.session n).still
  part : ∀ p, p ∉ .out :: .host :: .regs :: l → p.same c0 d
  regs : ∀ a, a ∉ rs → ¬ c0.Booked a → d.reg a = c0.reg a

/-- A register of a loop. -/
theorem loop_row {s : State} {sess req n off : Nat} {v mask : Word} {h : Hit} {d : Core} (l : List Part) (rs : List Nat)
    (hc : s.dev.core.MayWrite sess req) (hn : n < 1024) (hl : s.dev.core.image.loops.contains n = true) (ho : off < 0x80) (h4 : off % 4 = 0)
    (hr : findReg 0x01000000 n off regs_loop = some h) (hk : h.key = 0x01000000 + off) (hi : h.inst = n) (hm : coverOf h mask ≠ 0)
    (ht : s.dev.core.ItemTakes sess h (0x01000000 + off + 0x100 * n) v mask l rs d) :
    ∃ x o, coreCmd (Core.hostItem sess req (lpAddr (0x01000000 + off) n) v mask) s =
        .next { s with dev := { s.dev with core := { d with host := x, out := o } } } ∧
      Accepted s { s with dev := { s.dev with core := { d with host := x, out := o } } } sess req l rs := by
  rw [show lpAddr (0x01000000 + off) n = 0x01000000 + off + 0x100 * n from instAddr_lt hn]
  refine item_accepted l rs hc (by rw [regAt_loop n off hn (by omega) h4]; exact hr) (by omega) (inTagWindow_low (by omega))
    (.inl (basic_loop hn ho)) ?_ hm (fun old => ht.ask _ rfl old) (fun old => ht.eff _ rfl old) ht.sess_ ht.part ht.regs
  unfold Core.addressRefusal
  simp only [hk]
  rw [if_neg (by unfold A.LE_TBL_NODE; omega), if_neg (by unfold A.LE_BIN; omega), if_neg (by unfold A.MR_CTL A.MR_PARTNER_CTL; omega), if_pos]
  unfold Core.configured
  rw [hk, hi, if_neg (by omega), if_pos (by omega)]
  exact hl

end Sys2Proof.Machine
end

