-- ==== Sys2Proof/WellFormed.lean ====
section
/-!
DEFINITION. WellFormed.lean: which commands can come from outside: an operand that numbers a session, an axis, a loop, a port or another
instance stays in the range that the spec numbers (R27, R165, R266, R500 and the registers' indices), and a field of a message stays in its width.
-/
namespace Sys2Proof

/-- A number below a bound. -/
def below (lim n : Nat) : Bool := decide (n < lim)

def WriteItem.wf (x : WriteItem) : Bool := below (2 ^ 32) x.addr
def SubReq.wf (x : SubReq) : Bool :=
  below 256 x.kind && below 256 x.periodK && below 256 x.minBand && below 65536 x.blockMask && x.addrs.all (below (2 ^ 32))
def Dgram.wf (x : Dgram) : Bool :=
  below 65536 x.magic && below 256 x.version && below 256 x.type && below 65536 x.target && below 65536 x.source && below (2 ^ 32) x.session &&
    below (2 ^ 64) x.seq && below 256 x.frag && below 256 x.frags && below 65536 x.length && below 65536 x.net.port
def InitMsg.wf (x : InitMsg) : Bool := x.d.wf && below (2 ^ 256) x.nonce && below (2 ^ 256) x.fp && below 256 x.role
def ConfirmMsg.wf (x : ConfirmMsg) : Bool := x.d.wf && below 16 x.chan
def SecureMsg.wf (x : SecureMsg) : Bool :=
  x.d.wf && below 16 x.chan && below (2 ^ 32) x.req && below 256 x.op && below (2 ^ 32) x.bodyLen && below 65536 x.count
def Stone.wf (x : Stone) : Bool :=
  below 4096 x.mod && below 65536 x.seq && below 256 x.type && below 256 x.version && below 65536 x.length && below (2 ^ 32) x.cycle &&
    below (2 ^ 32) x.claim && below 65536 x.status && below (2 ^ 32) x.identCrc && x.bytes.all (below 256)
def SafeMsg.wf (x : SafeMsg) : Bool :=
  below 65536 x.safeId && below (2 ^ 32) x.seq && below 256 x.len && below 256 x.flags && below (2 ^ 32) x.scrc && below (2 ^ 32) x.claim
def MorHdr.wf (x : MorHdr) : Bool := below 256 x.version && below (2 ^ 32) x.claim && below (2 ^ 64) x.epoch
def IdentMsg.wf (x : IdentMsg) : Bool := below 21 x.piece && below 65536 x.num && below (2 ^ 256) x.fp
def ModReport.wf (x : ModReport) : Bool := below 8 x.port && below 512 x.slot && below x.parts x.part
def LnHdr.wf (x : LnHdr) : Bool := below 4 x.unit && below 1024 x.origin && below (2 ^ 32) x.seq && below (2 ^ 32) x.claim && below 65536 x.hops &&
  below 256 x.version && below 65536 x.length
def HelloMsg.wf (x : HelloMsg) : Bool := below (2 ^ 256) x.fp && x.links.all fun k => below 4 k.1
def MgmtMsg.wf (x : MgmtMsg) : Bool := below 65536 x.target && below 65536 x.message && below x.pieces x.piece && below 6 x.pieces
def ExportVal.wf (x : ExportVal) : Bool := below (2 ^ 25) x.tag
def ContHdr.wf (x : ContHdr) : Bool := below 256 x.kind && below 65536 x.target
def ContChunk.wf (x : ContChunk) : Bool := below (2 ^ 64) x.cont && below 65536 x.chunk && x.hdr.wf && below 65537 x.len && below (2 ^ 32) x.offset
def ActivateReq.wf (x : ActivateReq) : Bool := below (2 ^ 64) x.fw && below (2 ^ 64) x.cfg && below 256 x.restart
def BeatMsg.wf (x : BeatMsg) : Bool := below (2 ^ 32) x.claim && below 4 x.role && below 7 x.mode
def StartEnv.wf (x : StartEnv) : Bool := x.modules.all ModReport.wf && x.links.all (below 8) && below 4 x.svcLink

/-- Whether a command is one that can come from outside. -/
def Instr.wf : Instr → Bool
  | .powerOn env => env.wf
  | .porstNAssert _ env => env.wf
  | .watchdogExpiry env => env.wf
  | .vcoreRestored env => env.wf
  | .keepAliveLoss => true
  | .keepAliveReturn env => env.wf
  | .keepAliveInputChange _ _ => true
  | .feedChange _ _ => true
  | .paceSample _ => true
  | .paceReqChange _ => true
  | .tempSample temps => decide (temps.length = 8)
  | .thermalHoldRelease env => env.wf
  | .pllLockLoss => true
  | .pfwAssert => true
  | .finalRecordCommit => true
  | .dramEccError addr _ => below (2 ^ 32) addr
  | .enterRecovery sess req env => below 16 sess && below (2 ^ 32) req && env.wf
  | .enterStandby sess req => below 16 sess && below (2 ^ 32) req
  | .enterRun sess req => below 16 sess && below (2 ^ 32) req
  | .enterService sess req => below 16 sess && below (2 ^ 32) req
  | .coldRestart sess req env => below 16 sess && below (2 ^ 32) req && env.wf
  | .warmRestart sess req env => below 16 sess && below (2 ^ 32) req && env.wf
  | .serviceTimeout => true
  | .tick => true
  | .baseCycleStart => true
  | .flyTimeout axis => below 192 axis
  | .portCycleStart port => below 8 port
  | .moduleLost mod => below 4096 mod
  | .recoveryRound port => below 8 port
  | .generatorStep => true
  | .holdDelayExpiry axis => below 192 axis
  | .jogTimeout axis => below 192 axis
  | .ptpSync port m => below 12 port && below 1000000000 m.nanos
  | .slewComplete => true
  | .timeStep => true
  | .ptpAnnounce port _ => below 12 port
  | .holdoverEntry => true
  | .ptpPdelay port _ => below 12 port
  | .setTime sess req _ => below 16 sess && below (2 ^ 32) req
  | .timeLatchRead sess req => below 16 sess && below (2 ^ 32) req
  | .asymWrite sess req port _ => below 16 sess && below (2 ^ 32) req && below 12 port
  | .tinEdge n _ _ => below 32 n
  | .tinStampRead sess req n => below 16 sess && below (2 ^ 32) req && below 32 n
  | .toutArm sess req m => below 16 sess && below (2 ^ 32) req && below 16 m
  | .toutDisarm sess req m => below 16 sess && below (2 ^ 32) req && below 16 m
  | .toutPulse m => below 16 m
  | .toutPulseEnd m => below 16 m
  | .probe _ target d => below 65536 target && d.wf
  | .beacon => true
  | .reassemblyTimeout _ _ => true
  | .sessionInit m => m.wf
  | .sessionConfirm m => m.wf
  | .handshakeTimeout chan => below 16 chan
  | .secure d => d.wf
  | .sessionTimeout sess => below 16 sess
  | .read sess req addr => below 16 sess && below (2 ^ 32) req && below (2 ^ 32) addr
  | .write sess req flags items => below 16 sess && below (2 ^ 32) req && below 256 flags && items.all WriteItem.wf
  | .tagWindowWrite sess req addr _ => below 16 sess && below (2 ^ 32) req && below (2 ^ 32) addr
  | .clrExpert sess req block => below 16 sess && below (2 ^ 32) req && below 16 block
  | .cycleAlignedApply => true
  | .readBlock sess req addr _ => below 16 sess && below (2 ^ 32) req && below (2 ^ 32) addr
  | .subscribe sess req x => below 16 sess && below (2 ^ 32) req && x.wf
  | .unsubscribe sess req id => below 16 sess && below (2 ^ 32) req && below 65536 id
  | .valueSubscriptionSample id => below 65536 id
  | .attest sess req _ => below 16 sess && below (2 ^ 32) req
  | .ping sess req => below 16 sess && below (2 ^ 32) req
  | .close sess req => below 16 sess && below (2 ^ 32) req
  | .abort sess req _ _ => below 16 sess && below (2 ^ 32) req
  | .opNop _ _ => true
  | .opAdd _ _ => true
  | .opSub _ _ => true
  | .opMul _ _ => true
  | .opMulh _ _ => true
  | .opDivs _ _ => true
  | .opDivu _ _ => true
  | .opRems _ _ => true
  | .opShl _ _ => true
  | .opShrs _ _ => true
  | .opShru _ _ => true
  | .opCmpeq _ _ => true
  | .opCmplt _ _ => true
  | .opCmpltu _ _ => true
  | .opMin _ _ => true
  | .opMax _ _ => true
  | .opAbs _ _ => true
  | .opMov _ _ => true
  | .opLdi _ _ => true
  | .opSel _ _ => true
  | .opLdx _ _ => true
  | .opStx _ _ => true
  | .opAdd64 _ _ => true
  | .opSub64 _ _ => true
  | .opMul64 _ _ => true
  | .opDiv64s _ _ => true
  | .opDiv64u _ _ => true
  | .opShl64 _ _ => true
  | .opShrs64 _ _ => true
  | .opShru64 _ _ => true
  | .opCmp64eq _ _ => true
  | .opCmp64lt _ _ => true
  | .opCmp64ltu _ _ => true
  | .opSext _ _ => true
  | .opVmac _ _ => true
  | .opVmul _ _ => true
  | .opVadd _ _ => true
  | .opVsat _ _ => true
  | .opFadd _ _ => true
  | .opFsub _ _ => true
  | .opFmul _ _ => true
  | .opFmac _ _ => true
  | .opFdiv _ _ => true
  | .opFsqrt _ _ => true
  | .opFcmpeq _ _ => true
  | .opFcmplt _ _ => true
  | .opFtoi _ _ => true
  | .opItof _ _ => true
  | .opFmin _ _ => true
  | .opFmax _ _ => true
  | .opFabs _ _ => true
  | .opAnd _ _ => true
  | .opOr _ _ => true
  | .opXor _ _ => true
  | .opNot _ _ => true
  | .opBset _ _ => true
  | .opBclr _ _ => true
  | .opBtst _ _ => true
  | .opPset _ _ => true
  | .opPand _ _ => true
  | .opPor _ _ => true
  | .opPnot _ _ => true
  | .opTon _ _ => true
  | .opTof _ _ => true
  | .opTp _ _ => true
  | .opRtrig _ _ => true
  | .opFtrig _ _ => true
  | .opTrd1 _ _ => true
  | .opTwr1 _ _ => true
  | .opTrdt _ _ => true
  | .opTwrt _ _ => true
  | .opTrdx _ _ => true
  | .opLatchm _ _ => true
  | .opCmtout _ _ => true
  | .opCmtlp _ _ => true
  | .opCmtax _ _ => true
  | .opWrdy _ _ => true
  | .opWcan _ _ => true
  | .opWrel _ _ => true
  | .opEvt _ _ => true
  | .windowStart _ => true
  | .windowComplete _ => true
  | .windowDeadline _ => true
  | .commitEnd => true
  | .retainCapture => true
  | .journalRecordWrite _ => true
  | .itemComplete _ => true
  | .releaseTimeReached item => below 65536 item
  | .affinityHoldEnd item => below 65536 item
  | .readyEntryAged item => below 65536 item
  | .wqReady sess req item => below 16 sess && below (2 ^ 32) req && below 65536 item
  | .wqCancel sess req item => below 16 sess && below (2 ^ 32) req && below 65536 item
  | .wqRelease sess req item => below 16 sess && below (2 ^ 32) req && below 65536 item
  | .forceSet sess req => below 16 sess && below (2 ^ 32) req
  | .forceRelease sess req => below 16 sess && below (2 ^ 32) req
  | .forceReleaseAll sess req => below 16 sess && below (2 ^ 32) req
  | .olcLoadComplete => true
  | .olcArm sess req => below 16 sess && below (2 ^ 32) req
  | .olcDisarm sess req => below 16 sess && below (2 ^ 32) req
  | .olcSwap => true
  | .loopUpdate n => below 1024 n
  | .modeReqOpen sess req n => below 16 sess && below (2 ^ 32) req && below 1024 n
  | .modeReqManual sess req n => below 16 sess && below (2 ^ 32) req && below 1024 n
  | .modeReqClosed sess req n => below 16 sess && below (2 ^ 32) req && below 1024 n
  | .rcClear sess req n => below 16 sess && below (2 ^ 32) req && below 1024 n
  | .rcLearn sess req n _ => below 16 sess && below (2 ^ 32) req && below 1024 n
  | .injStart sess req n => below 16 sess && below (2 ^ 32) req && below 1024 n
  | .injStop sess req n => below 16 sess && below (2 ^ 32) req && below 1024 n
  | .injectionEnd n => below 1024 n
  | .axStop sess req axis => below 16 sess && below (2 ^ 32) req && below 192 axis
  | .axQstop sess req axis => below 16 sess && below (2 ^ 32) req && below 192 axis
  | .axResume sess req axis => below 16 sess && below (2 ^ 32) req && below 192 axis
  | .jogPositive sess req axis => below 16 sess && below (2 ^ 32) req && below 192 axis
  | .jogNegative sess req axis => below 16 sess && below (2 ^ 32) req && below 192 axis
  | .jogEnd sess req axis => below 16 sess && below (2 ^ 32) req && below 192 axis
  | .axPosLatch sess req axis => below 16 sess && below (2 ^ 32) req && below 192 axis
  | .encoderEdge axis _ _ _ => below 192 axis
  | .switchEdge axis sw _ _ => below 192 axis && below 4 sw
  | .debounceComplete axis sw => below 192 axis && below 4 sw
  | .homeStart sess req axis => below 16 sess && below (2 ^ 32) req && below 192 axis
  | .homeAbandon sess req axis => below 16 sess && below (2 ^ 32) req && below 192 axis
  | .stoneFrame f => f.wf
  | .safeUp f => f.wf
  | .ashReenum sess req port => below 16 sess && below (2 ^ 32) req && below 8 port
  | .report r => r.wf
  | .enumReturn port _ => below 8 port
  | .enumReplyTimeout port => below 8 port
  | .ashLinkDown port => below 8 port
  | .courseFrameShadow port claim _ _ => below 8 port && below (2 ^ 32) claim
  | .shadowLost port => below 8 port
  | .helloSend => true
  | .hello f h => f.wf && h.wf
  | .neighbourTimeout dev => below 1024 dev
  | .linkUp unit => below 4 unit
  | .ident unit m => below 5 unit && m.wf
  | .identTimeout unit => below 4 unit
  | .lnApprove sess req unit => below 16 sess && below (2 ^ 32) req && below 4 unit
  | .lnForget sess req unit => below 16 sess && below (2 ^ 32) req && below 4 unit
  | .shaft f _ => f.wf
  | .shaftConsume => true
  | .exportSend => true
  | .exportFrame f m => f.wf && m.all ExportVal.wf
  | .importStale tag => below 33554432 tag
  | .trigger f trig _ => f.wf && below 128 trig
  | .safe f _ => f.wf
  | .mgmt f m => f.wf && m.wf
  | .relay unit _ => below 4 unit
  | .relayAck unit cont chunk code => below 4 unit && below (2 ^ 64) cont && below 65536 chunk && below 256 code
  | .relayResendTimeout cont chunk => below (2 ^ 64) cont && below 65536 chunk
  | .hist stream => below 16 stream
  | .histAck stream _ => below 16 stream
  | .heartbeat b => b.wf
  | .heartbeatMissed => true
  | .mrYield sess req => below 16 sess && below (2 ^ 32) req
  | .yieldFrame h _ _ => h.wf
  | .epochData h _ _ => h.wf
  | .epochEnd f => f.h.wf
  | .mrResync sess req => below 16 sess && below (2 ^ 32) req
  | .resyncData h _ => h.wf
  | .resyncEnd f => f.h.wf
  | .mrApprove sess req => below 16 sess && below (2 ^ 32) req
  | .mrForget sess req => below 16 sess && below (2 ^ 32) req
  | .packageFrame h _ => h.wf
  | .pairWaitExpiry => true
  | .rsStart sess req k => below 16 sess && below (2 ^ 32) req && below 16 k
  | .rsStop sess req k => below 16 sess && below (2 ^ 32) req && below 16 k
  | .rsClaim sess req k => below 16 sess && below (2 ^ 32) req && below 16 k
  | .rsUnclaim sess req k => below 16 sess && below (2 ^ 32) req && below 16 k
  | .rsAck sess req k _ => below 16 sess && below (2 ^ 32) req && below 16 k
  | .rsMark sess req k _ => below 16 sess && below (2 ^ 32) req && below 16 k
  | .rsCounterLatch sess req k => below 16 sess && below (2 ^ 32) req && below 16 k
  | .gapWrite k => below 16 k
  | .peerSilent k => below 16 k
  | .trFire sess req x => below 16 sess && below (2 ^ 32) req && below 128 x
  | .trEnable sess req x _ => below 16 sess && below (2 ^ 32) req && below 128 x
  | .cpArm sess req u => below 16 sess && below (2 ^ 32) req && below 64 u
  | .cpDisarm sess req u => below 16 sess && below (2 ^ 32) req && below 64 u
  | .cpRelease sess req u => below 16 sess && below (2 ^ 32) req && below 64 u
  | .cpTrigger sess req u => below 16 sess && below (2 ^ 32) req && below 64 u
  | .rowAssembly u _ => below 64 u
  | .rearmIntervalEnd u => below 64 u
  | .safetySample _ => true
  | .ss1DelayExpiry n => below 8 n
  | .testPulse x => below 4 x
  | .darkTest n => below 8 n
  | .safeRstRelease _ => true
  | .channelCrossCheck _ => true
  | .oscillatorCheck _ _ => true
  | .tarn5EccError _ => true
  | .brakeRequestRead k _ _ => below 4 k
  | .brakeTestEnd k _ => below 4 k
  | .brakeTestOverdue k => below 4 k
  | .connectionTimeout c => below 64 c
  | .mirrorUpdate => true
  | .contData sess req d => below 16 sess && below (2 ^ 32) req && d.wf && below 16357 d.len
  | .contStatus sess req dest cont => below 16 sess && below (2 ^ 32) req && below 5 dest && below (2 ^ 64) cont
  | .contCancel sess req dest cont => below 16 sess && below (2 ^ 32) req && below 5 dest && below (2 ^ 64) cont
  | .containerVerify cont _ env => below (2 ^ 64) cont && env.wf
  | .activate sess req a env => below 16 sess && below (2 ^ 32) req && a.wf && env.wf
  | .confirm sess req => below 16 sess && below (2 ^ 32) req
  | .getCert sess req => below 16 sess && below (2 ^ 32) req
  | .debugLifetimeEnd => true
  | .dbgLock sess req => below 16 sess && below (2 ^ 32) req
  | .powerLoss => true
  | .pfwDeassert => true
  | .lintelLinkDown unit => below 4 unit
  | .ashLinkUp port => below 8 port
  | .morLinkUp => true

end Sys2Proof
end

