-- ==== Sys2Proof/Tests/Slice0.lean ====
section
/-!
SUPPORT. Tests/Slice0.lean: tests of single steps on small states, ill-formed terms that WellFormed refuses, and a witness for each
statement that has hypotheses.
-/
namespace Sys2Proof.Tests
open Sys2Proof Sys2Proof.Machine

-- One theorem at a time: each is a kernel evaluation of its own, and many at once wait on one another in threads.
set_option Elab.async false

/-! ## WellFormed refuses -/

theorem test_wf_fields : ([WriteItem.wf { addr := 2 ^ 32, value := 0 }, SubReq.wf { kind := 256 }, SubReq.wf { kind := 1, periodK := 256 }, SubReq.wf { kind := 1, minBand := 256 },
      SubReq.wf { kind := 1, blockMask := 65536 }, SubReq.wf { kind := 1, addrs := [2 ^ 32] }, InitMsg.wf { d := { type := 256 }, fp := 0, role := 0 },
      InitMsg.wf { d := { type := 1 }, fp := 2 ^ 256, role := 0 }, InitMsg.wf { d := { type := 1 }, nonce := 2 ^ 256, fp := 0, role := 0 }, InitMsg.wf { d := { type := 1 }, fp := 0, role := 256 },
      ConfirmMsg.wf { d := { type := 256 }, chan := 0 }, ConfirmMsg.wf { d := { type := 3 }, chan := 16 }] : List Bool).all (· == false) = true := by decide

theorem test_wf_datagrams : ([Dgram.wf { type := 256 }, Dgram.wf { type := 1, magic := 65536 }, Dgram.wf { type := 1, version := 256 }, Dgram.wf { type := 1, target := 65536 },
      Dgram.wf { type := 1, source := 65536 }, Dgram.wf { type := 1, session := 2 ^ 32 }, Dgram.wf { type := 1, seq := 2 ^ 64 }, Dgram.wf { type := 1, frag := 256 },
      Dgram.wf { type := 1, frags := 256 }, Dgram.wf { type := 1, length := 65536 }, Dgram.wf { type := 1, net := { port := 65536 } }] : List Bool).all (· == false) = true := by decide

theorem test_wf_secure : ([SecureMsg.wf { d := { type := 256 }, chan := 0 }, SecureMsg.wf { d := { type := 5 }, chan := 16 }, SecureMsg.wf { d := { type := 5 }, chan := 0, req := 2 ^ 32 },
      SecureMsg.wf { d := { type := 5 }, chan := 0, op := 256 }, SecureMsg.wf { d := { type := 5 }, chan := 0, bodyLen := 2 ^ 32 }, SecureMsg.wf { d := { type := 5 }, chan := 0, count := 65536 }] : List Bool).all (· == false) = true := by decide

theorem test_wf_line : ([Stone.wf { mod := 4096 }, Stone.wf { mod := 0, seq := 65536 }, Stone.wf { mod := 0, type := 256 }, Stone.wf { mod := 0, version := 256 }, Stone.wf { mod := 0, length := 65536 },
      Stone.wf { mod := 0, cycle := 2 ^ 32 }, Stone.wf { mod := 0, claim := 2 ^ 32 }, Stone.wf { mod := 0, status := 65536 }, Stone.wf { mod := 0, identCrc := 2 ^ 32 }, Stone.wf { mod := 0, bytes := [256] },
      SafeMsg.wf { safeId := 65536, seq := 0, data := 0 }, SafeMsg.wf { safeId := 0, seq := 2 ^ 32, data := 0 }, SafeMsg.wf { safeId := 0, seq := 0, data := 0, len := 256 },
      SafeMsg.wf { safeId := 0, seq := 0, data := 0, flags := 256 }, SafeMsg.wf { safeId := 0, seq := 0, data := 0, scrc := 2 ^ 32 }, SafeMsg.wf { safeId := 0, seq := 0, data := 0, claim := 2 ^ 32 },
      ModReport.wf { port := 8, slot := 0 }, ModReport.wf { port := 0, slot := 512 }, ModReport.wf { port := 0, slot := 0, part := 1, parts := 1 }] : List Bool).all (· == false) = true := by decide

theorem test_wf_links : ([LnHdr.wf { unit := 4, origin := 0, seq := 0 }, LnHdr.wf { unit := 0, origin := 1024, seq := 0 }, LnHdr.wf { unit := 0, origin := 0, seq := 2 ^ 32 },
      LnHdr.wf { unit := 0, origin := 0, seq := 0, claim := 2 ^ 32 }, LnHdr.wf { unit := 0, origin := 0, seq := 0, hops := 65536 }, LnHdr.wf { unit := 0, origin := 0, seq := 0, version := 256 },
      LnHdr.wf { unit := 0, origin := 0, seq := 0, length := 65536 }, HelloMsg.wf { fp := 2 ^ 256 }, HelloMsg.wf { links := [(4, 0, 0)] },
      MgmtMsg.wf { target := 65536, message := 0 }, MgmtMsg.wf { target := 0, message := 65536 }, MgmtMsg.wf { target := 0, message := 0, piece := 1, pieces := 1 },
      MgmtMsg.wf { target := 0, message := 0, pieces := 6 }, ExportVal.wf { tag := 2 ^ 25, value := 0, time := 0, stale := false }, MorHdr.wf { version := 256 }, MorHdr.wf { claim := 2 ^ 32 }, MorHdr.wf { epoch := 2 ^ 64 },
      IdentMsg.wf { answer := true, piece := 21 }, IdentMsg.wf { answer := true, num := 65536 }, IdentMsg.wf { answer := true, fp := 2 ^ 256 }] : List Bool).all (· == false) = true := by decide

theorem test_wf_containers : ([ContHdr.wf { kind := 256 }, ContHdr.wf { target := 65536 }, ContChunk.wf { cont := 2 ^ 64, chunk := 0 }, ContChunk.wf { cont := 0, chunk := 65536 },
      ContChunk.wf { cont := 0, chunk := 0, hdr := { kind := 256 } }, ContChunk.wf { cont := 0, chunk := 0, len := 65537 }, ContChunk.wf { cont := 0, chunk := 0, offset := 2 ^ 32 },
      ActivateReq.wf { fw := 2 ^ 64 }, ActivateReq.wf { cfg := 2 ^ 64 }, ActivateReq.wf { restart := 256 }, BeatMsg.wf { claim := 2 ^ 32 }, BeatMsg.wf { role := 4 }, BeatMsg.wf { mode := 7 },
      StartEnv.wf { modules := [{ port := 8, slot := 0 }] }, StartEnv.wf { links := [8] }, StartEnv.wf { svcLink := 4 }] : List Bool).all (· == false) = true := by decide

theorem test_wf_commands_1 :
    ([.powerOn { links := [8] }, .porstNAssert 0 { links := [8] },
      .watchdogExpiry { links := [8] }, .vcoreRestored { links := [8] },
      .keepAliveReturn { links := [8] }, .tempSample [],
      .thermalHoldRelease { links := [8] }, .dramEccError ((2 ^ 32)) false,
      .enterRecovery 16 0 {}, .enterRecovery 0 ((2 ^ 32)) {},
      .enterRecovery 0 0 { links := [8] }, .enterStandby 16 0,
      .enterStandby 0 ((2 ^ 32)), .enterRun 16 0,
      .enterRun 0 ((2 ^ 32)), .enterService 16 0,
      .enterService 0 ((2 ^ 32)), .coldRestart 16 0 {},
      .coldRestart 0 ((2 ^ 32)) {}, .coldRestart 0 0 { links := [8] },
      .warmRestart 16 0 {}, .warmRestart 0 ((2 ^ 32)) {},
      .warmRestart 0 0 { links := [8] }, .flyTimeout 192] : List Instr).all (fun c => !c.wf) = true := by decide

theorem test_wf_commands_2 :
    ([.portCycleStart 8, .moduleLost 4096,
      .recoveryRound 8, .holdDelayExpiry 192,
      .jogTimeout 192, .ptpSync 12 { stamp := 0 },
      .ptpSync 0 { stamp := 0, nanos := 1000000000 }, .ptpAnnounce 12 {},
      .ptpPdelay 12 (.faulty), .setTime 16 0 0,
      .setTime 0 ((2 ^ 32)) 0, .timeLatchRead 16 0,
      .timeLatchRead 0 ((2 ^ 32)), .asymWrite 16 0 0 0,
      .asymWrite 0 ((2 ^ 32)) 0 0, .asymWrite 0 0 12 0,
      .tinEdge 32 false 0, .tinStampRead 16 0 0,
      .tinStampRead 0 ((2 ^ 32)) 0, .tinStampRead 0 0 32,
      .toutArm 16 0 0, .toutArm 0 ((2 ^ 32)) 0,
      .toutArm 0 0 16, .toutDisarm 16 0 0] : List Instr).all (fun c => !c.wf) = true := by decide

theorem test_wf_commands_3 :
    ([.toutDisarm 0 ((2 ^ 32)) 0, .toutDisarm 0 0 16,
      .toutPulse 16, .toutPulseEnd 16,
      .probe 0 65536 { type := 0 }, .probe 0 0 { type := 256 },
      .sessionInit { d := { type := 1 }, fp := 0, role := 256 }, .sessionConfirm { d := { type := 3 }, chan := 16 },
      .handshakeTimeout 16, .secure { d := { type := 5 }, chan := 16 },
      .sessionTimeout 16, .read 16 0 0,
      .read 0 ((2 ^ 32)) 0, .read 0 0 ((2 ^ 32)),
      .write 16 0 0 [], .write 0 ((2 ^ 32)) 0 [],
      .write 0 0 256 [], .write 0 0 0 [{ addr := 2 ^ 32, value := 0 }],
      .tagWindowWrite 16 0 0 [], .tagWindowWrite 0 ((2 ^ 32)) 0 [],
      .tagWindowWrite 0 0 ((2 ^ 32)) [], .clrExpert 16 0 0,
      .clrExpert 0 ((2 ^ 32)) 0, .clrExpert 0 0 16] : List Instr).all (fun c => !c.wf) = true := by decide

theorem test_wf_commands_4 :
    ([.readBlock 16 0 0 0, .readBlock 0 ((2 ^ 32)) 0 0,
      .readBlock 0 0 ((2 ^ 32)) 0, .subscribe 16 0 { kind := 1 },
      .subscribe 0 ((2 ^ 32)) { kind := 1 }, .subscribe 0 0 { kind := 256 },
      .unsubscribe 16 0 0, .unsubscribe 0 ((2 ^ 32)) 0,
      .unsubscribe 0 0 65536, .valueSubscriptionSample 65536,
      .attest 16 0 0, .attest 0 ((2 ^ 32)) 0,
      .ping 16 0, .ping 0 ((2 ^ 32)),
      .close 16 0, .close 0 ((2 ^ 32)),
      .abort 16 0 0 0, .abort 0 ((2 ^ 32)) 0 0,
      .releaseTimeReached 65536, .affinityHoldEnd 65536,
      .readyEntryAged 65536, .wqReady 16 0 0,
      .wqReady 0 ((2 ^ 32)) 0, .wqReady 0 0 65536] : List Instr).all (fun c => !c.wf) = true := by decide

theorem test_wf_commands_5 :
    ([.wqCancel 16 0 0, .wqCancel 0 ((2 ^ 32)) 0,
      .wqCancel 0 0 65536, .wqRelease 16 0 0,
      .wqRelease 0 ((2 ^ 32)) 0, .wqRelease 0 0 65536,
      .forceSet 16 0, .forceSet 0 ((2 ^ 32)),
      .forceRelease 16 0, .forceRelease 0 ((2 ^ 32)),
      .forceReleaseAll 16 0, .forceReleaseAll 0 ((2 ^ 32)),
      .olcArm 16 0, .olcArm 0 ((2 ^ 32)),
      .olcDisarm 16 0, .olcDisarm 0 ((2 ^ 32)),
      .loopUpdate 1024, .modeReqOpen 16 0 0,
      .modeReqOpen 0 ((2 ^ 32)) 0, .modeReqOpen 0 0 1024,
      .modeReqManual 16 0 0, .modeReqManual 0 ((2 ^ 32)) 0,
      .modeReqManual 0 0 1024, .modeReqClosed 16 0 0] : List Instr).all (fun c => !c.wf) = true := by decide

theorem test_wf_commands_6 :
    ([.modeReqClosed 0 ((2 ^ 32)) 0, .modeReqClosed 0 0 1024,
      .rcClear 16 0 0, .rcClear 0 ((2 ^ 32)) 0,
      .rcClear 0 0 1024, .rcLearn 16 0 0 0,
      .rcLearn 0 ((2 ^ 32)) 0 0, .rcLearn 0 0 1024 0,
      .injStart 16 0 0, .injStart 0 ((2 ^ 32)) 0,
      .injStart 0 0 1024, .injStop 16 0 0,
      .injStop 0 ((2 ^ 32)) 0, .injStop 0 0 1024,
      .injectionEnd 1024, .axStop 16 0 0,
      .axStop 0 ((2 ^ 32)) 0, .axStop 0 0 192,
      .axQstop 16 0 0, .axQstop 0 ((2 ^ 32)) 0,
      .axQstop 0 0 192, .axResume 16 0 0,
      .axResume 0 ((2 ^ 32)) 0, .axResume 0 0 192] : List Instr).all (fun c => !c.wf) = true := by decide

theorem test_wf_commands_7 :
    ([.jogPositive 16 0 0, .jogPositive 0 ((2 ^ 32)) 0,
      .jogPositive 0 0 192, .jogNegative 16 0 0,
      .jogNegative 0 ((2 ^ 32)) 0, .jogNegative 0 0 192,
      .jogEnd 16 0 0, .jogEnd 0 ((2 ^ 32)) 0,
      .jogEnd 0 0 192, .axPosLatch 16 0 0,
      .axPosLatch 0 ((2 ^ 32)) 0, .axPosLatch 0 0 192,
      .encoderEdge 192 false false 0, .switchEdge 192 0 false 0,
      .switchEdge 0 4 false 0, .debounceComplete 192 0,
      .debounceComplete 0 4, .homeStart 16 0 0,
      .homeStart 0 ((2 ^ 32)) 0, .homeStart 0 0 192,
      .homeAbandon 16 0 0, .homeAbandon 0 ((2 ^ 32)) 0,
      .homeAbandon 0 0 192, .stoneFrame { mod := 4096 }] : List Instr).all (fun c => !c.wf) = true := by decide

theorem test_wf_commands_8 :
    ([.safeUp { safeId := 65536, seq := 0, data := 0 }, .ashReenum 16 0 0,
      .ashReenum 0 ((2 ^ 32)) 0, .ashReenum 0 0 8,
      .report { port := 8, slot := 0 }, .enumReturn 8 0,
      .enumReplyTimeout 8, .ashLinkDown 8,
      .courseFrameShadow 8 0 0 [], .courseFrameShadow 0 ((2 ^ 32)) 0 [],
      .shadowLost 8, .hello { unit := 4, origin := 0, seq := 0 } {},
      .hello { unit := 0, origin := 0, seq := 0 } { links := [(4, 0, 0)] }, .neighbourTimeout 1024,
      .linkUp 4, .ident 5 { answer := true },
      .ident 0 { answer := true, piece := 21 }, .identTimeout 4,
      .lnApprove 16 0 0, .lnApprove 0 ((2 ^ 32)) 0,
      .lnApprove 0 0 4, .lnForget 16 0 0,
      .lnForget 0 ((2 ^ 32)) 0, .lnForget 0 0 4] : List Instr).all (fun c => !c.wf) = true := by decide

theorem test_wf_commands_9 :
    ([.shaft { unit := 4, origin := 0, seq := 0 } { t := 0, p := 0, v := 0, a := 0 }, .exportFrame { unit := 4, origin := 0, seq := 0 } [],
      .exportFrame { unit := 0, origin := 0, seq := 0 } [{ tag := 2 ^ 25, value := 0, time := 0, stale := false }], .importStale 33554432,
      .trigger { unit := 4, origin := 0, seq := 0 } 0 0, .trigger { unit := 0, origin := 0, seq := 0 } 128 0,
      .safe { unit := 4, origin := 0, seq := 0 } { safeId := 0, seq := 0, data := 0 }, .mgmt { unit := 4, origin := 0, seq := 0 } { target := 0, message := 0 },
      .mgmt { unit := 0, origin := 0, seq := 0 } { target := 65536, message := 0 }, .relay 4 { target := 0, d := { cont := 0, chunk := 0 } },
      .relayAck 4 0 0 0, .relayAck 0 ((2 ^ 64)) 0 0,
      .relayAck 0 0 65536 0, .relayAck 0 0 0 256,
      .relayResendTimeout ((2 ^ 64)) 0, .relayResendTimeout 0 65536,
      .hist 16, .histAck 16 0,
      .heartbeat { role := 4 }, .mrYield 16 0,
      .mrYield 0 ((2 ^ 32)), .yieldFrame { version := 256 } 0 0,
      .epochData { version := 256 } 0 [], .epochEnd { h := { version := 256 }, m := { epoch := 0, frames := 0 } }] : List Instr).all (fun c => !c.wf) = true := by decide

theorem test_wf_commands_10 :
    ([.mrResync 16 0, .mrResync 0 ((2 ^ 32)),
      .resyncData { version := 256 } {}, .resyncEnd { h := { version := 256 }, m := { epoch := 0, frames := 0 } },
      .mrApprove 16 0, .mrApprove 0 ((2 ^ 32)),
      .mrForget 16 0, .mrForget 0 ((2 ^ 32)),
      .packageFrame { version := 256 } { base := 0, img := {} }, .rsStart 16 0 0,
      .rsStart 0 ((2 ^ 32)) 0, .rsStart 0 0 16,
      .rsStop 16 0 0, .rsStop 0 ((2 ^ 32)) 0,
      .rsStop 0 0 16, .rsClaim 16 0 0,
      .rsClaim 0 ((2 ^ 32)) 0, .rsClaim 0 0 16,
      .rsUnclaim 16 0 0, .rsUnclaim 0 ((2 ^ 32)) 0,
      .rsUnclaim 0 0 16, .rsAck 16 0 0 0,
      .rsAck 0 ((2 ^ 32)) 0 0, .rsAck 0 0 16 0] : List Instr).all (fun c => !c.wf) = true := by decide

theorem test_wf_commands_11 :
    ([.rsMark 16 0 0 0, .rsMark 0 ((2 ^ 32)) 0 0,
      .rsMark 0 0 16 0, .rsCounterLatch 16 0 0,
      .rsCounterLatch 0 ((2 ^ 32)) 0, .rsCounterLatch 0 0 16,
      .gapWrite 16, .peerSilent 16,
      .trFire 16 0 0, .trFire 0 ((2 ^ 32)) 0,
      .trFire 0 0 128, .trEnable 16 0 0 0,
      .trEnable 0 ((2 ^ 32)) 0 0, .trEnable 0 0 128 0,
      .cpArm 16 0 0, .cpArm 0 ((2 ^ 32)) 0,
      .cpArm 0 0 64, .cpDisarm 16 0 0,
      .cpDisarm 0 ((2 ^ 32)) 0, .cpDisarm 0 0 64,
      .cpRelease 16 0 0, .cpRelease 0 ((2 ^ 32)) 0,
      .cpRelease 0 0 64, .cpTrigger 16 0 0] : List Instr).all (fun c => !c.wf) = true := by decide

theorem test_wf_commands_12 :
    ([.cpTrigger 0 ((2 ^ 32)) 0, .cpTrigger 0 0 64,
      .rowAssembly 64 0, .rearmIntervalEnd 64,
      .ss1DelayExpiry 8, .testPulse 4,
      .darkTest 8, .brakeRequestRead 4 false 0,
      .brakeTestEnd 4 0, .brakeTestOverdue 4,
      .connectionTimeout 64, .contData 16 0 { cont := 0, chunk := 0 },
      .contData 0 ((2 ^ 32)) { cont := 0, chunk := 0 }, .contData 0 0 { cont := 0, chunk := 65536 },
      .contData 0 0 { cont := 0, chunk := 0, len := 16357 }, .contStatus 16 0 0 0,
      .contStatus 0 ((2 ^ 32)) 0 0, .contStatus 0 0 5 0,
      .contStatus 0 0 0 ((2 ^ 64)), .contCancel 16 0 0 0,
      .contCancel 0 ((2 ^ 32)) 0 0, .contCancel 0 0 5 0,
      .contCancel 0 0 0 ((2 ^ 64)), .containerVerify ((2 ^ 64)) { payload := .owners [] } {}] : List Instr).all (fun c => !c.wf) = true := by decide

theorem test_wf_commands_13 :
    ([.containerVerify 0 { payload := .owners [] } { links := [8] }, .activate 16 0 {} {},
      .activate 0 ((2 ^ 32)) {} {}, .activate 0 0 { restart := 256 } {},
      .activate 0 0 {} { links := [8] }, .confirm 16 0,
      .confirm 0 ((2 ^ 32)), .getCert 16 0,
      .getCert 0 ((2 ^ 32)), .dbgLock 16 0,
      .dbgLock 0 ((2 ^ 32)), .lintelLinkDown 4,
      .ashLinkUp 8] : List Instr).all (fun c => !c.wf) = true := by decide

/-! ## Helpers of the witnesses

Each `test_wit_<Statement>` shows concrete states and operands that meet the hypotheses of `Obligations.<Statement>`, clause by clause, at
the ends of the ranges. -/

/-- A configuration image of a unit of a pair, with its loops, axes, stream and capture unit at the ends of their ranges. -/
def wImg : Image := { loops := [0, 1023], axes := [0, 191], streams := [15], units := [(63, [])], capMib := 1, pair := { en := true } }

/-- A device in Standby with two open sessions of engineers. -/
def wS : State := { dev := { core := {
  md := { mode := .standby }
  up := { runCfg := some wImg, boot := {} }
  host := { sess := [(0, { st := .open, role := .engineer, ident := 1 }), (15, { st := .open, role := .engineer, ident := 2 })] } } } }

/-- A state with its core changed. -/
def wOn (s : State) (f : Core → Core) : State := { s with dev := { s.dev with core := f s.dev.core } }

/-- In another mode. -/
def wMode (s : State) (m : Mode) : State := wOn s fun c => c.onMd fun x => { x with mode := m }

/-- In Service of session 15. -/
def wSvc (s : State) : State := wOn (wMode s .service) fun c => c.onHost fun h => { h with svcOwner := some 15 }

/-- With another image. -/
def wI (s : State) (i : Image) : State := wOn s fun c => c.onUp fun u => { u with runCfg := some i }

/-! ## Witnesses: steps and ops -/

theorem test_wit_QueueIsFifo : State.reset.pending = [] ∧ step State.reset = .next State.reset := ⟨rfl, rfl⟩

theorem test_wit_LockedIslandDrivesNothing : State.reset.dev.isl.safe ∧ State.reset.dev.isl.locked = true ∧
    step State.reset = .next State.reset := by
  refine ⟨?_, rfl, rfl⟩; unfold Island.safe Island.safeOff; decide +kernel

/-- A tile whose predicate 15 holds, with −1, the most negative word and, in words 16380 and 16382, −1 and 5. -/
def wT : State := wOn wS fun c => c.onTile 15 fun x =>
  { (((x.setWord 0 0xFFFFFFFF).setWord 1 0x80000000).setWord 16380 0xFFFFFFFF).setWord 16382 5 with preds := 0x8000 }

/-- Whether tile 15 of a state runs an op word, for each opcode of a list. -/
def wOps (s : State) (l : List Nat) (o : OpWord) : Bool := (s.dev.core.tile 15).condMet o && l.all fun k => opOk k o

theorem test_wit_ops : wOps wT [0x01, 0x02, 0x03, 0x04, 0x08, 0x09, 0x0A, 0x0E, 0x0F, 0x80, 0x81, 0x82, 0x05, 0x06, 0x07, 0x00, 0x10, 0x11, 0x12, 0x13, 0x14,
      0x15, 0x83] { cond := 1, pred := 15, dst := 16383, a := 16383, b := 1, imm := 255 } = true ∧
    wOps wT [0x0B, 0x0C, 0x0D, 0x28, 0x29, 0x2A, 0x87, 0x88, 0x89, 0x8A, 0x86, 0x84, 0x85, 0x66, 0x67] { a := 14, imm := 15 } = true ∧
    wOps wT [0x84, 0x85, 0x86] { cond := 2, pred := 14, a := 16383, imm := 31 } = true ∧
    wOps wT [0x20, 0x21, 0x22, 0x23, 0x24, 0x25, 0x26, 0x27, 0x2B] { dst := 16382, a := 16382, b := 16382 } = true ∧
    wOps wT [0x60, 0x61, 0x62, 0x63, 0x64, 0x65, 0x68, 0x69, 0x6A, 0x6B, 0x6C] { dst := 16383, a := 16383, b := 16383 } = true := by decide +kernel

theorem test_wit_CondNotMetDoesNothing : ∀ p ∈ allOps, opOk p.1 { cond := 2, pred := 15 } = !(p.1 == 0xD3) ∧
    (wT.dev.core.tile 15).condMet { cond := 2, pred := 15 } = false ∧ opOk 0xD3 { cond := 2, pred := 15, addr := 0x0800 } = true := by decide +kernel

theorem test_wit_IllFormedOpsAreRefused : ∀ p ∈ allOps, opOk p.1 { cond := 3, pred := 15 } = false := by decide +kernel

theorem test_wit_VectorOps : wOps wT [0x40, 0x41, 0x42] { dst := 16254, a := 16254, b := 16256, imm := 255 } = true ∧
    (16254 + 255 / 2 < 16384 ∧ 16256 + 255 / 2 < 16384) ∧ wOps wT [0x43] { a := 16382, dst := 16383, imm := 255 } = true ∧
    ∀ k, k ≤ 256 → fits40 ((wT.dev.core.tile 15).acc 16254 +
      ((List.range k).map fun i => (wT.dev.core.tile 15).q15 16254 i * (wT.dev.core.tile 15).q15 16256 i).sum) = true := by decide +kernel

theorem test_wit_TimersAndEdges : wOps wT [0xA0, 0xA1, 0xA2, 0xA3, 0xA4] { dst := 16381, a := 16382, b := 0, imm := 15 } = true ∧
    16381 + 2 < 16384 ∧ 16382 + 1 < 16384 := by decide +kernel

theorem test_wit_TarnAndTagOps : wOps wT [0xB0, 0xB1] { dst := 16382, a := 16382, addr := 20971512 } = true ∧
    wOps wT [0xB2, 0xB3, 0xB4] { dst := 16382, a := 16382, addr := 0xFFFFFFFF } = true := by decide +kernel

/-- A module with data, the last frame of which is fresh. -/
def wM : State := wOn wT fun c => c.onMod 5 fun x => { x with hasData := true, act := { bytes := [7, 255], time := 9, seq := 65535 } }

theorem test_wit_CommitOps : wOps wM [0xC1] { a := 16383, addr := 0xFFFFFFFF } = true ∧ wOps wM [0xC2] { a := 16383, addr := 0x203FF } = true ∧
    wOps wM [0xC3] { a := 16381, addr := 191, aux := 4 } = true ∧ 16381 + 2 < 16384 ∧ wOps wM [0xC0] { addr := 5, aux := 20971504 } = true ∧
    (wM.dev.core.mod 5).act.seq < 65536 ∧ wM.dev.core.prog.forcesNow = [] ∧ wM.dev.core.prog.tagNow = [] ∧
    ∀ b ∈ (wM.dev.core.mod 5).act.bytes, b < 256 := by decide +kernel

/-- An image with two items at priority 7, open to the host. -/
def wImgQ : Image := { wImg with
  items := [{ stableId := 1, code := 0, tileMask := 0xFFFF, paramAddr := 16, priority := 7, hostOk := true },
    { stableId := 2, code := 0, tileMask := 0xFFFF, paramAddr := 64, priority := 7, hostOk := true }]
  codes := [{ tileMask := 0xFFFF, opCount := 0, budget := 1000, outWords := 2, bufBase := 4 }] }

/-- Item 0 idle, item 1 waiting, and a tile on which an item runs. -/
def wQ : State := wOn (wI wT wImgQ) fun c => (c.onItem 1 fun x => { x with phase := .waiting, rel := 999 }).onTile 14 fun x =>
  { x with run := some { item := 65535, started := 0 } }

theorem test_wit_QueueOpsAndEvents : wOps wQ [0xD0, 0xD2] { a := 16380, addr := 0 } = true ∧ wOps wQ [0xD1] { addr := 1 } = true ∧
    wOps wQ [0xD3] { addr := 0x0800 } = true ∧ wOps wQ [0xD3] { addr := 0x087F } = true ∧ 16380 + 3 < 16384 ∧ (wQ.dev.core.tile 15).run = none ∧
    ((wQ.dev.core.tile 14).run.isSome && (wQ.dev.core.tile 14).condMet { a := 16380, addr := 0x0800 } &&
      [0xD0, 0xD1, 0xD2, 0xD3].all fun k => opOk k { a := 16380, addr := 0x0800 }) = true ∧
    wQ.dev.core.NoSlack ∧ (wQ.dev.core.item 0).phase = .idle ∧ wQ.dev.core.room_ (wQ.dev.core.itemPrio 0) = true ∧
    (wQ.dev.core.item 1).phase = .waiting ∧ ((wQ.dev.core.tile 15).word 16382).toNat ≤ 999999999 ∧
    wQ.dev.core.now ≤ (((wQ.dev.core.tile 15).word 16380).toNat + ((wQ.dev.core.tile 15).word 16381).toNat * 2 ^ 32) * second +
      ns ((wQ.dev.core.tile 15).word 16382).toNat := by unfold Core.NoSlack; decide +kernel

/-! ## Witnesses: requests -/

theorem test_wit_LoopModeRequests : wS.dev.core.MayWrite 15 9 ∧ 1023 < 1024 ∧ wS.dev.core.image.loops.contains 1023 = true := by
  unfold Core.MayWrite Core.Asks; decide +kernel

/-- In Service, with loop 1023 set up for an injection of 1 s and loop 0 with one that runs. -/
def wL : State := wOn (wSvc wS) fun c => ((c.setReg (lpA A.INJ_CFG 1023) 0x40000000).setReg (lpA A.INJ_DUR 1023) 1000).onInj 0
  (fun x => { x with running := true }) |>.onLoop 1023 fun x => { x with mode := .closed }

theorem test_wit_LearningAndInjectionRequests : wL.dev.core.MayWrite 15 9 ∧ wL.dev.core.image.loops.contains 1023 = true ∧
    wL.dev.core.image.loops.contains 0 = true ∧ ((wL.dev.core.loop 1023).mode ≠ .closed ∨ (wL.dev.core.loop 1023).lrn.w = 0) ∧
    wL.dev.core.md.mode = .service ∧ wL.dev.core.host.svcOwner = some 15 ∧ wL.dev.core.injRefusal 1023 = none ∧
    ((wL.dev.core.loop 0).inj.running = true ∨ (wL.dev.core.loop 0).inj.waiting = true) := by
  unfold Core.MayWrite Core.Asks; decide +kernel

theorem test_wit_AxisCommandRequests : (wSvc wS).dev.core.MayWrite 15 9 ∧ 191 < 192 ∧ (wSvc wS).dev.core.image.axes.contains 191 = true ∧
    (wSvc wS).dev.core.md.mode = .service ∧ (wSvc wS).dev.core.host.svcOwner = some 15 ∧
    ((wSvc wS).dev.core.axis 191).st = .standstill := by unfold Core.MayWrite Core.Asks; decide +kernel

/-- In Service, with axis 191 enabled for a homing method and axis 0 homing. -/
def wH (m : Nat) : State := wOn (wSvc wS) fun c => ((c.setFld (A.AX_HOME_CFG + 0x200 * 191) 3 0 m).setReg (axA A.AX_IO_CFG 191) 0x40000000).onAxis 0
  fun x => { x with st := .homing }

theorem test_wit_HomingRequests : (wH 1).dev.core.MayWrite 15 9 ∧ (wH 1).dev.core.image.axes.contains 191 = true ∧
    (wH 1).dev.core.homeStatus 191 = 0 ∧ (wH 1).dev.core.homeMethod 191 = 1 ∧ (wH 8).dev.core.MayWrite 15 9 ∧
    (wH 8).dev.core.homeStatus 191 = 0 ∧ (wH 8).dev.core.homeMethod 191 = 8 ∧ (wH 1).dev.core.image.axes.contains 0 = true ∧
    ((wH 1).dev.core.axis 0).st = .homing ∧ ((wH 1).dev.core.axis 0).stopRank = 0 := by unfold Core.MayWrite Core.Asks; decide +kernel

/-- A timed output within the limits, and one outside. -/
def wTo : State := wOn (wI wS { wImg with placed := [{ addr := A.PB_TOUT_CTL, value := 0 }, { addr := A.PB_TOUT_CTL + 0x20 * 15, value := 0 }] })
  fun c => (c.setReg (A.PB_TOUT_WIDTH_NS + 0x20 * 15) 100).setReg (A.PB_TOUT_PERIOD_NS + 0x20 * 15) 1000

theorem test_wit_PlumbRequests : wTo.dev.core.MayWrite 15 9 ∧ wTo.dev.core.anySlave = false ∧ (999999999 : Word).toNat ≤ 999999999 ∧
    (wTo.dev.core.session 15).role = .engineer ∧ wTo.dev.core.toutOn 15 = true ∧ (wTo.dev.core.tout 15).st = .idle ∧
    wTo.dev.core.toutOk 15 = true ∧ wTo.dev.core.toutOn 0 = true ∧ (wTo.dev.core.tout 0).st = .idle ∧ wTo.dev.core.toutOk 0 = false := by
  unfold Core.MayWrite Core.Asks; decide +kernel

/-- In Run, with item 0 idle or ready and item 1 waiting. -/
def wQr (p : ItemPhase) : State := wOn (wMode wQ .run) fun c => (c.onItem 0 fun x => { x with phase := p }).onPlumb fun b =>
  { b with now := 5 * second }

/-- The release registers of session 15 at 6 s and 999,999,999 ns. -/
def wSel (s : State) : State := wOn s fun c => c.onSession 15 fun x => { x with sel := [(A.WQ_REL_SEC, 6), (A.WQ_REL_NS, 999999999)] }

theorem test_wit_QueueRequests : (wSel (wQr .idle)).dev.core.MayWrite 15 9 ∧ (wSel (wQr .idle)).dev.core.running = true ∧
    (wSel (wQr .idle)).dev.core.NoSlack ∧ ((wSel (wQr .idle)).dev.core.itemDef 0).map (·.hostOk) = some true ∧
    ((wSel (wQr .idle)).dev.core.itemDef 1).map (·.hostOk) = some true ∧ ((wSel (wQr .idle)).dev.core.item 0).phase = .idle ∧
    (wSel (wQr .idle)).dev.core.room_ ((wSel (wQr .idle)).dev.core.itemPrio 0) = true ∧ ((wSel (wQr .idle)).dev.core.item 1).phase = .waiting ∧
    (wSel (wQr .idle)).dev.core.selOf 15 A.WQ_REL_NS ≤ 999999999 ∧
    ∀ c ∈ [(wSel (wQr .idle)).dev.core],
      c.now ≤ (secOf c.now / 2 ^ 32 * 2 ^ 32 + c.selOf 15 A.WQ_REL_SEC) * second + ns (c.selOf 15 A.WQ_REL_NS) := by
  unfold Core.NoSlack Core.MayWrite Core.Asks; decide +kernel

theorem test_wit_QueueRequests_ready : (wQr .ready).dev.core.MayWrite 15 9 ∧ (wQr .ready).dev.core.running = true ∧
    (wQr .ready).dev.core.NoSlack ∧ ((wQr .ready).dev.core.itemDef 0).map (·.hostOk) = some true ∧
    ((wQr .ready).dev.core.item 0).phase = .ready := by
  unfold Core.NoSlack Core.MayWrite Core.Asks; decide +kernel

/-- A point tag that the image lets force, in Service of session 15, forced or not. -/
def wF (l : List Force) : State := wOn (wSvc (wI wS { wImg with tags := [{ tag := 4 * 2 ^ 22 + 5, binding := 0, metadata := 1#64 <<< 52 }] }))
  fun c => (c.setReg A.PG_FORCE_TAG (BitVec.ofNat 32 (4 * 2 ^ 22 + 5))).onProg fun p => { p with forces := l }

theorem test_wit_ForceRequests : (∀ l ∈ [[], [{ tag := 4 * 2 ^ 22 + 5, output := false, value := 3 }]],
    (wF l).dev.core.MayWrite 15 9 ∧ (wF l).dev.core.md.mode = .service ∧ (wF l).dev.core.host.svcOwner = some 15 ∧
      (wF l).dev.core.forceable ((wF l).dev.core.regN A.PG_FORCE_TAG % 2 ^ 25) = true ∧ (wF l).dev.core.prog.forces.length < 1024 ∧
      ((wF l).dev.core.prog.forces.map Force.tag).Nodup) ∧
    ((wF [{ tag := 4 * 2 ^ 22 + 5, output := false, value := 3 }]).dev.core.prog.forces.any fun f => f.tag == 4 * 2 ^ 22 + 5) = true := by
  unfold Core.MayWrite Core.Asks; decide +kernel

/-- A package in a state. -/
def wO (st : OlcState) : State := wOn wS fun c => c.onOlc fun o => { o with st := st }

theorem test_wit_OlcRequests : (∀ s ∈ [wO .ready, wMode (wO .ready) .run, wO .armed, wO .none], s.dev.core.MayWrite 15 9 ∧
      (s.dev.core.session 15).role = .engineer) ∧
    (∀ s ∈ [wO .ready, wMode (wO .ready) .run], (s.dev.core.running = true ∨ s.dev.core.md.mode = .standby) ∧ s.dev.core.prog.olc.st = .ready ∧
      (s.dev.core.pairOn && s.dev.core.mr.role == .active && s.dev.core.mr.partnerKnown && s.dev.core.mr.beat.inSync &&
        !s.dev.core.mr.beat.olcReady) = false) := by unfold Core.MayWrite Core.Asks; decide +kernel

/-- Port 7 carries a line with its link up, and unit 3 has a new neighbour. -/
def wLc : State := wOn wS fun c => ((c.setFld (ashA A.ASH_PORT_CFG 7) 31 28 1).onPort 7 fun x => { x with linkUp := true }).onLnPort 3
  fun x => { x with nb := .new, nbFp := 77, link := true }

theorem test_wit_LineAndChainRequests : wLc.dev.core.MayWrite 15 9 ∧ wLc.dev.core.lineRole 7 = true ∧ wLc.dev.core.md.mode = .standby ∧
    (wLc.dev.core.port 7).linkUp = true ∧ (wMode wLc .run).dev.core.MayWrite 15 9 ∧ (wMode wLc .run).dev.core.md.mode ≠ .standby ∧
    (wLc.dev.core.session 15).role = .engineer ∧ (wLc.dev.core.lnPort 3).nb = .new ∧ (wLc.dev.core.lnPort 3).link = true ∧
    (wLc.dev.core.lnPort 0).link = false := by unfold Core.MayWrite Core.Asks; decide +kernel

/-- A unit of a pair with its pairing state changed. -/
def wP (s : State) (f : Mortar → Mortar) : State := wOn s fun c => c.onMr f

/-- The active unit of a pair whose partner is known and in sync. -/
def wPa : State := wP wS fun m => { m with role := .active, partnerKnown := true, beat := { m.beat with inSync := true }, partnerFp := 5 }

theorem test_wit_PairRequests :
    (∀ s ∈ [wPa, wOn (wMode wPa .run) fun c => c.onProg fun p => { p with released := true }], s.dev.core.MayWrite 15 9 ∧
      (s.dev.core.session 15).role = .engineer ∧ s.dev.core.image.pair.en = true ∧
      s.dev.core.mr.role = .active ∧ s.dev.core.mr.partnerKnown = true ∧ s.dev.core.mr.missRun = 0 ∧ s.dev.core.mr.beat.inSync = true ∧
      s.dev.core.mr.partnerFp ≠ 0 ∧ s.dev.core.mr.partnerFp ≠ s.dev.core.image.pair.fpA ∧ s.dev.core.mr.partnerFp ≠ s.dev.core.image.pair.fpB) ∧
    (∀ s ∈ [wP wS fun m => { m with role := .standby, inSync := true, state := .synced }],
      s.dev.core.MayWrite 15 9 ∧ (s.dev.core.session 15).role = .engineer ∧ s.dev.core.image.pair.en = true ∧ s.dev.core.mr.role = .standby ∧
      s.dev.core.mr.inSync = true ∧ s.dev.core.mr.partnerFp = 0) ∧
    ∀ s ∈ [wP wS fun m => { m with state := .partnerNew }],
      s.dev.core.MayWrite 15 9 ∧ (s.dev.core.session 15).role = .engineer ∧ s.dev.core.image.pair.en = true ∧ s.dev.core.mr.state = .partnerNew := by
  unfold Core.MayWrite Core.Asks; decide +kernel

/-- Stream 15 with a ring of two units that session 15 holds, running or not. -/
def wR (st : StreamState) : State := wOn wS fun c => ((c.setReg (rsA A.RS_CFG 15) 0x40000001).setReg (rsA A.RS_STAGE_QUOTA 15) 32).onStream 15
  fun x => { x with st := st, owner := some 15, headerWritten := true, ring := [5, 6] }

theorem test_wit_StreamRequests : (∀ s ∈ [wR .running, wR .stopped, wS], s.dev.core.MayWrite 15 9 ∧ s.dev.core.image.streams.contains 15 = true ∧
      ((s.dev.core.stream 15).owner = none ∨ (s.dev.core.stream 15).owner = some 15)) ∧
    ((wR .running).dev.core.stream 15).st = .running ∧ ((wR .stopped).dev.core.stream 15).st ≠ .running ∧
    ∀ c ∈ [(wR .running).dev.core], ∀ x ∈ [c.stream 15],
      x.owner = some 15 ∧ c.rsDest 15 ≠ 0 ∧ c.rsDest 15 ≠ 2 ∧ 0 < (2 : Word).toNat ∧ (2 : Word).toNat ≤ x.ring.length ∧
      x.loss = none ∧ x.headerWritten = true ∧ c.now / 65536 + 2 ^ 31 ≥ x.segBase * 1000000000 ∧
      x.staged + 32 ≤ c.regN (rsA A.RS_STAGE_QUOTA 15) ∧ x.ring.length + 2 ≤ c.rsSize 15 := by
  unfold Core.MayWrite Core.Asks; decide +kernel

/-- Trigger 127 is a software trigger that runs. -/
def wTr : State := wOn (wI wS { wImg with triggers := [127] }) fun c =>
  (c.setFld (A.TR_CTL + 0x20 * 127) 0 0 1).setFld (A.TR_CFG + 0x40 * 127) 31 28 5

theorem test_wit_TriggerRequests : wTr.dev.core.MayWrite 15 9 ∧ wTr.dev.core.trigKind 127 = 5 ∧ wTr.dev.core.trigRuns 127 = true ∧
    ∀ y, y < 128 → wTr.dev.core.trigKind y ≠ 7 ∧ wTr.dev.core.trigKind y ≠ 8 := by unfold Core.MayWrite Core.Asks; decide +kernel

/-- Capture unit 63 with a basin, in a state with a capture. -/
def wC (st : CapState) (b : Option Basin) : State := wOn wTr fun c => (((c.setReg (cpA A.CP_BASIN 63) 0x08000010).setReg (cpA A.CP_TRIGGER 63) 127).setReg
  (cpA A.CP_POST_ROWS 63) 5).onUnit 63 fun x => { x with st := st, cur := b }

theorem test_wit_CaptureRequests : (∀ s ∈ [wC .idle none, wS, wC .armed (some { slot := 0 }), wC .triggered (some { slot := 0 }), wC .hold none],
      s.dev.core.MayWrite 15 9 ∧ s.dev.core.unitDeclared 63 = true) ∧
    (wC .idle none).dev.core.armRefuse 63 = none ∧ (wC .armed (some { slot := 0 })).dev.core.armRefuse 63 ≠ none ∧
    ((wC .armed (some { slot := 0 })).dev.core.unit 63).st = .armed ∧
    ((wC .armed (some { slot := 0 })).dev.core.unit 63).tFirst ≤ (wC .armed (some { slot := 0 })).dev.core.now ∧
    ((wC .triggered (some { slot := 0 })).dev.core.unit 63).st = .triggered ∧
    ((wC .triggered (some { slot := 0 })).dev.core.unit 63).cur = some { slot := 0 } ∧ ((wC .hold none).dev.core.unit 63).st = .hold ∧
    ((wC .hold none).dev.core.unit 63).held = [] := by unfold Core.MayWrite Core.Asks; decide +kernel

theorem test_wit_ExpertAndDebugRequests : wS.dev.core.MayWrite 15 9 ∧ (wS.dev.core.session 15).role = .engineer ∧ 13 < 16 ∧ 15 < 16 ∧
    (wOn wS fun c => c.onUp fun u => { u with dbgLevel := 1 }).dev.core.MayWrite 15 9 ∧
    (wOn wS fun c => c.onUp fun u => { u with dbgLevel := 1 }).dev.core.up.dbgLevel ≠ 0 := by unfold Core.MayWrite Core.Asks; decide +kernel

/-! ## Witnesses: host access -/

theorem test_wit_SessionRequests : (∀ s ∈ [wS, wSvc wS], s.dev.core.Asks 15 9 .observe ∧ s.dev.core.Asks 15 9 .engineer ∧ s.dev.core.up.dbgLevel ≠ 2 ∧
      s.dev.core.host.subs.length < 64 ∧ (s.dev.core.host.subs.filter fun k => k.sess == 15).length < 16) ∧
    (∀ x ∈ [({ kind := 1, minBand := 2 } : SubReq)], x.kind = 1 ∧ x.addrs = [] ∧ x.minBand ≤ 2) ∧
    ∀ x ∈ [({ kind := 2, addrs := [0x10000000, A.HA_RX_DROP], periodK := 6 } : SubReq), { kind := 2, addrs := List.replicate 64 0x10000004, periodK := 16 }],
      x.kind = 2 ∧ x.addrs ≠ [] ∧ x.addrs.length ≤ 64 ∧ 6 ≤ x.periodK ∧ x.periodK ≤ 16 ∧
        ∀ a ∈ x.addrs, a % 4 = 0 ∧ (inTagWindow a = true ∨ (regAt a).isSome = true) := by unfold Core.Asks; decide +kernel

/-- The first and the last tag assigned, and a stamp in timing input 31. -/
def wRd : State := wOn (wI wS { wImg with placed := [{ addr := A.PB_TIN_CTL + 0x10 * 31, value := 0 }] }) fun c =>
  ((c.setMeta 0 (BitVec.ofNat 64 (2 ^ 60 + 2 ^ 53))).setMeta (2 ^ 25 - 1) (BitVec.ofNat 64 (2 ^ 60 + 2 ^ 53))).onTin 31 fun x =>
    { x with fifo := [{ time := 77, rising := true, seq := 9 }] }

theorem test_wit_ReadRequests : wRd.dev.core.Asks 15 9 .observe ∧ (∀ g ∈ [0, 2 ^ 25 - 1], g < 2 ^ 25 ∧ 2 ^ 60 ≤ (wRd.dev.core.metaOf g).toNat) ∧
    0x10000001 % 4 ≠ 0 ∧ wRd.dev.core.image.axes.contains 191 = true ∧ wRd.dev.core.image.streams.contains 15 = true ∧
    wRd.dev.core.tinOn 31 = true ∧ 0 < 1 ∧ ∀ i, i < 1 → 0 + i < 2 ^ 25 ∧ 2 ^ 60 ≤ (wRd.dev.core.metaOf (0 + i)).toNat := by
  unfold Core.Asks; decide +kernel

/-- Two items of a WRITE. -/
def wIt : List WriteItem := [{ addr := A.PG_OLC_SWAP_SEC, value := 0xFF, mask := 0xF }, { addr := A.AX_FE_WINDOW + 0x200 * 191, value := 0xFF }]

theorem test_wit_WriteRequests : (∀ s ∈ [wRd, wMode wRd .run], s.dev.core.MayWrite 15 9 ∧ (s.dev.core.session 15).role = .engineer) ∧ wIt ≠ [] ∧
    wIt.length ≤ 256 ∧ (List.replicate 256 (α := WriteItem) { addr := A.PG_OLC_SWAP_SEC, value := 0 }).length ≤ 256 ∧
    (∀ x ∈ wIt, x.addr = A.PG_OLC_SWAP_SEC ∨ (191 < 192 ∧ wRd.dev.core.image.axes.contains 191 = true ∧ x.addr = A.AX_FE_WINDOW + 0x200 * 191)) ∧
    Nat.testBit 0 0 = false ∧ Nat.testBit 1 0 = true ∧ (wMode wRd .run).dev.core.running = true ∧ 2 ^ 25 - 1 + 1 ≤ 2 ^ 25 ∧
    (∀ i, i < 1 → (wRd.dev.core.metaOf (2 ^ 25 - 1 + i)).getLsbD 53 = true) := by unfold Core.MayWrite Core.Asks; decide +kernel

/-- A held write that is due. -/
def wHw : HeldWrite := { sess := 15, role := .engineer, req := 8, stopOnError := false, items := wIt, due := true }

/-- The same in Run after the commit. -/
def wHd : State := wOn (wMode wRd .run) fun c => (c.onHost fun h => { h with held := [wHw] }).onProg fun p => { p with begun := true, ended := true }

theorem test_wit_WriteRequests_held : wHd.dev.core.running = true ∧ (wHd.dev.core.prog.begun = false ∨ wHd.dev.core.prog.ended = true) ∧
    wHd.dev.core.host.held = [wHw] ∧
    (wHd.dev.core.session 15).st = .open ∧ (wHd.dev.core.session 15).txSeq + 16 ≤ 2 ^ 48 := by decide +kernel

/-- A module that must be present, and is not. -/
def wReq : State := wI wS { wImg with modules := [{ port := 7, slot := 511, required := true }] }

theorem test_wit_ModeRequests : (∀ s ∈ [wPa, wMode wPa .run, wSvc wPa, wReq], s.dev.core.modeTarget = none ∧ s.dev.core.md.faults = [] ∧
      s.dev.core.Asks 15 9 .operate ∧ s.dev.core.Asks 15 9 .engineer ∧ s.dev.core.up.dbgLevel ≠ 2) ∧
    (wMode wPa .run).dev.core.running = true ∧ wPa.dev.core.md.mode = .standby ∧ wPa.dev.core.requiredUp = true ∧
    (!wPa.dev.core.image.pair.en || wPa.dev.core.mr.role == .active) = true ∧ (wSvc wPa).dev.core.md.mode = .service ∧
    wReq.dev.core.requiredUp = false ∧ (wMode wPa .run).dev.core.md.mode = .run ∧ (wSvc wPa).dev.core.host.svcOwner = some 15 ∧
    (wSvc wPa).dev.core.plumb.slewRemain = 0 := by unfold Core.Asks; decide +kernel

theorem test_wit_AbortRequests : (∀ s ∈ [wR .running, wC .armed none, wC .arming none], s.dev.core.Asks 15 9 .operate) ∧
    ((wR .running).dev.core.stream 15).st = .running ∧ (wR .running).dev.core.image.axes.contains 191 = true ∧
    (wC .armed none).dev.core.unitDeclared 63 = true ∧ ((wC .armed none).dev.core.unit 63).st = .armed ∧
    ((wC .arming none).dev.core.unit 63).st = .arming := by unfold Core.Asks; decide +kernel

/-- A value subscription of session 15, with the value sent last. -/
def wSb (ch : Bool) (l : List Word) : Sub :=
  { id := 4, sess := 15, kind := 2, changeOnly := ch, periodK := 6, minBand := 0, blockMask := 0, addrs := [0x10000000], last := l }

/-- The same in Run, at a base cycle in which its period starts. -/
def wSub (m : Mode) (ended : Bool) (ch : Bool) (l : List Word) : State := wOn (wMode wRd m) fun c => (c.onHost fun h =>
  { h with subs := [wSb ch l] }).onProg fun p => { p with begun := true, ended := ended, cycleStart := 64 * tickLen }

theorem test_wit_ValueSubscriptionSamples : (∀ m ∈ [Mode.run, .standby], ∀ e ∈ [true, false], ∀ ch ∈ [true, false], ∀ s ∈ [wSub m e ch [0], wSub m e ch []],
      (s.dev.core.host.subs.find? fun k => k.id == 4 && k.kind == 2).isSome = true ∧ s.dev.core.prog.begun = true ∧ s.dev.core.prog.ended = e ∧
      s.dev.core.running = decide (m = .run) ∧ (s.dev.core.session 15).queue.length < 64 ∧
      (s.dev.core.host.subs.all fun x => x.changeOnly == ch && x.sess == 15 && x.since == 0 && x.sampledAt.isNone &&
        s.dev.core.prog.cycleStart % (2 ^ (max x.periodK s.dev.core.image.schedule.baseK) * tickLen) == 0) = true) ∧
    (∀ s ∈ [wSub .run true true [0]], ∀ x ∈ s.dev.core.host.subs,
      x.last = x.addrs.map fun a => if s.dev.core.readStatus x.sess a = 0 then s.dev.readWord x.sess a else 0) ∧
    (∀ s ∈ [wOn (wSub .run true true [0]) fun c => c.onProg fun p => { p with begun := false }], s.dev.core.running = true ∧
      s.dev.core.prog.begun = false ∧ (s.dev.core.host.subs.find? fun k => k.id == 4 && k.kind == 2).isSome = true) := by decide +kernel

/-- The last fragment of a SESSION_INIT, and of a SESSION_CONFIRM. -/
def wDi (v : Nat) : Dgram := { type := 0x10, viaChain := true, src := 5, version := v, seq := 1, frag := 1, frags := 2, length := 52 }
def wDc : Dgram := { type := 0x12, viaChain := true, src := 5, session := 3, seq := 4, frag := 4, frags := 5, length := 461 }

/-- Host keys of the roles 3 and 1, a handshake on channel 14 and the other fragments of an INIT and of a CONFIRM. -/
def wHs : State := wOn (wI wS { wImg with hostKeys := [{ fp := 9, role := 3 }, { fp := 7, role := 1 }] }) fun c =>
  (c.onSession 14 fun _ => { st := .handshake, role := .engineer, ident := 3, fp := Config.sha3 [77] }).onHost fun h => { h with reasm := [
    { key := hsKey (wDi 1), base := 0, count := 2, have_ := [(0, 1200)], first := 0 },
    { key := hsKey wDc, base := 0, count := 5, have_ := [(3, 1200), (2, 1200), (1, 1200), (0, 1200)], first := 0 }] }

/-- Every channel taken. -/
def wFull : State := wOn wHs fun c => c.onHost fun h => { h with sess := (List.range 16).map fun n => (n, { st := .open }) }

theorem test_wit_HandshakeDatagrams : (∀ m ∈ [({ d := wDi 1, fp := 9, role := 3 } : InitMsg), { d := wDi 1, fp := 7, role := 2 },
      { d := wDi 1, fp := 9, role := 0 }, { d := wDi 1, fp := 8, role := 1 }, { d := wDi 2, fp := 9, role := 1 }], ∀ s ∈ [wHs, wFull], s.dev.core.md.held = false ∧
        s.dev.core.Takes 0x10 m.d ∧ s.dev.core.elsewhere m.d.target = false ∧ (s.dev.core.assemble (hsKey m.d) m.d m.d.length).2 = some 1252 ∧
        (if s.dev.core.host.hsSecond.1 = s.dev.core.second_ then s.dev.core.host.hsSecond.2 else 0) < s.dev.core.fld A.HA_RATE_CTL 23 16) ∧
    wHs.dev.core.keyRole 9 = 3 ∧ wHs.dev.core.keyRole 7 = 1 ∧ wHs.dev.core.keyRole 8 = 0 ∧
    (wHs.dev.core.session 1).st = .free ∧ (∀ k, k < 1 → (wHs.dev.core.session k).st ≠ .free) ∧
    (∀ n, n < 16 → (wFull.dev.core.session n).st ≠ .free) ∧ (wHs.dev.core.session 15).st = .open := by unfold Core.Takes; decide +kernel

theorem test_wit_HandshakeDatagrams_confirm : (∀ ok ∈ [true, false], ∀ m ∈ [({ d := wDc, chan := 14, hostKey := 77, sigOk := ok } : ConfirmMsg)],
      wHs.dev.core.md.held = false ∧ wHs.dev.core.Takes 0x12 m.d ∧ wHs.dev.core.elsewhere m.d.target = false ∧ m.chan < 16 ∧
      (wHs.dev.core.assemble (hsKey m.d) m.d m.d.length).2 = some 5261 ∧
      (wHs.dev.core.session m.chan).st = .handshake ∧ (wHs.dev.core.session m.chan).ident = m.d.session ∧
      wHs.dev.core.plumb.elapsed ≤ (wHs.dev.core.session m.chan).hsStart + 2 * second ∧ m.chan ∉ wHs.dev.core.host.subs.map Sub.sess) ∧
    (wHs.dev.core.session 14).fp = Config.sha3 [77] := ⟨by unfold Core.Takes; decide +kernel, rfl⟩

/-- A message of which a fragment waits, the link-local address being the only one of the device. -/
def wRe : State := wOn wS fun c => c.onHost fun h => { h with reasm := [{ key := 15, base := 4, count := 2, have_ := [(0, 1184)], first := 0 }] }

theorem test_wit_DiscoveryAndDatagrams : wRe.dev.core.md.held = false ∧
    (∀ d ∈ [({ type := 1, viaChain := true } : Dgram), { type := 1, viaChain := true, target := 0xFFFF, src := 7 }], wRe.dev.core.Takes 0x01 d ∧
      wRe.dev.core.elsewhere d.target = false ∧ d.target ≠ 0xFFFE) ∧
    (∀ d ∈ [({ type := 1, viaChain := true, magic := 0 } : Dgram), { type := 2, viaChain := true }, { type := 1, viaChain := true, length := 1201 }],
      (wRe.dev.core.netIn d).2 = true ∧ headerOk 0x01 d = false) ∧
    (∀ u ∈ [NetUse.arp, NetUse.ndp, NetUse.echo], ∀ d ∈ [({ type := 0, net := { use := u } } : Dgram)], d.viaChain = false ∧ d.net.fragment = false ∧
      wRe.dev.core.vlanOk d.net = true ∧ wRe.dev.core.ours d.net = true ∧ d.net.use = u) ∧
    wRe.dev.core.fld A.HA_RATE_CTL 7 0 ≠ 0 ∧
    (∀ r ∈ wRe.dev.core.host.reasm, r.key = 15) ∧ wRe.dev.core.host.reasm ≠ [] := by unfold Core.Takes; decide +kernel

theorem test_wit_DiscoveryAndDatagrams_secure :
    (∀ a ∈ [true, false], ∀ m ∈ [({ d := { type := 0x20, viaChain := true, session := 2, seq := 62, length := 28 }, chan := 15, authentic := a } : SecureMsg)],
      wRe.dev.core.Takes 0x20 m.d ∧ wRe.dev.core.elsewhere m.d.target = false ∧ (wRe.dev.core.session m.chan).st = .open ∧
      (wRe.dev.core.session m.chan).ident = m.d.session ∧ (wRe.dev.core.session m.chan).fresh m.d.seq = true ∧ 16 ≤ m.d.length ∧
      max (wRe.dev.core.session m.chan).seqNext (m.d.seq + 1) < 2 ^ 48 ∧ m.d.frags = 1 ∧ hostOp m.op = true ∧ bodyFits m.op m.bodyLen m.count = true ∧
      m.d.length = 28 + m.bodyLen ∧ ((wRe.dev.core.session m.chan).cache.any fun e => e.1 == m.req) = false) := by unfold Core.Takes; decide +kernel

theorem test_wit_DiscoveryAndDatagrams_fragment :
    (wRe.dev.core.session 15).waiting < 64 ∧ 64 ≤ ((wOn wRe fun c => c.onSession 15 fun x => { x with waiting := 64 }).dev.core.session 15).waiting ∧
    (∀ m ∈ [({ d := { type := 0x20, viaChain := true, session := 2, seq := 13, frag := 13, frags := 14, length := 1200 }, chan := 15 } : SecureMsg)],
      wRe.dev.core.Takes 0x20 m.d ∧ (wRe.dev.core.session m.chan).fresh m.d.seq = true ∧ 16 ≤ m.d.length ∧ 1 < m.d.frags ∧
      ∀ r ∈ wRe.dev.core.host.reasm, ¬ (r.key = m.chan ∧ r.base = m.d.seq - m.d.frag)) := by unfold Core.Takes; decide +kernel

/-! ## Witnesses: start, power and cycle -/

/-- A configuration image that the check takes, without pairing and without a safety reference. -/
def wImg2 : Image := { schedule := { baseK := 2, latchEnd := 5000, commitDeadline := 40000, commitEnd := 45000, tiles := [] } }

/-- A device with a set that runs and an image; the boot record of higher SEQ is copy B. -/
def wSt : State := wOn wS fun c => c.onUp fun u =>
  { u with fwA := some { formats := [1] }, cfgA := some wImg2, boot := { u.boot with cfgActive := some false }
           recB := { u.recB with seq := 1, cfgActive := some false } }

/-- The same with its power state, and whether it is held in reset. -/
def wPw (held : Bool) (f : Power → Power) : State := wOn wSt fun c => (c.onPw f).onMd fun m => { m with held := held }

/-- The same with another boot record. -/
def wBr (f : BootRec → BootRec) : State := wOn wSt fun c => c.onUp fun u => { u with recB := f u.recB }

theorem test_wit_StartSequence : ({ ms := 5 } : StartEnv).testEn = false ∧ ({ ms := 5 } : StartEnv).fails = [] ∧
    (∀ s ∈ [wSt, wPw true fun p => { p with uv := true }, wPw true fun p => { p with kaLost := true }, wPw true fun p => { p with hold := true }],
      ∀ b ∈ [s.dev.core.up.recB], s.dev.core.up.bootPick { ms := 5 } = some b ∧ b.trial = false ∧ b.reqRecovery = false ∧ b.startFails < 3 ∧
        b.cfgActive = some false ∧ s.dev.core.up.cfgOf false = some wImg2) ∧
    (∀ v ∈ [({ wSt.dev.core.up with boot := wSt.dev.core.up.recB } : Update)], v.startable { ms := 5 } false = true ∧ v.fwOf false = wSt.dev.core.up.fwA) ∧
    wSt.dev.core.pw.kaLost = false ∧ 10000 ≤ 10000 ∧ wSt.dev.core.md.held = false ∧ wSt.dev.core.md.mode ≠ .configure ∧
    (∀ s ∈ [wPw true fun p => { p with uv := true }], s.dev.core.pw.uv = true ∧ s.dev.core.pw.kaLost = false ∧ s.dev.core.pw.on = true ∧
      s.dev.core.pw.hold = false) := by decide +kernel

theorem test_wit_StartSequence_kinds :
    (∀ s ∈ [wPw true fun p => { p with kaLost := true }], s.dev.core.pw.kaLost = true ∧ s.dev.core.pw.on = true) ∧
    (∀ s ∈ [wPw true fun p => { p with hold := true }], s.dev.core.pw.hold = true ∧ s.dev.core.pw.kaLost = false ∧ s.dev.core.pw.on = true) ∧
    (wSt.dev.core.Asks 15 9 .engineer ∧ wSt.dev.core.md.mode = .standby ∧ wSt.dev.core.modeTarget = none ∧ wSt.dev.core.md.faults = []) ∧
    ({ ms := 5 } : StartEnv).cfgAOk = true ∧ firmwareOk ((wSt.dev.core.up.fwOf false).getD {}) = true ∧
    ((wSt.dev.core.up.fwOf false).getD {}).formats.contains wImg2.format = true ∧ wImg2.safetyRef = 0 ∧ wImg2.pair.en = false ∧
    ({ testEn := true } : StartEnv).testEn = true ∧ (wPw true fun p => { p with testHold := true }).dev.core.pw.testHold = true := by
  unfold Core.Asks; decide +kernel

theorem test_wit_StartSequence_other : (∀ s ∈ [wBr fun b => { b with reqRecovery := true }, wS, wBr fun b => { b with startFails := 3, lastFail := 2 },
      wBr fun b => { b with cfgActive := none }, wOn wSt fun c => c.onUp fun u => { u with fwA := some { sigOk := false } }],
      (∀ b ∈ s.dev.core.up.bootPick { ms := 5 }, b.trial = false) ∧ s.dev.core.pw.kaLost = false) ∧
    (wBr fun b => { b with reqRecovery := true }).dev.core.up.recB.reqRecovery = true ∧
    ({ ms := 5, recovery := true } : StartEnv).recovery = true ∧ wS.dev.core.up.bootPick { recAOk := false, recBOk := false } = none ∧
    wS.dev.core.up.startable { ms := 5 } false = false ∧ wS.dev.core.up.startable { ms := 5 } true = false ∧
    firmwareOk { sigOk := false } = false := by decide +kernel

theorem test_wit_HoldsInReset : wSt.dev.core.Asks 15 9 .engineer ∧ wSt.dev.core.md.mode = .standby ∧ wSt.dev.core.modeTarget = none ∧
    wSt.dev.core.md.faults = [] ∧ wSt.dev.core.pw.hold = false ∧
    2000 ≤ (junction ((List.range 8).map fun n => [2000].getD n (wSt.dev.core.pw.temps.getD n 0))).1 ∧
    (wPw false fun p => { p with below := 1 }).dev.core.md.held = false ∧ (wPw false fun p => { p with below := 1 }).dev.core.pw.below = 1 ∧
    611 < 612 := by unfold Core.Asks; decide +kernel

/-- A power-fail warning enabled with a record in staging. -/
def wPf (pfw : Bool) : State := wOn wSt fun c => (c.setFld A.PG_PFW_CTL 8 8 1).onJr fun j =>
  { j with staging := [(0, some 5)], pfw := pfw, finalPending := pfw }

theorem test_wit_PowerEvents : (∀ b : Bool, (if b then wSt.dev.core.pw.vkaB else wSt.dev.core.pw.vkaA) ≠ false) ∧
    (∀ b : Bool, (if b then (wI wSt wImg2).dev.core.pw.feedB else (wI wSt wImg2).dev.core.pw.feedA) ≠ false) ∧
    (wI wSt wImg2).dev.core.image.pair.en = false ∧ wSt.dev.core.md.held = false ∧
    ((wPf false).dev.core.flag A.PG_PFW_CTL 8 = true ∧ (wPf false).dev.core.prog.jr.pfw = false ∧ (wPf false).dev.core.prog.jr.writeFail = false) ∧
    (wPf true).dev.core.prog.jr.pfw = true ∧ (wPf true).dev.core.prog.jr.finalPending = true ∧
    (∀ j ∈ [((wPf true).dev.core.onJr fun j => { j with pfw := false }).prog.jr], j.pfw = false ∧ j.finalPending = true ∧ j.writeFail = false) ∧
    wSt.dev.core.pw.kaLost = false := by
  decide +kernel

theorem test_wit_PaceAndTemperature : (∀ mv ∈ [611, 620, 680, 691, 706], (wSt.dev.core.pw.below ≠ 1 ∨ 620 ≤ mv)) ∧ wSt.dev.core.pw.below ≠ 1 ∧
    wSt.dev.core.reqLimit = 0 ∧ wSt.dev.core.pw.ep07 = false ∧ wSt.dev.core.md.held = false ∧
    (∀ t ∈ ([[1999], [1840], [1681], [(16 * wSt.dev.core.regN A.PW_TEMP_WARN : Int)]] : List (List Int)),
      (junction ((List.range 8).map fun n => t.getD n (wSt.dev.core.pw.temps.getD n 0))).1 < 2000 ∧
        16 * (wSt.dev.core.regN A.PW_TEMP_WARN : Int) ≤ (junction ((List.range 8).map fun n => t.getD n (wSt.dev.core.pw.temps.getD n 0))).1) ∧
    wSt.dev.core.pw.ep05 = none ∧ wSt.dev.core.pw.ep41 = false ∧ wSt.dev.core.pw.ep81 = false ∧
    1680 < (1681 : Int) ∧ 1840 ≤ (1840 : Int) ∧ (1839 : Int) < 1840 := by decide +kernel

/-- In a mode, at the end of a cycle, with a request of session 15 waiting or none. -/
def wCy (m : Mode) (r : Option Mode) : State := wOn (wMode (wI wS wImg2) m) fun c => (c.onMd fun x =>
  { x with req := r.map fun q => (q, 15) }).onProg fun p => { p with begun := true, ended := true }

theorem test_wit_BaseCycleStart : (∀ s ∈ [wCy .standby none, wCy .run none, wCy .standby (some .run), wCy .run (some .standby), wCy .service (some .standby),
      wCy .run (some .service)], s.dev.core.md.held = false ∧ s.dev.core.prog.ended = true ∧
        (∀ k, k < 16 → (s.dev.core.tile k).win = none) ∧ s.dev.core.prog.olc.st ≠ .armed ∧ s.dev.core.prog.olc.st ≠ .swapping ∧
        s.dev.core.mr.toPending = none ∧ s.dev.core.md.faults = [] ∧ s.dev.core.md.svcEnd = false ∧ s.dev.core.md.autoRun = false ∧
        s.dev.core.md.abortAfter = false) ∧
    ((wCy .standby none).dev.core.md.mode = .standby ∧ (wCy .standby none).dev.core.md.req = none) ∧
    ((wCy .run none).dev.core.running = true ∧ (wCy .run none).dev.core.md.req = none ∧ (wCy .run none).dev.core.prog.skipNext = false ∧
      (wCy .run none).dev.core.prog.skipping = false ∧
      (wOn (wCy .run none) fun c => c.onProg fun p => { p with skipNext := true }).dev.core.prog.skipNext = true) ∧
    ((wCy .standby (some .run)).dev.core.md.req = some (.run, 15) ∧ (wCy .standby (some .run)).dev.core.requiredUp = true ∧
      (wCy .standby (some .run)).dev.core.image.pair.en = false) ∧
    ((wCy .run (some .standby)).dev.core.running = true ∧ (wCy .run (some .standby)).dev.core.md.req = some (.standby, 15)) ∧
    (wCy .run (some .service)).dev.core.md.req = some (.service, 15) ∧ ((wCy .run (some .service)).dev.core.session 15).st = .open := by
  decide +kernel

/-- An image with a LATCH and a SLACK window on tile 15. -/
def wImgW : Image := { wImg2 with schedule := { wImg2.schedule with tiles := List.replicate 15 [] ++
  [[{ kind := 0, start := 100, len := 1000, wc := 900, opFirst := 0, opCount := 0 }, { kind := 4, start := 6000, len := 1000, wc := 900, opFirst := 0, opCount := 0 }]] } }

/-- In Run within a cycle, with tile 15 changed. -/
def wW (f : Tile → Tile) : State := wOn (wMode (wI wS wImgW) .run) fun c => (c.onTile 15 f).onProg fun p =>
  { p with begun := true, ended := false, phase := .latch, cycle := 1 }

/-- The LATCH and the SLACK window of tile 15, open. -/
def wWin (n : Nat) : RunWin := if n = 0 then { idx := 0, kind := 0, start := ns 100, len := 1000 } else { idx := 1, kind := 4, start := ns 6000, len := 1000 }

/-- Tile 15 before its LATCH window, before its SLACK window, and with the LATCH window running. -/
def wWs (n : Nat) : State := wW fun x => { x with win := if n = 0 then none else some { wWin 0 with complete := n == 1 } }

theorem test_wit_WindowsAndCommit_start : (∀ n ∈ [0, 1, 2], (wWs n).dev.core.cycling = true ∧
      (((wWs n).dev.core.windows 15)[((wWs n).dev.core.tile 15).nextIdx]?).map (fun w => (decide (w.kind = 4),
        decide (max (wWs n).dev.core.now ((wWs n).dev.core.prog.cycleStart + ns w.start) < (wWs n).dev.core.prog.winBase + ns w.start + ns w.len))) =
          some (n != 0, true)) ∧
    (∀ n ∈ [0, 1], ((wWs n).dev.core.tile 15).free = true ∧ ((wWs n).dev.core.tile 15).waitWins = []) ∧
    ((wWs 2).dev.core.tile 15).free = false := by decide +kernel

theorem test_wit_WindowsAndCommit : (∀ x ∈ [(wW fun x => { x with win := some (wWin 0) }).dev.core.tile 15],
      x.win = some (wWin 0) ∧ x.waitWins = []) ∧ (wWin 0).complete = false ∧ (wWin 0).kind ≠ 4 ∧ (wWin 0).late = false ∧ (wWin 1).complete = false ∧
    (wWin 1).kind = 4 ∧ (∀ x ∈ [(wW fun x => { x with win := some (wWin 1), slackEnd := some 9 }).dev.core.tile 15],
      x.win = some (wWin 1) ∧ x.slackEnd ≠ none ∧ x.run = none ∧ x.waitWins = []) ∧
    (∀ x ∈ [(wW fun x => { x with win := some (wWin 1), run := some { item := 3, started := 0 } }).dev.core.tile 15], x.win = some (wWin 1) ∧
      x.run = some { item := 3, started := 0 }) ∧ ({ item := 3, started := 0 } : RunItem).ovr = false ∧
    (∀ s ∈ [wW fun x => { x with commit := [{ target := .out 0xFFFFFFFF, vals := [7] }] }, wOn (wW id) fun c => c.onProg fun p => { p with overrun := true }],
      s.dev.core.prog.begun = true ∧ s.dev.core.prog.ended = false ∧ s.dev.core.running = true ∧ s.dev.core.prog.phase ≠ .notRunning ∧
      s.dev.core.prog.skipping = false) ∧
    (wOn (wW id) fun c => c.onProg fun p => { p with overrun := true }).dev.core.overran = true ∧
    (∀ s ∈ [wW fun x => { x with commit := [{ target := .out 0xFFFFFFFF, vals := [7] }] }], s.dev.core.overran = false ∧
      s.dev.core.prog.noRelease = false ∧ s.dev.core.image.pair.en = false ∧
      (s.dev.core.tile 15).commit = [{ target := .out 0xFFFFFFFF, vals := [7] }] ∧ (s.dev.core.tile 15).itemCommit = [] ∧
      ∀ j, j < 16 → j ≠ 15 → (s.dev.core.tile j).commit = [] ∧ (s.dev.core.tile j).itemCommit = []) := by decide +kernel

/-! ## Witnesses: loops, program, items, records, axes, clock -/

/-- In Run, with loop 1023 in a mode and no test of its input's age, and loop 0 with an injection whose time is over. -/
def wLu (m : LoopMode) : State := wOn (wMode (wI wS { wImg2 with loops := [0, 1023] }) .run) fun c => (c.setReg (lpA A.LP_STALE_CTL 1023) 0).onLoop 1023
  (fun l => { l with mode := m, sp := 5000, man := 3000, started := true }) |>.onInj 0 fun x => { x with running := true }

theorem test_wit_LoopUpdates : (∀ m ∈ [LoopMode.closed, .manual, .open], ∀ c ∈ [(wLu m).dev.core], c.running = true ∧ c.image.loops.contains 1023 = true ∧
      tickOf (c.now / tickLen * tickLen) % c.loopTicks 1023 = 0 ∧ (c.loop 1023).lastStart = none ∧ c.plumb.stepTo ≤ c.now / tickLen * tickLen ∧ (c.loop 1023).busyUntil = none ∧
      c.outsideCorner = false ∧ (c.loop 1023).modeReq = none ∧ (c.loop 1023).abortReq = false ∧ (c.loop 1023).inj.running = false ∧
      (c.loop 1023).inj.waiting = false ∧ c.rcSrc 1023 = 0 ∧ c.lpFld A.LP_STALE_CTL 1023 31 30 = 0 ∧ (c.loop 1023).mode = m) ∧
    (wOn (wLu .closed) fun c => c.onLoop 1023 fun l => { l with busyUntil := some 0 }).dev.core.now / tickLen * tickLen ≤ 0 ∧
    ((wLu .open).dev.core.loop 0).inj.running = true ∧ ((wLu .open).dev.core.injReason 0).isSome = true := by decide +kernel

/-- In Run after the commit of a cycle, with retained words, and a record in staging or a compaction. -/
def wJ (b : Bool) : State := wOn (wMode (wI wS { wImg2 with retain := [.var 0 8, .loopI 0], loops := [0] }) .run) fun c =>
  (c.onProg fun p => { p with begun := true, ended := true, phase := .housekeeping }).onJr fun j => { j with staging := [(0, some 5)], compacting := b, capacity := 1048576 }

/-- An image with a closed loop, which a package takes away. -/
def wImgC : Image := { wImg2 with loops := [0] }

/-- A package in a state, after the commit of a cycle, on a device with its memories. -/
def wOl (m : Mode) (st : OlcState) (run g : Image) : State := wOn (wMode (wI wS run) m) fun c => (c.onOlc fun o =>
  { o with st := st, pkg := some g, cleared := true }).onProg (fun p => { p with begun := true, ended := true, jr := { p.jr with capacity := 1048576 } })
    |>.onLoop 0 (fun l => { l with mode := .closed }) |>.onMem fun m => { m with dramMib := 1024 }

theorem test_wit_JournalAndChange : ((wJ false).dev.core.captureDue = true ∧ (wJ false).dev.core.regionFull = false ∧ (wJ false).dev.core.image.pair.en = false) ∧
    (∀ b : Bool, (wJ b).dev.core.observing = true ∧ (wJ b).dev.core.prog.jr.writeFail = false ∧ (wJ b).dev.core.prog.jr.finalPending = false ∧
      (wJ b).dev.core.prog.jr.staging ≠ [] ∧ (wJ b).dev.core.prog.jr.compacting = b ∧ (wJ b).dev.core.prog.jr.rebase = none) ∧
    (∀ g ∈ [wImg2, wImg], (wOl .run .loading wImg2 g).dev.core.prog.olc.st = .loading ∧ (wOl .run .loading wImg2 g).dev.core.prog.olc.pkg = some g) ∧
    (wOl .run .loading wImg2 wImg2).dev.core.quiet.olcReason wImg2 = 0 ∧ (wOl .run .loading wImg2 wImg).dev.core.quiet.olcReason wImg ≠ 0 ∧
    (∀ s ∈ [wOl .standby .armed wImg2 wImg2, wOl .run .armed wImg2 wImg2, wOl .standby .armed wImgC wImg2], s.dev.core.prog.olc.st = .armed ∧
      s.dev.core.prog.olc.pkg = some wImg2) ∧
    (wOl .standby .armed wImg2 wImg2).dev.core.olcFits wImg2 = true ∧ (wOl .standby .armed wImgC wImg2).dev.core.olcFits wImg2 = false ∧
    (wOl .run .armed wImg2 wImg2).dev.core.running = true ∧ (wOl .run .armed wImg2 wImg2).dev.core.prog.olc.cleared = true ∧
    (wOl .run .armed wImg2 wImg2).dev.core.prog.ended = true := by decide +kernel

/-- Item 0 runs on tile 15, with an activation kept; item 1 waits, its queue of priority 7 empty. -/
def wIt0 (p : Pending) : State := wOn (wI wS wImgQ) fun c => (c.onTile 15 fun x => { (x.setWord 4 77) with run := some { item := 0, started := 0 }, alloc := [4] }).onItem 0
  (fun x => { x with pend := p, phase := .running }) |>.onItem 1 fun x => { x with phase := .waiting, rel := 999 }

/-- Item 1 ready, held for its tile. -/
def wIt1 : State := wOn (wIt0 .none) fun c => (c.setReg A.WQ_AGE_WARN 5).onItem 1 fun x => { x with phase := .ready, heldFrom := some 3 }

theorem test_wit_ItemEvents : (∀ p ∈ [Pending.none, .ready, .release 99], (wIt0 p).dev.core.NoSlack ∧
      ((wIt0 p).dev.core.tile 15).run = some { item := 0, started := 0 } ∧ (wIt0 p).dev.core.now ≤ 0 + (wIt0 p).dev.core.itemBudget 0 ∧
      ((wIt0 p).dev.core.tile 15).waitWins = [] ∧ ((wIt0 p).dev.core.item 0).pend = p ∧
      (wIt0 p).dev.core.room_ ((wIt0 p).dev.core.itemPrio 0) = true ∧ (wIt0 p).dev.core.now ≤ 99) ∧
    (∀ x ∈ [(wIt0 .none).dev.core.item 1], x.phase = .waiting ∧ x.lateRoom = false) ∧
    (wIt0 .none).dev.core.room_ ((wIt0 .none).dev.core.itemPrio 1) = true ∧
    (∀ s ∈ [wOn (wIt0 .none) fun c => c.setReg (A.WQ_PRIO_LIMIT + 28) 0], s.dev.core.NoSlack ∧ (s.dev.core.item 1).phase = .waiting ∧
      s.dev.core.room_ (s.dev.core.itemPrio 1) = false) ∧
    wIt1.dev.core.NoSlack ∧ ∀ x ∈ [wIt1.dev.core.item 1], x.phase = .ready ∧ x.heldFrom = some 3 ∧ x.holdOver = false ∧ x.aged = false ∧
      wIt1.dev.core.regN A.WQ_AGE_WARN ≠ 0 := by unfold Core.NoSlack; decide +kernel

/-- A stream that lost entries, with room or without, or that goes to a peer with data waiting. -/
def wG (cfg : Word) : State := wOn wS fun c => (c.setReg (rsA A.RS_CFG 15) cfg).onStream 15 fun x =>
  { x with loss := some { count := 1, first := 0, last := 0, causes := 1 }, ring := [5] }

/-- An armed or arming unit, with a quota of staging and a firing that waits. -/
def wRo (st : CapState) (quota : Word) (w : Option (Nat × Time × Nat × Nat)) : State := wOn wS fun c =>
  ((c.setReg (cpA A.CP_BASIN 63) 0x08000010).setReg (cpA A.CP_STAGE_QUOTA 63) quota).onUnit 63 fun x =>
    { x with st := st, cur := some { slot := 0 }, tFirst := 0, waiting := w }

theorem test_wit_RecordsAndRows : (∀ s ∈ [wG 0x40000001, wG 0x40000000, wG 0x80000001], ∀ x ∈ [s.dev.core.stream 15],
      x.loss = some { count := 1, first := 0, last := 0, causes := 1 } ∧ x.segOpen = false ∧ x.ring ≠ [] ∧ x.peerSilent = false) ∧
    ((wG 0x40000001).dev.core.stream 15).ring.length + 2 ≤ (wG 0x40000001).dev.core.rsSize 15 ∧
    (wG 0x40000000).dev.core.rsSize 15 < ((wG 0x40000000).dev.core.stream 15).ring.length + 2 ∧ (wG 0x40000000).dev.core.rsDest 15 ≠ 0 ∧
    (wG 0x80000001).dev.core.rsDest 15 = 2 ∧
    (∀ s ∈ [wRo .armed 0 none, wRo .armed 0xFFFFFFFF none], ∀ x ∈ [s.dev.core.unit 63], x.st = .armed ∧ x.cur = some { slot := 0 } ∧
      x.tFirst ≤ 64 * tickLen ∧ 64 * tickLen % s.dev.core.rowPeriod 63 = 0 ∧ x.spilling = false ∧ x.rowSeen = none ∧ x.passed = (0, 0)) ∧
    (wRo .armed 0xFFFFFFFF none).dev.core.rowBytes 63 ≤ (wRo .armed 0xFFFFFFFF none).dev.core.regN (cpA A.CP_STAGE_QUOTA 63) ∧
    (wRo .armed 0 none).dev.core.regN (cpA A.CP_STAGE_QUOTA 63) < (wRo .armed 0 none).dev.core.rowBytes 63 ∧
    ((wRo .arming 0 none).dev.core.unit 63).st = .arming ∧ ((wRo .arming 0 none).dev.core.unit 63).waiting = none ∧
    ((wRo .arming 0 (some (127, 90, 3, 0))).dev.core.unit 63).st = .arming ∧
    ((wRo .arming 0 (some (127, 90, 3, 0))).dev.core.unit 63).waiting = some (127, 90, 3, 0) := by decide +kernel

/-! ## Witnesses: axes and clock -/

/-- Axes 0 and 191: axis 0 on a velocity plan, axis 191 at rest, with local pins and a jog, a hold delay, or an edge. -/
def wAx : State := wOn (wMode wS .run) fun c => ((c.setReg (axA A.AX_IO_CFG 191) 0x40000000).onMd fun m => { m with fly := SMap.set .none [] 0 .pending }).onAxis 0
  fun x => { x with st := .moving, mode := .velocity, vel := 5, plan := [{ steps := 100, p := 7, v := 1000, a0 := 3, a1 := 3 }] }

theorem test_wit_GeneratorSteps : (0 ∈ wAx.dev.core.axesOn ∧ wAx.dev.core.image.axes.Nodup ∧ wAx.dev.core.axSource 0 ≠ 1 ∧ wAx.dev.core.axDrive 0 = false ∧
      wAx.dev.core.axFld A.AX_CFG 0 4 4 = 0 ∧ wAx.dev.core.regN (axA A.AX_TRACK_LIMIT 0) = 0 ∧ wAx.dev.core.regN (axA A.AX_STALL_TIME 0) = 0) ∧
    (∀ x ∈ [wAx.dev.core.axis 0], x.inbox = [] ∧ x.limp.ignore = false ∧ x.limn.ignore = false ∧ x.st = .moving ∧ x.mode = .velocity ∧ x.planStep + 1 < 100) ∧
    toVel ((({ steps := 100, p := 7, v := 1000, a0 := 3, a1 := 3 } : Seg).at_ 1).2.1) ≠ 0 ∧
    (∀ x ∈ [wS.dev.core.axis 191], x.inbox = [] ∧ x.st = .standstill ∧ x.plan = [] ∧ x.vel = 0 ∧ x.limp.ignore = false ∧ x.limn.ignore = false) ∧
    (191 ∈ wS.dev.core.axesOn ∧ wS.dev.core.axSource 191 ≠ 1 ∧ wS.dev.core.axDrive 191 = false) := by decide +kernel

/-- Axis 191 with its inputs changed. -/
def wAi (f : Axis → Axis) : State := wOn wAx fun c => c.onAxis 191 f

theorem test_wit_AxisInputs : (wAx.dev.core.axSource 191 = 1 ∧ wAx.dev.core.image.axes.contains 191 = true ∧
      ∀ sw ∈ [0, 1, 2, 3], sw < 4 ∧ ((wAx.dev.core.axis 191).sw sw).raw ≠ true) ∧
    (∀ r ∈ [true, false], ∀ x ∈ [(wAi fun x => { x with limp := { x.limp with edge := some 7, raw := r } }).dev.core.axis 191],
      (x.sw 0).edge = some 7 ∧ (x.sw 0).raw = r ∧ (x.sw 0).deb = false ∧ (x.sw 0).ignore = false ∧ x.st ≠ .homing) ∧
    (∀ x ∈ [wAx.dev.core.axis 191], x.encLevels = (false, false) ∧ x.lastEnc = none) ∧
    (∀ x ∈ [(wAi fun x => { x with lastEnc := some 9 }).dev.core.axis 191], x.lastEnc = some 9 ∧ 10 < 9 + ns 40) ∧
    (∀ x ∈ [(wAi fun x => { x with stillFrom := some 4 }).dev.core.axis 191], x.stillFrom = some 4 ∧ x.st = .standstill) ∧
    (∀ x ∈ [(wAi fun x => { x with st := .jogging, jogDir := 1 }).dev.core.axis 191], x.st = .jogging ∧ x.jogDir ≠ 0) ∧
    (SMap.get .none wAx.dev.core.md.fly 0 = .pending ∧ (wAx.dev.core.axis 0).st ≠ .disabled ∧ (wAx.dev.core.axis 0).st ≠ .qstopped ∧
      (wAx.dev.core.axis 0).stopRank = 0) := by decide +kernel

/-- Port 11 as the master port, with its path delay known. -/
def wPl (f : Plumb → Plumb) : State := wOn wS fun c => ((c.setReg A.PB_STEP_LIMIT 1000).setReg (A.PB_PORT_CTL + 0xB0) 2).onPlumb fun b =>
  f { b with masterPort := some 11, now := 1000, elapsed := 5000, ports := [(11, { delay := some 5 })] }

theorem test_wit_SlewCompletes : (∀ s ∈ [wPl fun b => { b with slewing := true }], s.dev.core.plumb.slewing = true ∧ s.dev.core.plumb.slewRemain = 0) ∧
    (wPl id).dev.core.plumb.slewing = false := by decide +kernel

theorem test_wit_HoldoverEntry : (∀ e ∈ [5000, 100 * second], ∀ c ∈ [(wPl fun b => { b with elapsed := e }).dev.core], c.plumb.masterPort = some 11 ∧
      c.plumb.sync ≠ .holdover ∧ decide (c.plumb.lastAnnounce + c.annTimeout 11 * logSeconds (c.logAnnounce 11) ≤ c.plumb.elapsed ∨
        c.plumb.lastSync + 4 * logSeconds (c.logSync 11) ≤ c.plumb.elapsed) = decide (e ≠ 5000)) ∧
    (wPl fun b => { b with sync := .holdover }).dev.core.plumb.sync = .holdover := by decide +kernel

theorem test_wit_ClockEvents_sync : (∀ s ∈ [wPl id, wMode (wPl id) .run, wPl fun b => { b with ports := [(11, {})] },
      wPl fun b => { b with ports := [(11, { delay := some 5, remeas := 3 })] }, wPl fun b => { b with ports := [(11, { delay := some 5, remeas := 1 })] }],
      s.dev.core.ptpHears 11 24 = true ∧ s.dev.core.ptpHears 11 25 = false ∧
      s.dev.core.plumb.masterPort = some 11 ∧ s.dev.core.maySlave 11 = true ∧ s.dev.core.plumb.sync ≠ .holdover ∧ s.dev.core.ptpRole 11 ≠ 0 ∧
      (s.dev.core.ptpPort 11).faulty = false) ∧
    ((wPl id).dev.core.ptpPort 11).delay = some 5 ∧ ((wPl id).dev.core.ptpPort 11).remeas = 0 ∧
    (∀ p ∈ [((wPl fun b => { b with slewRemain := 0 }).dev.core.advanceTo (1000 * second)).plumb],
      ¬ ((((1000 * second : Nat) : Int) - (wPl id).dev.core.ingress 11 - (5 + (wPl id).dev.core.asym 11)) - p.slewRemain).natAbs ≤ ns 1000) ∧
    (wMode (wPl id) .run).dev.core.running = true ∧ (wPl id).dev.core.running = false ∧ (wPl id).dev.core.mr.role ≠ .standby := by decide +kernel

theorem test_wit_ClockEvents_delay : ∀ k ∈ [0, 1, 2], ∀ up ∈ [true, false], ∀ s ∈ [wPl fun b => { b with ports := [(11, { delay := some 5, cand := k, candUp := up })] }],
    s.dev.core.ptpRole 11 ≠ 0 ∧ (s.dev.core.ptpPort 11).faulty = false ∧ (s.dev.core.ptpPort 11).remeas = 0 ∧
      (s.dev.core.ptpPort 11).delay = some 5 ∧ (s.dev.core.meanDelay 11 0 0 0 0 0 - 5).natAbs ≤ ns (s.dev.core.regN (A.PB_PORT_PTHR + 0x10 * 11)) ∧
      ¬ (s.dev.core.meanDelay 11 0 0 0 second 0 - 5).natAbs ≤ ns (s.dev.core.regN (A.PB_PORT_PTHR + 0x10 * 11)) ∧
      decide (5 < s.dev.core.meanDelay 11 0 0 0 second 0) = true ∧ (s.dev.core.ptpPort 11).cand + 1 ≤ 3 := by decide +kernel

theorem test_wit_ClockEvents_step : (∀ s ∈ [wPl fun b => { b with step := some (-(second : Int)), now := 3 * tickLen, tickAt := some (3 * tickLen) }],
      s.dev.core.plumb.step = some (-(second : Int)) ∧ s.dev.core.neverSteps = false ∧ s.dev.core.now % tickLen = 0 ∧ s.dev.core.plumb.tickAt = some s.dev.core.now ∧
      (wMode s .run).dev.core.neverSteps = true) ∧
    (∀ s ∈ [wPl id, wPl fun b => { b with sync := .holdover }, wPl fun b => { b with sync := .holdover, holdAnn := 1 }, wPl fun b => { b with masterPort := none }],
      s.dev.core.maySlave 11 = true ∧ s.dev.core.lineProfile = true ∧ s.dev.core.ptpHears 11 ({} : Announce).domain = true ∧ ({} : Announce).fromMaster = true) := by
  decide +kernel

/-- An Announce of another clock, and a default profile in which port 11 has heard it before. -/
def wAn : Announce := { gm := Config.clockId + 1 }
def wBm : State := wOn (wPl fun b => { b with ports := [(11, { state := 4, delay := some 5, foreign := [{ ann := wAn, last := 4000 }] })] }) fun c =>
  c.setFld A.PB_TIME_CTL 0 0 0
def wBh : Core := wBm.dev.core.onPtpPort 11 fun q => { q with foreign := heard wBm.dev.core.plumb.elapsed wAn q.foreign }

theorem test_wit_ClockEvents_foreign : (wBh.ptpPort 11).foreign = [{ ann := wAn, last := 5000, prev := some 4000 }] ∧ wBh.bmcPorts = [11] ∧
    wBh.plumb.elapsed < 5000 + wBh.annTimeout 11 * logSeconds (wBh.logAnnounce 11) ∧ 5000 ≤ 4000 + 4 * logSeconds (wBh.logAnnounce 11) := by
  refine ⟨rfl, ?_, ?_, ?_⟩ <;> decide +kernel

theorem test_wit_ClockEvents_best : wBh.bestOf = some (11, wAn) := by
  obtain ⟨h1, h2, h3, h4⟩ := test_wit_ClockEvents_foreign
  have h5 : wAn.steps < 255 ∧ (wAn.gm != Config.clockId) = true := by simp [wAn]
  simp [Core.bestOf, Core.portBest, h1, h2, h3, h4, h5]

theorem test_wit_ClockEvents_master : wBm.dev.core.lineProfile = false ∧ wBm.dev.core.maySlave 11 = true ∧ wBm.dev.core.ptpHears 11 24 = true ∧
    wBm.dev.core.ownSet.clockClass = 248 ∧ wBm.dev.core.ownSet.priority1 = 128 := by decide +kernel

theorem test_wit_ClockEvents_better : 127 < wBm.dev.core.ownSet.clockClass ∧ betterSet wBm.dev.core.ownSet wAn = false := by
  obtain ⟨-, -, -, h1, h2⟩ := test_wit_ClockEvents_master
  have h3 : wBm.dev.core.ownSet.gm = Config.clockId := rfl
  simp [betterSet, setRank, lexLt, h1, h2, h3, wAn]

/-- Timing inputs and timed outputs of every state. -/
def wTi (x : Tin) : State := wOn (wPl id) fun c => (c.setReg (A.PB_TIN_CTL + 0x10 * 31) 3).onTin 31 fun _ => x

theorem test_wit_ClockEvents_pins : (∀ x ∈ [({} : Tin), { lastEdge := some 5000 }, { fifo := List.replicate 64 { time := 1, rising := true, seq := 0 } }],
      (wTi x).dev.core.fld (A.PB_TIN_CTL + 0x10 * 31) 1 0 = 3 ∧ (wTi x).dev.core.tin 31 = x ∧ ((wTi x).dev.core.advanceTo 1000).plumb.elapsed = 5000) ∧
    5000 < 5000 + ns 20 ∧ (wTi {}).dev.core.fld (A.PB_TIN_CTL + 0x10 * 30) 1 0 = 0 ∧ (wPl id).dev.core.plumbOn = true ∧
    (wOn (wPl id) fun c => c.onPw fun p => { p with kaLost := true, vkaA := false, vkaB := false }).dev.core.plumbOn = false ∧
    (wOn (wPl id) fun c => c.onUp fun u => { u with dbgLevel := 1, dbgTicks := 5 }).dev.core.up.dbgTicks = 5 ∧
    (∀ x ∈ [(wOn (wPl id) fun c => c.onTout 15 fun o => { o with st := .waiting, start := 88, width := 5, once := true }).dev.core.tout 15],
      x.st = .waiting ∧ x.pulse = none) ∧
    (∀ x ∈ [(wOn (wPl id) fun c => c.onTout 15 fun o => { o with st := .running, pulse := some 99 }).dev.core.tout 15], x.pulse = some 99) ∧
    (∀ c ∈ [(wOn (wPl id) fun c => c.setReg (A.PB_PORT_CTL + 0xB0) 0xFFFFFFFF).dev.core], c.peer 11 = true ∧ c.oneStep 11 = true) := by decide +kernel

/-! ## Witnesses: line ports -/

/-- Two modules on port 1 of the line, the first of them operational; a safety container of each. -/
def wImgA : Image := { wImg with pair := {}, modules := [{ port := 1, slot := 0, inBytes := 4, outBytes := 8, safeId := 7, passive := [5, 6] },
  { port := 1, slot := 1, inBytes := 4, outBytes := 8, safeId := 8, passive := [15, 16] }] }

/-- Port 1 cycling in Run, with the port and the first module changed. -/
def wA (f : Port → Port) (g : Mod → Mod) : State := wOn (wMode (wI wS wImgA) .run) fun c => (c.setReg (ashA A.ASH_PORT_CFG 1) 0x10000004).onPort 1 (fun x =>
    f { x with st := .cycling, found := 2, cycles := 70, linkUp := true }) |>.onMod 512 (fun x =>
    g { x with st := .operational, missing := 2, first := false, seq := 5 }) |>.onMod 513 (fun x => { x with st := .found }) |>.onPlumb fun b =>
  { b with now := 16 * tickLen + 7, elapsed := 99 }

theorem test_wit_AshlarEvents_cycle : (∀ c ∈ [(wA id id).dev.core], 1 < 8 ∧ (c.port 1).st = .cycling ∧ c.plumb.stepTo ≤ c.portStart 1 ∧
      (c.port 1).cycleStart < c.portStart 1 ∧ (c.port 1).linkUp = true ∧ c.ashRole 1 = 1 ∧ c.portMods 1 = [512, 513] ∧ c.matched 512 = true ∧
      c.segLen 512 ≠ 0 ∧ (c.asBuilt 1 (c.portStart 1)).running = true ∧ (c.mod 512).gotThis = false ∧ (c.port 1).cycles ≠ 0) ∧
    ((wMode (wA id id) .standby).dev.core.asBuilt 1 ((wA id id).dev.core.portStart 1)).running = false ∧
    (∀ c ∈ [(wA id fun m => { m with missing := 255 }).dev.core], (c.mod 512).st = .operational ∧ (c.port 1).lostN ≤ (c.mod 512).missing + 1) ∧
    (∀ w ∈ [0, 10000000000], ∀ c ∈ [(wA (fun x => { x with downWire := w }) fun m => { m with st := .lost }).dev.core],
      (c.portMods 1).filter (fun m => (c.mod m).st == .lost) = [512] ∧ c.running = true ∧ (c.port 1).recover = [] ∧ (c.port 1).recEnum = false ∧
      (c.port 1).lastRound + 64 ≤ (c.port 1).cycles ∧
      decide (10 * c.portNs 1 - 10000 - (c.port 1).downWire < 84 * c.byteTime 1) = decide (w ≠ 0)) := by decide +kernel

theorem test_wit_AshlarEvents_stone : (∀ c ∈ [(wA id id).dev.core], c.matched 512 = true ∧ (c.mod 512).st = .operational ∧ (c.mod 512).first = false ∧
      (c.port 1).st = .cycling ∧ c.image.pair.en = false ∧ (∀ a ∈ c.axesOn, c.axDrive a = false)) ∧
    (∀ f ∈ [({ mod := 512, type := 3 } : Stone), { mod := 512, version := 2 }, { mod := 512, length := 7 }, { mod := 514 }],
      ¬ (f.length = 20 + f.bytes.length ∧ f.type = 2 ∧ f.version = 1 ∧ f.mod % 512 < ((wA id id).dev.core.port 1).found)) ∧
    ((wA id id).dev.core.mod 512).lastCycle = none ∧
    ((wA id fun m => { m with lastCycle := some 4 }).dev.core.mod 512).lastCycle = some 4 ∧
    some 9 ≠ ((wA id id).dev.core.modDef 512).map (·.identCrc) := by decide +kernel

theorem test_wit_AshlarEvents_accepted : ∀ q ∈ [4, 5, 6, 8], ∀ k ∈ [true, false],
    ∀ f ∈ [({ mod := 512, length := 22, bytes := [1, 2], seq := q, cycle := 4, crcOk := k } : Stone)],
      f.length = 20 + f.bytes.length ∧ f.type = 2 ∧ f.version = 1 ∧ f.mod % 512 < ((wA id id).dev.core.port 1).found ∧
      some f.identCrc = ((wA id id).dev.core.modDef 512).map (·.identCrc) ∧
      decide (32768 ≤ (f.seq + 65536 - ((wA id id).dev.core.mod 512).seq % 65536) % 65536) = decide (q = 4) := by decide +kernel

theorem test_wit_AshlarEvents_enum : (∀ n ∈ [0, 1], ((wA (fun x => { x with enum := some (.report n 0) }) id).dev.core.port 1).enum = some (.report n 0) ∧
      n < ((wA (fun x => { x with enum := some (.report n 0) }) id).dev.core.port 1).found) ∧
    (∀ r ∈ [({ port := 1, slot := 0, parts := 2 } : ModReport)], r.part + 1 < r.parts) ∧
    (∀ r ∈ [({ port := 1, slot := 0 } : ModReport), { port := 1, slot := 1 }], r.parts ≤ r.part + 1) ∧ 0 + 1 < 2 ∧ 2 ≤ 1 + 1 ∧
    (∀ k ∈ [none, some 2], ∀ x ∈ [(wA (fun x => { x with enum := some .enum, prevCount := k }) id).dev.core.port 1], x.enum = some .enum ∧
      x.prevCount = k ∧ x.linkUp = true) ∧ (wA id id).dev.core.ashRole 1 ≠ 0 := by decide +kernel

/-- A first copy of a container that waits. -/
def wAs : State := wOn (wA id id) fun c => c.onAshSt fun a => { a with safe := [{ msg := { safeId := 7, seq := 3, data := 9 }, time := c.now }] }

theorem test_wit_AshlarEvents_safe : (wA id id).dev.core.safeMod 7 = some 512 ∧ (wA id id).dev.core.ash.safe = [] ∧
    (∀ d ∈ [8, 9], ∀ f ∈ [({ safeId := 7, seq := 3, data := d, copyB := true } : SafeMsg)], ∀ k ∈ wAs.dev.core.ash.safe, wAs.dev.core.safeMod f.safeId = some 512 ∧
      f.crcOk = true ∧ wAs.dev.core.ash.safe = [k] ∧ k.msg.safeId = f.safeId ∧ k.msg.seq = f.seq ∧ k.msg.copyB ≠ f.copyB ∧
      max wAs.dev.core.now f.time ≤ k.time + (wAs.dev.core.port 1).skew ∧ decide (payloadOf k.msg = payloadOf f) = decide (d = 9)) := by decide +kernel

/-- A standby on a pair line. -/
def wAp (age : Nat) : State := wOn (wI (wA (fun x => { x with shadowAge := age }) id) { wImgA with pair := { en := true } }) fun c =>
  (c.setReg (ashA A.ASH_PORT_CFG 1) 0x40000004).onMr fun m => { m with role := .standby, partnerKnown := true, partnerHeard := true }

theorem test_wit_AshlarEvents_shadow : ∀ age ∈ [0, 99], ∀ c ∈ [(wAp age).dev.core], c.pairOn = true ∧ c.mr.role = .standby ∧ c.ashRole 1 = 4 ∧
    c.mr.frozen = false ∧ c.mr.partnerKnown = true ∧ 0 = c.mr.beat.claim ∧ ([(512 * 512, 77)].map Prod.fst).Nodup ∧ c.mr.partnerHeard = true ∧ c.mr.missRun = 0 ∧
    (c.port 1).shadowLost = false ∧ decide ((c.port 1).holdWin ≤ (c.port 1).shadowAge) = decide (age = 99) ∧ c.segLen 512 ≠ 0 := by decide +kernel

/-! ## Witnesses: chain -/

/-- An image of device 3 on a chain with the shaft, an export and an import. -/
def wImgL : Image := { wImg with pair := {}, shaft := [0x1800001, 0x1800002, 0x1800003, 0x1800004], exports := [{ tag := 5, period := 1 }],
                                 imports := [{ origin := 9, tag := 77, local6 := 0x1800009, stale := 4 }] }

/-- With links on units 0 and 1, tick 8 issued and device 9 in the map, which leads to device 20. -/
def wLn (f : Lintel → Lintel) : State := wOn (wI wS wImgL) fun c => ((c.setReg A.LN_CFG 0x01000003).onPlumb fun b =>
  { b with now := 8 * tickLen, elapsed := 99, tickAt := some (8 * tickLen) }).onLn fun l => f { l with
    ports := [(0, { link := true, nb := .known, nbNum := 9 }), (1, { link := true, nb := .known, nbNum := 12 })], devs := [{ dev := 9, links := [(0, 1, 20)] }] }

/-- A header from device 9 on unit 0. -/
def wFh : LnHdr := { unit := 0, origin := 9, seq := 44, hops := 3 }

theorem test_wit_LintelEvents_flood : (∀ c ∈ [(wLn id).dev.core], ∀ f ∈ [wFh, { wFh with version := 2 }, { wFh with crcOk := false }], c.lnOn = true ∧ c.lnUnit f.unit = true ∧
      (c.lnPort f.unit).link = true ∧ f.origin ≠ c.devNum ∧ c.barred f = false ∧ c.ln.seen.contains (f.origin, f.seq) = false ∧ f.hops < 1023) ∧
    (lnBad wFh = false ∧ wFh.crcOk = true ∧ lnBad { wFh with version := 2 } = true ∧ lnBad { wFh with crcOk := false } = false) ∧
    (wLn fun l => { l with seen := [(9, 44)] }).dev.core.ln.seen.contains (wFh.origin, wFh.seq) = true ∧ (wLn id).dev.core.devNum = 3 ∧
    (wLn id).dev.core.image.pair.en = false ∧ (wLn id).dev.core.ln.numConflict = false ∧
    ((wLn id).dev.core.ln.devs.find? fun y => y.dev == 9).isSome = true ∧ 9 ≠ (wLn id).dev.core.devNum := by decide +kernel

theorem test_wit_LintelEvents_conflict : ({ fp := Config.identityFp + 1 } : HelloMsg).fp ≠ Config.identityFp := Nat.succ_ne_self _

/-- Unit 1 without a link, and verifying with pieces of an answer. -/
def wLv (l : List Nat) : State := wLn fun x => { x with ports := [(1, { link := true, nb := .verifying, identGot := l })] }

theorem test_wit_LintelEvents_ident : ((wLn id).dev.core.lnUnit 3 = false ∧ (wLn fun x => { x with ports := [] }).dev.core.lnUnit 1 = true ∧
      ((wLn fun x => { x with ports := [] }).dev.core.lnPort 1).link = false) ∧
    (∀ l ∈ [[], List.range 20], ∀ p ∈ [(wLv l).dev.core.lnPort 1], p.link = true ∧ p.nb = .verifying ∧ p.identGot = l ∧ 20 ∉ l ∧
      decide (21 ≤ (20 :: l).length) = decide (l ≠ [])) := by decide +kernel

theorem test_wit_LintelEvents_key : Config.sha3 [({ answer := true, piece := 20, key := 6, fp := Config.sha3 [6] } : IdentMsg).key] =
    ({ answer := true, piece := 20, key := 6, fp := Config.sha3 [6] } : IdentMsg).fp := rfl

/-- With publications of the shaft, or claims of its source. -/
def wLs (t : Time) : State := wLn fun l => { l with shaft := [{ t := t, p := 88, v := 3, a := 4, claim := 0, src := 9 }], claims := [(9, (7, 8 * tickLen))] }

theorem test_wit_LintelEvents_shaft : (∀ k ∈ [6, 7, 8], decide ((SMap.get (0, 0) (wLs 0).dev.core.ln.claims 9).1 ≤ k) = decide (k ≠ 6)) ∧
    (wLs 0).dev.core.now < (SMap.get (0, 0) (wLs 0).dev.core.ln.claims 9).2 + ticks (wLs 0).dev.core.image.pair.shaftHoldWin ∧
    (∀ t ∈ [7 * tickLen, 5 * tickLen], ∀ c ∈ [(wLs t).dev.core], c.plumb.tickAt = some (8 * tickLen) ∧ c.ln.shaftTick ≠ some (8 * tickLen) ∧ c.ln.shaft ≠ [] ∧
      c.md.mode = .standby ∧ (c.pubFor (8 * tickLen)).isSome = decide (t = 7 * tickLen) ∧ (c.shaftAt (8 * tickLen)).isSome = true ∧ c.image.shaft.Nodup) ∧
    (wLs 0).dev.core.ln.exportTick ≠ some (8 * tickLen) ∧ (wLs 0).dev.core.image.exports.filter (fun e => e.period ≠ 0 ∧ tickOf (8 * tickLen) % e.period = 0) ≠ [] ∧
    (wOn (wLs 0) fun c => c.onUp fun u => { u with runCfg := some { wImgL with exports := [] } }).dev.core.image.exports = [] := by decide +kernel

theorem test_wit_LintelEvents_import : (∀ g ∈ [77, 78], ((wLn id).dev.core.image.imports.find? fun i => i.origin == 9 && i.tag == g).isSome = decide (g = 77)) ∧
    (∀ c ∈ [(wLn fun l => { l with imports := [(0x1800009, { got := true })] }).dev.core], (c.image.imports.find? fun i => i.local6 == 0x1800009).isSome = true ∧
      (c.import_ 0x1800009).got = true ∧ (c.import_ 0x1800009).stale = false) ∧
    (∀ c ∈ [(wOn (wI (wLn id) { wImgL with triggers := [127] }) fun c => ((c.setReg (A.TR_CTL + 0x20 * 127) 1).setReg (A.TR_CFG + 0x40 * 127) 0x60000000).setReg
        (A.TR_CHAIN + 0x40 * 127) (wd (9 * 65536 + 5))).dev.core], c.trigRuns 127 = true ∧ c.trigKind 127 = 6 ∧
      bits (c.reg (A.TR_CHAIN + 0x40 * 127)) 25 16 = 9 ∧ bits (c.reg (A.TR_CHAIN + 0x40 * 127)) 6 0 = 5 ∧ 4 ≤ c.now + second) := by decide +kernel

theorem test_wit_LintelEvents_safe : (∀ g ∈ [3, 77], ∀ k ∈ [true, false], ∀ x ∈ [({ safeId := 3, seq := 4, data := 6, target := g } : SafeMsg)],
      ∀ f ∈ [{ wFh with crcOk := k }], f.unit < 2 ∧ ((wLn id).dev.core.lnPort f.unit).link = true ∧ ((wLn id).dev.core.lnPort (1 - f.unit)).link = true ∧
      lnBad f = false ∧ f.origin ≠ (wLn id).dev.core.devNum ∧ (wLn id).dev.core.barred f = false ∧ f.hops < 1023 ∧
      decide (x.target = (wLn id).dev.core.devNum) = decide (g = 3)) ∧
    ((wLn id).dev.core.ln.safe = [] ∧ (SMap.get (0, 0) (wLn id).dev.core.ln.claims wFh.origin).1 ≤ wFh.claim) := by decide +kernel

theorem test_wit_LintelEvents_mgmt : (wLn id).dev.core.ln.pieces = [] ∧
    (∀ m ∈ [({ target := 20, message := 5 } : MgmtMsg), { target := 9, message := 5 }, { target := 21, message := 5 }, { target := 3, message := 5, type := 2, source := 9 }],
      m.pieces = 1 ∧ m.piece = 0 ∧ m.target ≠ 0xFFFE ∧ (m.target = (wLn id).dev.core.devNum ∨ (wLn id).dev.core.route m.target = (if m.target = 21 then none else some 0))) ∧
    ({ target := 21, message := 5 } : MgmtMsg).source = 0xFFFF ∧ (wLn id).dev.core.route 9 = some 0 ∧ ((wLn id).dev.core.lnPort 0).link = true ∧
    (wLn id).dev.core.md.held = false ∧ (wLn id).dev.core.md.mode = .standby := by decide +kernel

/-- Chunk 0 of a container of the maker, and chunk 1. -/
def wRm (k : Bool) (n : Nat) (ok : Bool) : RelayMsg := { target := 20, d := { cont := 7, chunk := n, hdr := { kind := 1, kennus := k }, hashOk := ok } }

/-- With chunks stored, and one that waits for its acknowledgement. -/
def wLr (n : Nat) : State := wLn fun l => { l with store := [(7, 0)], relay := [{ cont := 7, chunk := 0, unit := 0, target := 20, chunks := 1, sentAt := 5, resends := n }] }

theorem test_wit_LintelEvents_relay : (∀ m ∈ [wRm true 0 true, wRm false 0 true, wRm true 1 true, wRm true 1 false], (wLn id).dev.core.ln.store.contains (m.d.cont, m.d.chunk) = false ∧
      (wLr 0).dev.core.ln.store.contains (m.d.cont, m.d.chunk) = decide (m.d.chunk = 0) ∧ (wLr 0).dev.core.ln.given = [] ∧
      m.target ≠ (wLn id).dev.core.devNum ∧ m.target ≠ 0xFFFF ∧ (wLn id).dev.core.route m.target = some 0 ∧ 0 ≠ 1 ∧ ((wLn id).dev.core.lnPort 1).link = true) ∧
    (wLn id).dev.core.headTest (wRm true 0 true).d.hdr = 0 ∧ (wLn id).dev.core.headTest (wRm false 0 true).d.hdr ≠ 0 ∧
    (∀ n ∈ [7, 8], ((wLr n).dev.core.ln.relay.find? fun r => r.cont == 7 && r.chunk == 0 && r.unit == 0).map (fun r => (decide (r.resends < 8), r.unit)) =
      some (decide (n = 7), 0)) := by decide +kernel

theorem test_wit_LintelEvents_hist : ∀ c ∈ [(wOn (wLn id) fun c => ((c.setReg (rsA A.RS_CFG 15) 0x80000001).setReg (rsA A.RS_PEER_CFG 15) (wd (20 * 65536))).onStream 15 fun x =>
      { x with ring := [5] }).dev.core], c.rsDest 15 = 2 ∧ ((c.stream 15).ring.drop (c.stream 15).sent).take 16 ≠ [] ∧
    c.route (c.fld (rsA A.RS_PEER_CFG 15) 25 16) = some 0 ∧ (c.lnPort 0).link = true ∧ c.rsSize 15 ≠ 0 ∧ c.peerBarred 15 = false := by decide +kernel

/-! ## Witnesses: pair, island, update -/

/-- An image of a pair, without its partner's fingerprint, and a unit of it whose pairing state is changed. -/
def wImgM : Image := { wImg with pair := { en := true, fpA := 5, claimBase := 10 }, schedule := { baseK := 2, commitEnd := 45000 }, imageId := 3, hash := 8 }
def wMo (f : Mortar → Mortar) : State := wOn (wI wS wImgM) fun c => (c.onPlumb fun b => { b with now := 8 * tickLen, elapsed := 99 }).onMr fun m =>
  f { m with partnerKnown := true, link := true }

/-- A heartbeat in its tick. -/
def wBt : BeatMsg := { tick := 8, imageId := 3, claim := 2, role := 1 }

/-- The standby in sync, and the active. -/
def wMst : State := wMo fun m => { m with role := .standby, inSync := true, snapDone := true, claim := 1, hbDue := true, missRun := 2, mItems := [.axis 0 {}], staging := (5, [(0, [])]) }
def wMa : State := wMo fun m => { m with role := .active, claim := 12, activePin := true, hbDue := true, missRun := 2 }

theorem test_wit_MortarEvents_beat : (∀ s ∈ [wMst, wMa, wMo id], s.dev.core.pairOn = true ∧ s.dev.core.mr.partnerKnown = true ∧ wBt.version = 1 ∧
      wBt.tick = tickOf s.dev.core.now ∧ wBt.imageId = s.dev.core.image.imageId ∧ wBt.safetyHash = s.dev.core.safetyHash ∧
      ¬ (s.dev.core.mr.epochApplied + s.dev.core.fld A.MR_CFG 23 16 < s.dev.core.epochOf s.dev.core.now ∧ (wBt.mode = 5 ∨ wBt.mode = 6))) ∧
    (wMst.dev.core.mr.role = .standby ∧ wMst.dev.core.mr.inSync = true ∧ (wMo fun m => { m with role := .standby }).dev.core.mr.inSync = false) ∧
    (wMa.dev.core.mr.role = .active ∧ wBt.claim ≤ wMa.dev.core.mr.claim ∧ wMa.dev.core.mr.claim < ({ wBt with claim := 99 } : BeatMsg).claim) ∧
    ((wMo id).dev.core.mr.role = .none ∧ (wMo id).dev.core.md.mode = .standby ∧ (wMo id).dev.core.mr.unitB = false ∧ wBt.partnerKnown = true) ∧
    (wMo fun m => { m with partnerKnown := false }).dev.core.mr.partnerKnown = false := by decide +kernel

theorem test_wit_MortarEvents_missed : (∀ s ∈ [wMst, wMa], s.dev.core.mr.hbDue = true ∧ min 255 (s.dev.core.mr.missRun + 1) = 3) ∧
    (wMo fun m => { m with hbDue := true }).dev.core.mr.hbDue = true ∧ (wMo fun m => { m with hbDue := true }).dev.core.mr.role = .none ∧
    (({} : MorHdr).crcOk = true ∧ ({} : MorHdr).version = 1 ∧ ({ version := 2 } : MorHdr).version ≠ 1 ∧ ({ crcOk := false } : MorHdr).crcOk = false) ∧
    wMst.dev.core.mr.staging = (5, [(0, [])]) ∧ (wMo fun m => { m with role := .standby }).dev.core.mr.staging = (0, []) ∧
    (∀ c ∈ [(wMo fun m => { m with waitFrom := some 4 }).dev.core], c.mr.waitFrom = some 4 ∧ c.mr.role = .none ∧ c.mr.partnerHeard = false) := by decide +kernel

/-- A block of an epoch, whole and with a frame that has not come. -/
def wEp (n : Nat) : EpochEndMsg := { epoch := 5, frames := n, bytes := itemsSize [.block 1 5], crc := itemsCrc [.block 1 5], basis := 0 }
def wMe : State := wMo fun m => { m with role := .standby, inSync := true, snapDone := true, staging := (5, [(0, [.block 1 5])]) }
def wMrs : State := wMo fun m => { m with role := .standby, staging2 := (5, [(0, [.block 1 5])]) }

theorem test_wit_MortarEvents_epoch : (∀ m ∈ [wMe.dev.core.mr], m.role = .standby ∧ m.partnerKnown = true ∧ m.staging.1 = (wEp 1).epoch ∧ m.snapDone = true ∧
      (List.range 1).flatMap (fun i => ((m.staging.2.find? fun f => f.1 == i).map Prod.snd).getD []) = [.block 1 5] ∧
      (∀ i, i < 1 → ∃ f ∈ m.staging.2, f.1 = i) ∧ (wEp 1).basis ≤ m.epochApplied ∧ m.epochApplied < (wEp 1).epoch ∧ (wEp 1).swap = false) ∧
    (itemsSize [.block 1 5] = (wEp 1).bytes ∧ itemsCrc [.block 1 5] = (wEp 1).crc) ∧ ¬ (∃ f ∈ wMe.dev.core.mr.staging.2, f.1 = 1) ∧
    (∀ m ∈ [wMrs.dev.core.mr], m.role = .standby ∧ m.partnerKnown = true ∧ m.snapDone = false ∧ m.resyncStop = false ∧ m.staging2 = (5, [(0, [.block 1 5])])) := by
  decide +kernel

theorem test_wit_MortarEvents_package : (∀ st ∈ [OlcState.none, .ready, .armed], (wOn wMst fun c => c.onOlc fun o => { o with st := st }).dev.core.prog.olc.st = st) ∧
    wMst.dev.core.mr.role = .standby ∧ wMst.dev.core.mr.partnerKnown = true := by decide +kernel

/-- A safety block with one input, test pulse, function, brake and inbound connection, and an island that runs it. -/
def wSbk : SafetyBlock := { hash := 1, inputs := [{ enable := true, tpA := 0, tpB := 1, filt := 0, disc := 500 }], tps := [{ period := 1, width := 100, settle := 10 }],
                            fns := [{ sources := [.input 0], stopCat := 0, darkInt := 1, darkW := 20 }], conns := [{ inbound := true }],
                            brks := [{ func := 0, axis := 191, testI := 5, testMs := 100, brkWin := 3, brkInt := 8, reqTag := 77, testTag := 78 }] }
def wIs (f : Island → Island) : State := { wOn wS fun c => (c.setTag 77 1).onAxis 191 fun x => { x with st := .standstill } with
  dev := { (wOn wS fun c => (c.setTag 77 1).onAxis 191 fun x => { x with st := .standstill }).dev with isl := f {
    p := { locked := false, cause := 0 }, w := { locked := false, cause := 0 }, block := some wSbk, now := 100000
    ins := [(0, { a := { lvl := true, raw := true }, b := { lvl := true, raw := true } })]
    fns := [(0, { st := .on, dem := false, pinP := true, pinW := true, onTime := 100000 })] } } }

theorem test_wit_IslandEvents : (∀ x ∈ [(wIs id).dev.isl], x.w.inReset = false ∧ x.p.inReset = false ∧ x.block ≠ none ∧ x.locked = false ∧ x.pulse = none ∧
      (x.inDef 0).enable = true ∧ (x.inDef 0).filt = 0 ∧ 0 < x.blk.fns.length ∧ (x.fn 0).st = .on ∧ (x.fnDef 0).stopCat = 0 ∧ .input 0 ∈ (x.fnDef 0).sources) ∧
    (wIs fun x => { x with block := none }).dev.isl.block = none ∧
    (∀ x ∈ [(wIs fun x => { x with ins := [(0, { disc := some 0 })] }).dev.isl], (x.inp 0).disc = some 0 ∧ (x.inp 0).discFault = false ∧ (x.inDef 0).disc ≤ x.now - 0) ∧
    ((wIs fun x => { x with fns := [(0, { st := .ss1 })] }).dev.isl.fn 0).st = .ss1 ∧ 0 < (wIs id).dev.isl.blk.tps.length ∧
    (∀ t ∈ [100000, 0], ∀ x ∈ [(wIs fun x => { x with fns := [(0, { st := .on, onTime := t })] }).dev.isl], (x.fn 0).dark = none ∧
      decide ((x.fnDef 0).darkInt * 100000 ≤ (x.fn 0).onTime) = decide (t ≠ 0)) := by decide +kernel

theorem test_wit_IslandEvents_checks : (∀ p ∈ [true, false], ∀ x ∈ [(wIs fun x => { x with p := { inReset := p, locked := true }, w := { x.w with locked := true }, conns := [(0, { timeout := false })] }).dev.isl],
      x.locked = true ∧ x.w.inReset = false ∧ decide (x.resetResult = 1) = !p) ∧
    ¬ (10000 < 10000 ∨ 200000 < 10000) ∧
    (∀ n ∈ [0, 2], ∀ x ∈ [(wIs fun x => { x with pLost := n }).dev.isl], (if true && !x.p.inReset then 0 else x.pLost + 1) = 0 ∧
      decide ((if false && !x.p.inReset then 0 else x.pLost + 1) = 3) = decide (n = 2)) ∧
    (∀ x ∈ [(wIs fun x => { x with conns := [(0, { timeout := false })] }).dev.isl], 0 < x.blk.conns.length ∧ (x.connDef 0).inbound = true ∧
      (x.conn 0).timeout = false) ∧ 98000000 ≤ 98000000 ∧ 97999999 < 98000000 ∧ 102000000 < 102000001 := by decide +kernel

theorem test_wit_IslandEvents_brake : (∀ s ∈ [wIs id, wOn (wIs id) fun c => (c.setTag 77 0).setTag 78 1], 0 < s.dev.isl.blk.brks.length ∧ (s.dev.isl.brk 0).test = none ∧
      (s.dev.isl.brk 0).mism = false ∧ (s.dev.isl.brk 0).overdue = false ∧ (s.dev.isl.brk 0).testTag = false ∧
      (s.dev.core.axis (s.dev.isl.brkDef 0).axis).st = .standstill ∧ s.dev.core.image.axes.contains (s.dev.isl.brkDef 0).axis = true) ∧
    ((wIs id).dev.core.tagVal 77 ≠ 0 ∧ (wIs id).dev.core.tagVal 78 = 0 ∧ (wOn (wIs id) fun c => (c.setTag 77 0).setTag 78 1).dev.core.tagVal 78 ≠ 0) ∧
    (∀ r ∈ [true, false], ∀ x ∈ [(wIs fun x => { x with brks := [(0, { released := true, changedAt := 5 })] }).dev.isl], (x.brk 0).released = true ∧
      decide ((x.brk 0).changedAt + 5000 ≤ x.now ∧ r ≠ true) = !r) ∧
    (∀ s ∈ [wOn (wIs fun x => { x with brks := [(0, { test := some 7, p0 := 10 })] }) fun c => c.onAxis 191 fun x => { x with st := .brakeTest }],
      (s.dev.isl.brk 0).test = some 7 ∧ (s.dev.core.axis (s.dev.isl.brkDef 0).axis).st = .brakeTest ∧ (13 - (s.dev.isl.brk 0).p0).natAbs ≤ (s.dev.isl.brkDef 0).brkWin ∧
      (s.dev.isl.brkDef 0).brkWin < (14 - (s.dev.isl.brk 0).p0).natAbs) := by decide +kernel

/-- A device with a set that runs and its flash, and its downloads and activation. -/
def wU (f : Update → Update) : State := wOn (wI wS { wImg with pair := {} }) fun c => ((c.setReg A.LN_CFG 3).onMem fun m => { m with nvm0 := 2048 }).onUp fun u =>
  f { u with fwA := some { hash := 1 }, runFw := some { hash := 1 }, cfgA := some {}, boot := { cfgActive := some false } }

/-- A header of an image for device 3, and of one whose magic is wrong. -/
def wCh (m : Nat) : ContHdr := { kind := 3, target := 3, signerFp := 9, chunks := 2, result := 55, length := 5, magic := m }

/-- Chunk 0 whole, and a part of it. -/
def wC0 (m : Nat) (n : Nat) : ContChunk := { cont := 7, chunk := 0, hdr := wCh m, len := n }

theorem test_wit_UpdateRequests_whole : ∀ m ∈ [0x5A594E5A, 0], ∀ n ∈ [5461, 5462, 5460], (wU id).dev.core.Asks 15 9 .engineer ∧
    (wU id).dev.core.chunkLen (wC0 m n) = some 5461 ∧ decide ((wC0 m n).offset + (wC0 m n).len ≤ 5461) = decide (n ≠ 5462) ∧
    (wC0 m n).hdr.target = (wU id).dev.core.devNum ∧ (wU id).dev.core.up.parts = [] ∧ ((wU id).dev.core.download 1).st = .none ∧
    decide ((wU id).dev.core.refuseTest 7 (wCh 0) ≠ 0) = true := by unfold Core.Asks; decide +kernel

theorem test_wit_UpdateRequests_present : (∀ b, b < 5461 → (wC0 0x5A594E5A 5461).offset ≤ b ∧ b < (wC0 0x5A594E5A 5461).offset + (wC0 0x5A594E5A 5461).len) ∧
    ¬ (5460 < (wC0 0x5A594E5A 5460).offset + (wC0 0x5A594E5A 5460).len) := ⟨fun b h => ⟨Nat.zero_le b, by simpa [wC0] using h⟩, by decide⟩

theorem test_wit_UpdateRequests_addressed : (wU id).dev.core.addressed (wCh 0x5A594E5A) = true := by
  have h : (wU id).dev.core.devNum = 3 := by decide +kernel
  simp [Core.addressed, wCh, h]

theorem test_wit_UpdateRequests_passes : (wU id).dev.core.refuseTest 7 (wCh 0x5A594E5A) = 0 := by
  unfold Core.refuseTest; rw [test_wit_UpdateRequests_addressed]; decide +kernel

/-- A download in a state. -/
def wDl (d : Nat) (st : UpState) (kind : Nat) : State := wU fun u => { u with down := [(d, { st := st, cont := 7, hdr := { wCh 0 with kind := kind }, got := [0] })] }

theorem test_wit_UpdateRequests_body : (∀ st ∈ [UpState.receiving, .held, .verifying, .rebuilding], ∀ c ∈ [(wDl 1 st 3).dev.core], c.destOf 7 = some 1 ∧ (c.download 1).st = st ∧
      1 < (c.download 1).hdr.chunks ∧ (c.download 1).got = [0] ∧ c.chunkLen { cont := 7, chunk := 1, len := 5 } = some 5 ∧ c.ln.heads = []) ∧
    (wU id).dev.core.destOf 7 = none ∧ (wU id).dev.core.chunkLen { cont := 7, chunk := 1, len := 5 } = none := by decide +kernel

theorem test_wit_UpdateRequests_verify : (∀ p ∈ [(0, 1), (1, 3), (2, 6), (4, 8)], ∀ c ∈ [(wDl p.1 .verifying p.2).dev.core], c.destOf 7 = some p.1 ∧
      (c.download p.1).st = .verifying ∧ (c.download p.1).hdr.kind = p.2 ∧ c.md.mode ≠ .recovery ∧ c.safeTarget = some false) ∧
    (firmwareOk {} = true ∧ firmwareOk { sigOk := false } = false ∧ ({} : Firmware).format = 1 ∧ ({} : Firmware).secVersion = (wCh 0).secVersion) ∧
    rebuild [1, 2] 4 9 [3, 0, 0, 0, 1, 9, 0] [] = some [9] := by decide +kernel

theorem test_wit_UpdateRequests_delta : (∀ y ∈ [({ base := [1, 2], body := [3, 0, 0, 0, 1, 9, 0] } : DeltaIn)], ∀ h ∈ [({ kind := 4, base := Config.sha3 [1, 2], result := Config.sha3 [9], resultLen := 4 } : ContHdr)],
      Config.sha3 y.base = h.base ∧
        ∃ r, rebuild y.base h.resultLen (y.body.length + 1) y.body [] = some r ∧ Config.sha3 r = h.result) := by
  simp only [List.mem_singleton, forall_eq, true_and]
  exact ⟨[9], by decide, rfl⟩

/-- Containers held in the slots. -/
def wHe (p : Bool) : State := wOn (wDl 1 .held 3) fun c => c.onUp fun u => { u with cfgB := some { hash := 55, format := 1 }, pendingAct := p, boot := { u.boot with trial := p } }

theorem test_wit_UpdateRequests_activate : (∀ p ∈ [true, false], ∀ c ∈ [(wHe p).dev.core], c.md.mode = .standby ∧ c.up.pendingAct = p ∧ c.actTest { cfg := 8 } ≠ 0 ∧
      c.actTest { cfg := 7 } = 0 ∧ c.up.boot.trial = p) ∧ ({ cfg := 7 } : ActivateReq).restart = 0 ∧
    (wU fun u => { u with dbgLevel := 1, dbgTicks := 5 }).dev.core.up.dbgLevel ≠ 0 := by decide +kernel

theorem test_wit_ConfirmEndsATrial : (∀ m ∈ [Mode.standby, .run, .service, .minimal], ∀ p ∈ [true, false], (wMode (wHe p) m).dev.core.Asks 15 9 .engineer ∧
      (wMode (wHe p) m).dev.core.md.mode = m ∧ (wMode (wHe p) m).dev.core.up.boot.trial = p) := by unfold Core.Asks; decide +kernel

end Sys2Proof.Tests
end

section
/-!
PROOFS. The state right after reset: every register unwritten, no safe output driven, no session open, the island
LOCKED (R3, R227, R763, R764).
-/
namespace Sys2Proof.Machine

/-- Where neither a write nor the image has placed a word, a register reads its Cold value (R3). -/
theorem Core.reg_of_unplaced {c : Core} {a : Nat} (hregs : SMap.get 0 c.regs a = 0) (himg : SMap.get 0 c.img a = 0) :
    c.reg a = coldOf a := by
  unfold Core.reg Core.imgWord
  rw [hregs, himg]
  exact BitVec.zero_xor.trans BitVec.zero_xor

theorem Island.safeOff.safe {i : Island} (h : i.safeOff) : i.safe := fun _ => h

@[simp] theorem State.reset_reg (a : Nat) : State.reset.dev.core.reg a = coldOf a :=
  Core.reg_of_unplaced (SMap.get_nil 0 a) (SMap.get_nil 0 a)

@[simp] theorem State.reset_fn (n : Nat) : State.reset.dev.isl.fn n = {} := SMap.get_nil (α := SafeFn) {} n

@[simp] theorem State.reset_session (n : Nat) : State.reset.dev.core.session n = {} := SMap.get_nil (α := Session) {} n

theorem State.reset_safeOff : State.reset.dev.isl.safeOff := fun n _ => by simp

/-- Settles O59: at reset no map lists an entry, so every register, safe output and session reads its initial value, and both channels stand
in the lock-out POWER_ON (R763). -/
theorem resetIsLockedAndCold : Obligations.ResetIsLockedAndCold := by
  unfold Obligations.ResetIsLockedAndCold
  have hfree (n : Nat) : (State.reset.dev.core.session n).st = .free := by simp
  exact ⟨State.reset_safeOff.safe, State.reset_reg, rfl, rfl, rfl, rfl, State.reset_safeOff, hfree, rfl⟩

end Sys2Proof.Machine
end

section
/-!
PROOFS. A request that writes one register: the item that the tests on its fields refuse, the register of one command bit, and the island's
block, which refuses every write (R6, R11, R39, R193).
-/
namespace Sys2Proof.Machine

/-- An item that no test before those on the fields turns away: its first refusal, or its effect (R11, R193). -/
theorem Core.loneItem_of_hit {c : Core} {sess a : Nat} {role : Role} {v mask : Word} {h : Hit} (hhit : regAt a = some h)
    (halign : a % 4 = 0) (htag : inTagWindow a = false) (hrole : role.mayWrite a = true) (haddr : c.addressRefusal sess h = 0)
    (hcov : coverOf h mask ≠ 0) (hmode : ¬ (c.md.mode = .minimal ∨ c.md.mode = .recovery)) :
    ∃ old, c.loneItem sess role { addr := a, value := v, mask := mask } =
      if firstStatus (c.refusals sess h a v (coverOf h mask) (mixed h v (coverOf h mask) old)) = 0 then
        c.writeEffect sess h a v (coverOf h mask) (mixed h v (coverOf h mask) old)
      else (c, firstStatus (c.refusals sess h a v (coverOf h mask) (mixed h v (coverOf h mask) old))) := by
  unfold Core.loneItem Core.writeItem
  dsimp only
  rw [if_neg (by rw [htag]; decide), if_neg (by omega), hhit]
  dsimp only
  rw [haddr, hrole, if_neg (by decide), if_neg (by decide), if_neg (by decide), if_neg hcov, if_neg hmode]
  exact ⟨_, rfl⟩

/-- A session that may write still gets the answer of one item when only its notifications have changed since. -/
theorem Core.MayWrite.answerable {c d : Core} {sess req : Nat} (h : c.MayWrite sess req)
    (hk : (d.session sess).still = (c.session sess).still) (st : Nat) :
    (d.session sess).st = .open ∧ (d.session sess).txSeq + respFrags 2 [1, st] ≤ 2 ^ 48 := by
  obtain ⟨⟨-, -, -, hopen, -, -, -, hseq⟩, -⟩ := h
  have hfrags : respFrags 2 [1, st] = 1 := by simp [respFrags, bodyBytes, cdiv]
  rw [Session.still_st hk, Session.still_txSeq hk, hfrags]
  exact ⟨hopen, by omega⟩

/-- A response raises no event. -/
theorem Core.lastEv_respond {c : Core} {sess req op st : Nat} {body : List Nat} (hopen : (c.session sess).st = .open)
    (hseq : (c.session sess).txSeq + respFrags op body ≤ 2 ^ 48) : (c.respond sess req op st body).host.lastEv = c.host.lastEv := by
  unfold Core.respond
  dsimp only
  rw [if_neg (by simp [hopen])]
  unfold Core.sendResp
  dsimp only
  rw [Core.onSession_session, if_neg (by dsimp only; omega)]
  rfl

/-- The request of an item that the tests on its fields refuse changes nothing beside host access: it is counted and answered. -/
theorem item_refused {s : State} {sess req a st : Nat} {v mask : Word} {h : Hit} (hc : s.dev.core.MayWrite sess req)
    (hhit : regAt a = some h) (halign : a % 4 = 0) (htag : inTagWindow a = false)
    (hrole : (s.dev.core.session sess).role.mayWrite a = true) (haddr : (s.dev.core.quiet.asked sess).addressRefusal sess h = 0)
    (hcov : coverOf h mask ≠ 0) (hst : st ≠ 0)
    (href : ∀ nw, firstStatus ((s.dev.core.quiet.asked sess).refusals sess h a v (coverOf h mask) nw) = st) :
    ∃ x o, coreCmd (Core.hostItem sess req a v mask) s = .next { s with dev := { s.dev with core :=
      { s.dev.core.quiet.asked sess with host := x, out := o ++ [.resp sess req 0x82 st [1, st]] } } } := by
  obtain ⟨hopen, hseq⟩ := hc.answerable (d := s.dev.core.quiet.asked sess) rfl st
  obtain ⟨hasks, hmin⟩ := hc
  have hq : s.dev.core.quiet.Asks sess req .operate := hasks
  obtain ⟨-, -, hrec, -⟩ := hasks
  have hmode : ¬ ((s.dev.core.quiet.asked sess).md.mode = .minimal ∨ (s.dev.core.quiet.asked sess).md.mode = .recovery) :=
    not_or.mpr ⟨hmin, hrec⟩
  obtain ⟨old, hitem⟩ := Core.loneItem_of_hit (v := v) hhit halign htag hrole haddr hcov hmode
  rw [href, if_neg hst] at hitem
  obtain ⟨x, o, hresp⟩ := Core.respond_only (req := req) (st := st) hopen hseq
  have hrun : s.dev.core.quiet.hostItem sess req a v mask = (s.dev.core.quiet.asked sess).respond sess req 2 st [1, st] := by
    unfold Core.hostItem
    rw [Core.request_asks hq]
    exact congrArg (fun r : Core × Nat => r.1.respond sess req 2 r.2 [1, r.2]) hitem
  exact ⟨x, o, by rw [coreCmd_next, hrun, hresp]⟩

/-- A register of one WO field, outside the island's block and without a refusal of its own, refuses no value. -/
theorem Core.refusals_wo {c : Core} {h : Hit} {f : Fld} {a : Nat} {v mask nw : Word} (sess : Nat) (hflds : h.flds = [f])
    (hacc : c.accOf h f = .wo) (hwo : f.acc = .wo) (hisl : ¬ (0xD0000 ≤ a ∧ a < 0xE0000)) (hbad : c.badValue h a nw = false)
    (hown : c.ownRefusals sess h (v &&& mask) = []) : c.refusals sess h a v mask nw = [] := by
  unfold Core.refusals
  by_cases hcov : (f.mask &&& mask) = 0
  · simp [hflds, hcov, hisl]
  · simp [hflds, hisl, hacc, hwo, hbad, hown]

/-- In the island's block every write is refused with READ_ONLY (R39). -/
theorem Core.firstStatus_refusals_island {a : Nat} (c : Core) (sess : Nat) (h : Hit) (v mask nw : Word) (hisl : 0xD0000 ≤ a ∧ a < 0xE0000) :
    firstStatus (c.refusals sess h a v mask nw) = 0x01 := by
  unfold Core.refusals
  rw [if_pos hisl]
  simp [firstStatus, statusOrder]

/-- A core that differs in host access, registers, outputs and the update state alone agrees in every other part. -/
theorem Part.same_of_up (c : Core) (h : HostSt) (r : SMap Word) (o : List Out) (u : Update) :
    ∀ p, p ∉ [.out, .host, .regs, .up] → Part.same c { c with host := h, regs := r, out := o, up := u } p := fun p hp => by
  cases p with
  | out | host | regs | up => exact absurd (by decide) hp
  | _ => rfl

/-- The same, where the update state stays. -/
theorem Part.same_of_host (c : Core) (h : HostSt) (r : SMap Word) (o : List Out) :
    ∀ p, p ∉ [.out, .host, .regs] → Part.same c { c with host := h, regs := r, out := o } p := fun p hp => by
  cases p with
  | out | host | regs => exact absurd (by decide) hp
  | _ => rfl

end Sys2Proof.Machine
end

section
/-!
PROOFS. BLK_XCTL.CLR_EXPERT and ID_DBG_CTL.LOCK: the item of each request, and what it leaves (R13, R39, R804, R806).
-/
namespace Sys2Proof.Machine

/-! ## BLK_XCTL -/

/-- The field of a register whose bit 0 alone is used, as a command (R6). -/
def commandBit : Fld := ⟨0, 0, .wo, 0, false, .any⟩

/-- BLK_XCTL of a block. -/
def xctlHit (b : Nat) : Hit := { key := 0x8000 + 0x10000 * b, flds := [commandBit] }

/-- What holds of each of the 16 blocks holds of a block (R30). -/
theorem block_cases {P : Nat → Prop} {b : Nat} (hb : b < 16) (h0 : P 0) (h1 : P 1) (h2 : P 2) (h3 : P 3) (h4 : P 4) (h5 : P 5) (h6 : P 6)
    (h7 : P 7) (h8 : P 8) (h9 : P 9) (h10 : P 10) (h11 : P 11) (h12 : P 12) (h13 : P 13) (h14 : P 14) (h15 : P 15) : P b :=
  match b, hb with
  | 0, _ => h0 | 1, _ => h1 | 2, _ => h2 | 3, _ => h3 | 4, _ => h4 | 5, _ => h5 | 6, _ => h6 | 7, _ => h7
  | 8, _ => h8 | 9, _ => h9 | 10, _ => h10 | 11, _ => h11 | 12, _ => h12 | 13, _ => h13 | 14, _ => h14 | 15, _ => h15
  | n + 16, h => absurd h (by omega)

theorem regAt_xctl {b : Nat} (hb : b < 16) : regAt (0x8000 + 0x10000 * b) = some (xctlHit b) := by
  apply block_cases hb <;> rfl

theorem Core.addressRefusal_xctl {b : Nat} (hb : b < 16) (c : Core) (sess : Nat) : c.addressRefusal sess (xctlHit b) = 0 := by
  apply block_cases hb <;> rfl

theorem Core.badValue_xctl {b : Nat} (hb : b < 16) (c : Core) (a : Nat) (nw : Word) : c.badValue (xctlHit b) a nw = false := by
  apply block_cases hb <;> rfl

theorem Core.ownRefusals_xctl {b : Nat} (hb : b < 16) (c : Core) (sess : Nat) (v : Word) : c.ownRefusals sess (xctlHit b) v = [] := by
  apply block_cases hb <;> rfl

theorem Core.accOf_xctl {b : Nat} (hb : b < 16) (c : Core) : c.accOf (xctlHit b) commandBit = .wo := by
  apply block_cases hb <;> rfl

theorem coverOf_xctl {b : Nat} (hb : b < 16) : coverOf (xctlHit b) 1 = 1 := by
  apply block_cases hb <;> rfl

/-- No register has a meaning of its own for CLR_EXPERT: the write stores the word (log entry 73). -/
theorem Core.writeEffect_xctl {b : Nat} (hb : b < 16) (c : Core) (sess a : Nat) (v mask nw : Word) :
    c.writeEffect sess (xctlHit b) a v mask nw = (c.store (xctlHit b) a v mask, 0) := by
  apply block_cases hb <;> rfl

/-- CLR_EXPERT is WO, so what it stores is what stood there (R6). -/
theorem storeWrite_xctl (b : Nat) (old v mask : Word) : storeWrite (xctlHit b) old v mask false = old := by
  have hones : old &&& 0xFFFFFFFF#32 = old := BitVec.and_allOnes
  simp [storeWrite, xctlHit, commandBit, hones]

theorem Core.reg_store_xctl (c : Core) (b a k : Nat) (v mask : Word) : (c.store (xctlHit b) a v mask).reg k = c.reg k := by
  unfold Core.store
  rw [storeWrite_xctl, Core.reg_setReg]
  split
  · next h => rw [h]
  · rfl

theorem exec_clrExpert {b : Nat} (hb : b < 16) (sess req : Nat) (s : State) :
    exec (.clrExpert sess req b) s = coreCmd (Core.hostItem sess req (0x8000 + 0x10000 * b) 1 1) s := by
  rw [← instAddr_lt hb]; rfl

/-- CLR_EXPERT in the island's block is refused. -/
theorem clrExpert_island {s : State} {sess req : Nat} (hw : s.dev.core.MayWrite sess req) (heng : (s.dev.core.session sess).role = .engineer) :
    ∃ t, exec (.clrExpert sess req 13) s = .next t ∧ Touches [.host, .regs] s t ∧ RegsBut [] s t ∧ t.dev.core.Answered sess req 2 1 [1, 1] := by
  have hb : 13 < 16 := by decide
  obtain ⟨x, o, hstep⟩ := item_refused (v := 1) (mask := 1) hw (regAt_xctl hb) rfl rfl (by rw [heng]; rfl) (Core.addressRefusal_xctl hb _ _)
    (by rw [coverOf_xctl hb]; decide) (by decide) fun nw => Core.firstStatus_refusals_island _ sess _ 1 _ nw (by decide)
  refine ⟨_, (exec_clrExpert hb sess req s).trans hstep, ⟨rfl, rfl, Part.same_of_host _ _ _ _⟩, fun k _ hk => ?_, ?_⟩
  · exact (Core.Books.asked s.dev.core.quiet sess hw.1.1).regs k hk
  · simp [Core.Answered]

/-- CLR_EXPERT in another block stores what stood there. -/
theorem clrExpert_accepted {s : State} {sess req b : Nat} (hw : s.dev.core.MayWrite sess req)
    (heng : (s.dev.core.session sess).role = .engineer) (hb : b < 16) (h13 : b ≠ 13) :
    ∃ t, exec (.clrExpert sess req b) s = .next t ∧ Accepted s t sess req [] [] := by
  have hask (old : Word) : (s.dev.core.quiet.asked sess).refusals sess (xctlHit b) (0x8000 + 0x10000 * b) 1 (coverOf (xctlHit b) 1)
      (mixed (xctlHit b) 1 (coverOf (xctlHit b) 1) old) = [] :=
    Core.refusals_wo sess rfl (Core.accOf_xctl hb _) rfl (by omega) (Core.badValue_xctl hb _ _ _) (Core.ownRefusals_xctl hb _ _ _)
  obtain ⟨x, o, hstep, hacc⟩ := item_accepted [] [] hw (regAt_xctl hb) (by omega) (inTagWindow_low (by omega)) (.inr heng)
    (Core.addressRefusal_xctl hb _ _) (by rw [coverOf_xctl hb]; decide) hask (fun _ => Core.writeEffect_xctl hb _ _ _ _ _ _) (fun _ => rfl)
    (Part.same_of_host _ _ _ _)
    (fun k _ hk => (Core.reg_store_xctl _ b _ k _ _).trans ((Core.Books.asked s.dev.core.quiet sess hw.1.1).regs k hk))
  exact ⟨_, (exec_clrExpert hb sess req s).trans hstep, hacc⟩

/-! ## ID_DBG_CTL -/

/-- ID_DBG_CTL. -/
def dbgCtlHit : Hit := { key := A.ID_DBG_CTL, flds := [commandBit] }

theorem regAt_dbgCtl : regAt A.ID_DBG_CTL = some dbgCtlHit := rfl

theorem Core.refusals_dbgCtl (c : Core) (sess : Nat) (nw : Word) :
    c.refusals sess dbgCtlHit A.ID_DBG_CTL 1 (coverOf dbgCtlHit 1) nw = [] :=
  Core.refusals_wo sess rfl rfl rfl (by decide) rfl rfl

/-- LOCK closes the debug port (R806). -/
theorem Core.writeEffect_dbgCtl (c : Core) (sess : Nat) (nw : Word) :
    c.writeEffect sess dbgCtlHit A.ID_DBG_CTL 1 (coverOf dbgCtlHit 1) nw = (c.dbgClose, 0) := rfl

/-- The debug port after it was closed. -/
theorem Core.dbgClose_up (c : Core) :
    c.dbgClose.up = { c.up with dbgLevel := 0, dbgTicks := if c.up.dbgLevel = 0 then c.up.dbgTicks else 0 } := by
  unfold Core.dbgClose
  split
  · next h => rw [← h]
  · rw [Core.raise_up]; rfl

/-- Beside the debug port its closing changes the books of an event. -/
theorem Core.dbgClose_books (c : Core) : ∃ u, Core.Books { c with up := u } c.dbgClose := by
  unfold Core.dbgClose
  split
  · exact ⟨c.up, .refl c⟩
  · exact ⟨_, .raise _ _ _ (by decide)⟩

theorem Core.dbgClose_raised {c : Core} (h : c.up.dbgLevel ≠ 0) : c.dbgClose.Raised 0x010C idPath := by
  unfold Core.dbgClose Core.Raised
  rw [if_neg h, lastEvent_raise, Core.raise_plumb]

/-- LOCK as a request: the port closes, then the response leaves. -/
theorem Core.hostItem_dbgCtl {c : Core} {sess req : Nat} (hw : c.MayWrite sess req) :
    c.hostItem sess req A.ID_DBG_CTL 1 1 = (c.asked sess).dbgClose.respond sess req 2 0 [1, 0] := by
  obtain ⟨old, hrun⟩ := Core.hostItem_ok (v := 1) (mask := 1) hw regAt_dbgCtl rfl rfl (.inl rfl) rfl (by decide)
    fun _ => Core.refusals_dbgCtl _ _ _
  rw [hrun, Core.writeEffect_dbgCtl]

theorem dbgLock_accepted {s : State} {sess req : Nat} (hw : s.dev.core.MayWrite sess req) :
    ∃ t, exec (.dbgLock sess req) s = .next t ∧ Accepted s t sess req [.up] [] ∧
      t.dev.core.up = { s.dev.core.up with dbgLevel := 0, dbgTicks := if s.dev.core.up.dbgLevel = 0 then s.dev.core.up.dbgTicks else 0 } ∧
      (s.dev.core.up.dbgLevel ≠ 0 → t.dev.core.Raised 0x010C idPath) := by
  obtain ⟨u, hbooks⟩ := (s.dev.core.quiet.asked sess).dbgClose_books
  have hpart : ∀ p, p ∉ [.out, .host, .regs, .up] → Part.same s.dev.core (s.dev.core.quiet.asked sess).dbgClose p := by
    obtain ⟨x, r, honly⟩ := hbooks.only
    rw [honly]
    exact Part.same_of_up _ _ _ _ _
  have hasked := Core.Books.asked s.dev.core.quiet sess hw.1.1
  obtain ⟨x, o, hstep, hacc⟩ := item_accepted [.up] [] hw regAt_dbgCtl rfl rfl (.inl rfl) rfl (by decide)
    (fun _ => Core.refusals_dbgCtl _ _ _) (fun _ => Core.writeEffect_dbgCtl _ _ _) hbooks.sess hpart
    (fun k _ hk => (hbooks.regs k hk).trans (hasked.regs k hk))
  have hrun := Host.Outcome.next.inj ((coreCmd_next _ s).symm.trans hstep)
  rw [Core.hostItem_dbgCtl (c := s.dev.core.quiet) hw] at hrun
  have hx : x = ((s.dev.core.quiet.asked sess).dbgClose.respond sess req 2 0 [1, 0]).host := congrArg (fun t => t.dev.core.host) hrun.symm
  obtain ⟨hopen, hseq⟩ := hw.answerable (hbooks.sess sess) 0
  refine ⟨_, hstep, hacc, Core.dbgClose_up _, fun hlevel => ?_⟩
  refine Eq.trans (lastEvent_congr _ (s.dev.core.quiet.asked sess).dbgClose ?_ _ _) (Core.dbgClose_raised hlevel)
  exact (congrArg HostSt.lastEv hx).trans (Core.lastEv_respond hopen hseq)

/-! ## The statement -/

/-- Settles O29: each request is one WRITE item on a WO bit. CLR_EXPERT stores what stood there, or is refused with READ_ONLY in the island's
block; LOCK closes the debug port and raises 0x010C where it was open. -/
theorem expertAndDebugRequests : Obligations.ExpertAndDebugRequests := by
  unfold Obligations.ExpertAndDebugRequests
  refine fun s sess req hw => ⟨fun heng b hb => ?_, dbgLock_accepted hw⟩
  by_cases h13 : b = 13
  · subst h13; exact clrExpert_island hw heng
  · simp only [if_neg h13]; exact clrExpert_accepted hw heng hb h13

end Sys2Proof.Machine
end
